-- ==== Sys2Proof/Word.lean ====
section
/-! DEFINITION. The byte in which the four serial links carry their frames (R177). Every other quantity of the
manual is an integer in a stated unit (Introduction, 0-5) and is a `Nat` or an `Int` in this model. -/

namespace Sys2Proof

/-- One character of a serial link: 8 data bits (R177). -/
abbrev Byte := BitVec 8

end Sys2Proof
end

