-- ==== Sys2Proof/Config.lean ====
section
/-! DEFINITION. What the manual fixes for every part (named constants) and what it leaves open (constants without a
body, so that nothing can be proved about their values). An open constant is applied to the values it depends on, or
to the free index of the state, which the step that uses it advances. -/

namespace Sys2Proof

/-- The arrival time base returns to 0 after 999,999,999,999 (R1). -/
def Config.arrivalModulus : Nat := 1000000000000

/-- A running total returns to 0 after 9,999,999,999,999 Wh (R21). -/
def Config.totalModulus : Nat := 10000000000000

/-- The greatest rate estimate, in kW (R9, R30). -/
def Config.maxRate : Nat := 4000000

/-- Words of the retained store (R165). -/
def Config.storeWords : Nat := 16384

/-- Length of one scrub sweep, in ms (R171). -/
def Config.sweepMillis : Nat := 600000

/-- Records that the archive ring holds (R155). -/
def Config.archiveCapacity : Nat := 96

/-- Lifetime of an OPEN proposal entry on the proposal time base, in s (R127). -/
def Config.proposalLife : Nat := 1800

/-- One more than the greatest device time (R142). -/
def Config.clockModulus : Nat := 281474976710656

/-- One more than the greatest flare accumulator, in kJ (Table 8-3-1). -/
def Config.flareModulus : Nat := 1000000000000000

/-- One more than the greatest contract revision (R125). -/
def Config.revisionModulus : Nat := 4294967296

/-- Whether a RESET low pulse of 100 µs to 1 ms is taken: R194 says it may or may not be (log 5). -/
opaque Config.resetTaken : Nat → Bool

/-- How a COMMISSION strap that changes within its window is read: R194 allows either level (log 6). -/
opaque Config.strapReadsHigh : Nat → Bool

/-- The device time that follows the greatest one, or that a step or a trim beyond it gives: R142 states none (log 7). -/
opaque Config.clockBeyond : Nat → Nat

/-- The flare accumulator after a credit that carries it past its greatest value: not stated (log 8). -/
opaque Config.flareBeyond : Nat → Nat

/-- Whether the proposer and the set of a damaged proposal entry read intact (R139, log 9). -/
opaque Config.entryPartiesIntact : Nat → Bool

/-- Whether the number of a damaged proposal entry reads intact (R139, log 9). -/
opaque Config.entryNumberIntact : Nat → Bool

/-- Region and index reported for an uncorrectable word that serves no thing (log 10). -/
opaque Config.spareWordReport : Nat → Nat × Nat

/-- Index reported for damage in a place of the archive ring that holds no record yet (log 10). -/
opaque Config.emptyPlaceIndex : Nat → Nat

/-- Which of several events due at one moment is taken first (0-5, log 11). -/
opaque Config.tieBreak : Nat → Nat

/-- How many bits of a word stand in error once the store has been lost: nothing says what its words then hold (R165,
log 24). -/
opaque Config.lostBits : Nat → Nat → Nat

/-- The seconds from a first time to a second one that lies before it, where a rule takes a length or a time so formed (R112,
R116, R146, R159, R164, log 40). -/
opaque Config.spanBelowZero : Nat → Nat → Nat

end Sys2Proof
end

