-- ==== Sys2Proof/Machine/Arith.lean ====
section
/-! DEFINITION. Small arithmetic shared by the blocks: elapsed time on a count that returns to 0, clamping,
saturating counts, and big-endian byte strings (R1, R23, R6, R192). -/

namespace Sys2Proof.Machine

/-- Elapsed time on a count modulo `m`: the later value less the earlier one, modulo `m` (R1). -/
def elapsedMod (m earlier later : Nat) : Nat := (later + m - earlier % m) % m

/-- `x` limited to the range `lo` to `hi` (R23, R26). -/
def clampInt (lo hi x : Int) : Int := if x < lo then lo else if hi < x then hi else x

/-- One more, staying at `limit` once there (R6, R149, R166, R184). -/
def countUp (limit n : Nat) : Nat := if n < limit then n + 1 else limit

/-- `⌊(x + y/2) / y⌋` formed as R24 forms it: `⌊(2x + y) / 2y⌋`, an exact half rounded up. -/
def roundDiv (x y : Nat) : Nat := (2 * x + y) / (2 * y)

/-- The unsigned number that bytes spell, most significant byte first (R192). -/
def natOfBytes (bs : List Byte) : Nat := bs.foldl (fun n b => 256 * n + b.toNat) 0

/-- The `k` bytes of `n` modulo 2^(8k), most significant first (R192). -/
def bytesOfNat : Nat → Nat → List Byte
  | 0, _ => []
  | k + 1, n => bytesOfNat k (n / 256) ++ [BitVec.ofNat 8 n]

/-- Two's complement reading of `k` bytes' worth of a number (R192). -/
def intOfNat (k n : Nat) : Int := if n < 2 ^ (8 * k - 1) then (n : Int) else (n : Int) - (2 ^ (8 * k) : Nat)

/-- Two's complement of an integer in `k` bytes (R192). -/
def natOfInt (k : Nat) (i : Int) : Nat := (i % ((2 ^ (8 * k) : Nat) : Int)).toNat

/-- A number of bits from flags, bit 0 first (Table 10-6-3, "set of flags"). -/
def natOfFlags : List Bool → Nat
  | [] => 0
  | b :: bs => (if b then 1 else 0) + 2 * natOfFlags bs

/-- 0 clear, 1 set (Table 10-6-3). -/
def natOfBool (b : Bool) : Nat := if b then 1 else 0

end Sys2Proof.Machine
end

