-- ==== Sys2Proof/Syntax.lean ====
section
/-! DEFINITION. The commands that the part takes: one constructor of `Instr` for each row of
spec/opcode_table.json, with the operands that the row's rule gives it. -/

namespace Sys2Proof

/-- The three parties; the link on which a request arrives is its party (0-2, R177). -/
inductive Party where
  | works | town | grid
  deriving DecidableEq, Repr

/-- What every request frame says before its fields: the link it came on and the length `N` of its body, the
request code included (Table 10-6-1). -/
structure Frame where
  party  : Party
  length : Nat
  deriving DecidableEq, Repr

/-- A run of characters on a serial link, ended by an idle gap of 1 ms, and whether one of its characters had a
stop-bit error (R177). -/
structure RawFrame where
  chars     : List Byte
  stopError : Bool
  deriving DecidableEq, Repr

/-- The three bytes that name a contract item in a request: group, index, item number (R182). -/
structure ItemName where
  group : Nat
  index : Nat
  item  : Nat
  deriving DecidableEq, Repr

/-- The transmitter status of a sample frame (R11, Table 10-6-4). -/
inductive SampleStatus where
  | good | uncertain | bad
  deriving DecidableEq, Repr

/-- The level of the COMMISSION strap over the sampling window of R194. -/
inductive Strap where
  | low | high
  /-- The level changes within the window, so either kind that a valid signature allows may be taken (R194). -/
  | unstable
  deriving DecidableEq, Repr

/-- The commands, one constructor for each row of spec/opcode_table.json. Fields of a request are the numbers that
its bytes carry, so a consumer number, an item name or a class mask may be one the part refuses (R179). -/
inductive Instr where
  /-- PULSE_ARRIVAL (R2, R5): a rising edge on an input that was high for `high` µs and then low for `low` µs. -/
  | pulseArrival (ch : Fin 16) (high low : Nat)
  /-- ZERO_FLOW_EXPIRY (R7). -/
  | zeroFlowExpiry (ch : Fin 16)
  /-- SAMPLE_FRAME (R11). -/
  | sampleFrame (raw : RawFrame)
  /-- FRESHNESS_EXPIRY (R14). -/
  | freshnessExpiry (k : Fin 22)
  /-- ALLOCATION_PERIOD_EXPIRY (R52). -/
  | allocationPeriodExpiry
  /-- START (R77). -/
  | start (f : Frame) (c : Nat)
  /-- STOP (R78). -/
  | stop (f : Frame) (c : Nat)
  /-- NOMINATE (R79): a rate in kW. -/
  | nominate (f : Frame) (c rate : Nat)
  /-- CLEAR (R96). -/
  | clear (f : Frame) (c : Nat)
  /-- FUEL BACKUP (R80). -/
  | fuelBackup (f : Frame) (c : Nat)
  /-- FUEL GAS (R81). -/
  | fuelGas (f : Frame) (c : Nat)
  /-- PURGE_EXPIRY (R84). -/
  | purgeExpiry (c : Fin 8)
  /-- OVERDRAW_MASK_EXPIRY (R89, R90). -/
  | overdrawMaskExpiry (c : Fin 8)
  /-- LINE_LOW_MASK_EXPIRY (R89, R91). -/
  | lineLowMaskExpiry (c : Fin 8)
  /-- PASSING_MASK_EXPIRY (R89, R92). -/
  | passingMaskExpiry (c : Fin 8)
  /-- LOW_DRAW_TIMER_EXPIRY (R94). -/
  | lowDrawTimerExpiry (c : Fin 8)
  /-- RECOVERY_DELAY_EXPIRY (R97). -/
  | recoveryDelayExpiry (c : Fin 8)
  /-- SCHEDULE (R104): an interval start in s and an export in kW. -/
  | schedule (f : Frame) (start kw : Nat)
  /-- WRITE (R123). -/
  | write (f : Frame) (name : ItemName) (value : Int)
  /-- WRITE IDENTITY (R124). -/
  | writeIdentity (f : Frame) (code : Nat) (name : List Byte)
  /-- PROPOSE (R127). -/
  | propose (f : Frame) (items : List (ItemName × Int))
  /-- CONCUR (R128). -/
  | concur (f : Frame) (number : Nat)
  /-- REJECT (R129). -/
  | reject (f : Frame) (number : Nat)
  /-- WITHDRAW (R129). -/
  | withdraw (f : Frame) (number : Nat)
  /-- PROPOSAL_EXPIRY (R130) of the entry with this number. -/
  | proposalExpiry (number : Nat)
  /-- WRITE CLOCK (R143): a device time in s. -/
  | writeClock (f : Frame) (time : Nat)
  /-- TRIM (R144): a correction in s. -/
  | trim (f : Frame) (d : Int)
  /-- REGULAR_BOUNDARY (R147, R151). -/
  | regularBoundary
  /-- ARCHIVE (R156). -/
  | archive (f : Frame)
  /-- CURSOR with the choice OLDEST (R157). -/
  | cursorOldest (f : Frame)
  /-- CURSOR with the choice NEWEST (R157). -/
  | cursorNewest (f : Frame)
  /-- CURSOR with a record number (R157). -/
  | cursorNumber (f : Frame) (number : Nat)
  /-- SCRUB_READ (R171): the sweep reads its next word. -/
  | scrubRead
  /-- START_UP_OPERATION (R174): the strap as sampled, and whether the supply is lost before a cold start has
  written the store signature (R173). -/
  | startUpOperation (strap : Strap) (cut : Bool)
  /-- SUPPLY_FALL (R175, R193). -/
  | supplyFall
  /-- RESET_ASSERTION (R194): RESET held low for `low` µs. -/
  | resetAssertion (low : Nat)
  /-- QUERY target 0 (R20). -/
  | querySampleChannel (f : Frame) (index : Nat)
  /-- QUERY target 1 (R20). -/
  | queryPulseChannel (f : Frame) (index : Nat)
  /-- QUERY target 2 (R102). -/
  | queryConsumer (f : Frame) (index : Nat)
  /-- QUERY target 3 (R49). -/
  | queryHolder (f : Frame) (index : Nat)
  /-- QUERY target 4 (R73). -/
  | queryAllocation (f : Frame) (index : Nat)
  /-- QUERY target 5 (R21). -/
  | queryTotals (f : Frame) (index : Nat)
  /-- QUERY target 6 (R116). -/
  | queryExportSchedule (f : Frame) (index : Nat)
  /-- QUERY target 7 (R141). -/
  | queryContractItem (f : Frame) (name : ItemName)
  /-- QUERY target 8 (R141). -/
  | queryProposalTable (f : Frame) (index : Nat)
  /-- QUERY target 9 (R164). -/
  | queryClock (f : Frame) (index : Nat)
  /-- QUERY target 10 (R176). -/
  | queryIntegrityReport (f : Frame) (index : Nat)
  /-- QUERY target 11 (R195). -/
  | queryIdentity (f : Frame) (index : Nat)
  /-- MASK (R187): bit k of `classes` for class k. -/
  | mask (f : Frame) (classes : Nat)
  /-- NOTICE (R188). -/
  | notice (f : Frame)
  /-- UNKNOWN_REQUEST (R179): a request code and the first field of the body (0 where there is none). A frame whose
  code is known but whose selecting field (QUERY target, CURSOR choice) holds no member is one of these too. -/
  | unknownRequest (f : Frame) (code selector : Nat)
  /-- BAD_FRAME (R177). -/
  | badFrame (p : Party) (raw : RawFrame)
  /-- BUSY_PORT_FRAME (R178). -/
  | busyPortFrame (p : Party) (raw : RawFrame)
  /-- RESPONSE_SENT (R178): the last character of the response on this port has gone. -/
  | responseSent (p : Party)
  /-- STORE_WORD_ERROR (R165, R171): this word of the store gains a bit in error. -/
  | storeWordError (word : Fin 16384)
  /-- BACKUP_SUPPLY_LOSS (R175). -/
  | backupSupplyLoss
  deriving DecidableEq, Repr

end Sys2Proof
end

