-- ==== Sys2Proof/Machine/Contract.lean ====
section
/-! DEFINITION. The contract item catalogue of Table 7-1-1: the items and how requests name them (R182), their
ranges and values after cold start, and the in-force contract as plain data (R117). -/

namespace Sys2Proof.Machine

/-- A contract item that is held in force (Table 7-1-1, Table 10-3-1). Within a group, `k` is the item number. -/
inductive Item where
  | consumer (c : Fin 8) (k : Fin 23)
  | source (n : Fin 4) (k : Fin 5)
  | holder (k : Fin 11)
  | allocationPeriod
  | heatPoint (n : Fin 3) (k : Fin 5)
  | heatPrice (b : Fin 4)
  | gasPrice (b : Fin 4)
  | bandEntry (h : Fin 24)
  | exportItem (k : Fin 6)
  | intervalLength
  | rangeLow (k : Fin 22)
  | rangeHigh (k : Fin 22)
  | freshness (k : Fin 22)
  | mainPressureSubstitute
  | mainTemperatureSubstitute
  | lineSubstitute (c : Fin 8)
  | mixedSubstitute
  deriving DecidableEq, Repr

/-- What an item name can name: an item held in force, or one of the two proposal items (Table 7-1-1, mark P). -/
inductive ItemRef where
  | item (i : Item)
  | offset
  | lock
  deriving DecidableEq, Repr

/-! Item numbers within the consumer group, in the order of Table 7-1-1 (R182). -/
abbrev cOwner : Fin 23 := 0
abbrev cClass : Fin 23 := 1
abbrev cFloor : Fin 23 := 2
abbrev cCeiling : Fin 23 := 3
abbrev cHardCeiling : Fin 23 := 4
abbrev cLinked : Fin 23 := 5
abbrev cBackupPresent : Fin 23 := 6
abbrev cPurgeTime : Fin 23 := 7
abbrev cPurgeThreshold : Fin 23 := 8
abbrev cLineMinimum : Fin 23 := 9
abbrev cTolPct : Fin 23 := 10
abbrev cSlack : Fin 23 := 11
abbrev cOverdrawMask : Fin 23 := 12
abbrev cLineLowMask : Fin 23 := 13
abbrev cPassingMask : Fin 23 := 14
abbrev cPassingThreshold : Fin 23 := 15
abbrev cLowPct : Fin 23 := 16
abbrev cLowDrawTime : Fin 23 := 17
abbrev cRecoveryMode : Fin 23 := 18
abbrev cRecoveryDelay : Fin 23 := 19
abbrev cPulseWeight : Fin 23 := 20
abbrev cMinSpacing : Fin 23 := 21
abbrev cZeroFlow : Fin 23 := 22

/-! Item numbers within the source, holder, heat point and export groups (Table 7-1-1, R182). -/
abbrev sInService : Fin 5 := 0
abbrev sPulseWeight : Fin 5 := 1
abbrev sMinSpacing : Fin 5 := 2
abbrev sZeroFlow : Fin 5 := 3
abbrev sSubstitute : Fin 5 := 4
abbrev hTLL : Fin 11 := 0
abbrev hTL : Fin 11 := 1
abbrev hTH : Fin 11 := 2
abbrev hTHH : Fin 11 := 3
abbrev hHysteresis : Fin 11 := 4
abbrev hFillLL : Fin 11 := 5
abbrev hFillL : Fin 11 := 6
abbrev hDrawH : Fin 11 := 7
abbrev hMargin : Fin 11 := 8
abbrev hRestoreMargin : Fin 11 := 9
abbrev hSubstituteLevel : Fin 11 := 10
abbrev pPulseWeight : Fin 5 := 0
abbrev pMinSpacing : Fin 5 := 1
abbrev pZeroFlow : Fin 5 := 2
abbrev pSupply : Fin 5 := 3
abbrev pReturn : Fin 5 := 4
abbrev xHeatRate : Fin 6 := 0
abbrev xDefaultExport : Fin 6 := 1
abbrev xGate : Fin 6 := 2
abbrev xPulseWeight : Fin 6 := 3
abbrev xMinSpacing : Fin 6 := 4
abbrev xZeroFlow : Fin 6 := 5

/-- The item that a name names, where one exists (R182, Table 10-3-1). -/
def resolveName (n : ItemName) : Option ItemRef :=
  match n.group with
  | 0 => if hi : n.index < 8 then if hk : n.item < 23 then some (.item (.consumer ⟨n.index, hi⟩ ⟨n.item, hk⟩)) else none else none
  | 1 => if hi : n.index < 4 then if hk : n.item < 5 then some (.item (.source ⟨n.index, hi⟩ ⟨n.item, hk⟩)) else none else none
  | 2 => if n.index = 0 then if hk : n.item < 11 then some (.item (.holder ⟨n.item, hk⟩)) else none else none
  | 3 => if n.index = 0 ∧ n.item = 0 then some (.item .allocationPeriod) else none
  | 4 => if hi : n.index < 3 then if hk : n.item < 5 then some (.item (.heatPoint ⟨n.index, hi⟩ ⟨n.item, hk⟩)) else none else none
  | 5 =>
    match n.item with
    | 0 => if hi : n.index < 4 then some (.item (.heatPrice ⟨n.index, hi⟩)) else none
    | 1 => if hi : n.index < 4 then some (.item (.gasPrice ⟨n.index, hi⟩)) else none
    | 2 => if hi : n.index < 24 then some (.item (.bandEntry ⟨n.index, hi⟩)) else none
    | _ => none
  | 6 => if n.index = 0 then if hk : n.item < 6 then some (.item (.exportItem ⟨n.item, hk⟩)) else none else none
  | 7 =>
    match n.item with
    | 0 => if n.index = 0 then some (.item .intervalLength) else none
    | 1 => if hi : n.index < 22 then some (.item (.rangeLow ⟨n.index, hi⟩)) else none
    | 2 => if hi : n.index < 22 then some (.item (.rangeHigh ⟨n.index, hi⟩)) else none
    | 3 => if hi : n.index < 22 then some (.item (.freshness ⟨n.index, hi⟩)) else none
    | 4 => if n.index = 0 then some (.item .mainPressureSubstitute) else none
    | 5 => if n.index = 0 then some (.item .mainTemperatureSubstitute) else none
    | 6 => if hi : 7 ≤ n.index ∧ n.index < 15 then some (.item (.lineSubstitute ⟨n.index - 7, by omega⟩)) else none
    | 7 => if n.index = 21 then some (.item .mixedSubstitute) else none
    | _ => none
  | 8 => if n.index = 0 ∧ n.item = 0 then some .offset else none
  | 9 => if n.index = 0 ∧ n.item = 0 then some .lock else none
  | _ => none

/-- The three-byte name of an item (R182). -/
def nameOf : ItemRef → ItemName
  | .item (.consumer c k) => ⟨0, c, k⟩
  | .item (.source n k) => ⟨1, n, k⟩
  | .item (.holder k) => ⟨2, 0, k⟩
  | .item .allocationPeriod => ⟨3, 0, 0⟩
  | .item (.heatPoint n k) => ⟨4, n, k⟩
  | .item (.heatPrice b) => ⟨5, b, 0⟩
  | .item (.gasPrice b) => ⟨5, b, 1⟩
  | .item (.bandEntry h) => ⟨5, h, 2⟩
  | .item (.exportItem k) => ⟨6, 0, k⟩
  | .item .intervalLength => ⟨7, 0, 0⟩
  | .item (.rangeLow k) => ⟨7, k, 1⟩
  | .item (.rangeHigh k) => ⟨7, k, 2⟩
  | .item (.freshness k) => ⟨7, k, 3⟩
  | .item .mainPressureSubstitute => ⟨7, 0, 4⟩
  | .item .mainTemperatureSubstitute => ⟨7, 0, 5⟩
  | .item (.lineSubstitute c) => ⟨7, c + 7, 6⟩
  | .item .mixedSubstitute => ⟨7, 21, 7⟩
  | .offset => ⟨8, 0, 0⟩
  | .lock => ⟨9, 0, 0⟩

/-- Values after cold start of a consumer's items, by item number (Table 5-1-1, Table 7-1-1). -/
def consumerDefaults : Vector Int 23 :=
  #v[0, 3, 0, 0, 0, 0, 0, 60, 105000, 0, 10, 1000, 10, 5, 30, 1000, 0, 600, 0, 300, 1000, 10, 60]

/-- Ranges of a consumer's items, by item number (Table 5-1-1, Table 7-1-1). -/
def consumerRanges : Vector (Int × Int) 23 :=
  #v[(0, 2), (0, 3), (0, 4000000), (0, 4000000), (0, 4000000), (0, 1), (0, 1), (30, 240), (0, 1000000), (0, 1000000),
     (0, 50), (0, 50000), (1, 60), (1, 60), (1, 60), (0, 100000), (0, 100), (10, 3600), (0, 1), (60, 3600),
     (1, 10000), (1, 1000), (1, 3600)]

/-- Values after cold start and ranges of a source's items (Table 7-1-1). -/
def sourceDefaults : Vector Int 5 := #v[0, 1000, 10, 60, 3300]
def sourceRanges : Vector (Int × Int) 5 := #v[(0, 1), (1, 10000), (1, 1000), (1, 3600), (1000, 40000)]

/-- Values after cold start of the holder items (Table 3-1-1). -/
def holderDefaults : Vector Int 11 := #v[50000, 100000, 300000, 350000, 5000, 60000, 20000, 20000, 5000, 10000, 200000]

/-- Ranges of the holder items; the substitute level has the range of A6 after cold start (Table 3-1-1, Table
1-5-2; log 12). -/
def holderRanges : Vector (Int × Int) 11 :=
  #v[(0, 10000000), (0, 10000000), (0, 10000000), (0, 10000000), (0, 1000000), (0, 1000000), (0, 1000000), (0, 1000000),
     (0, 1000000), (0, 1000000), (0, 400000)]

/-- Values after cold start and ranges of a heat point's items (Table 7-1-1). -/
def heatPointDefaults : Vector Int 5 := #v[100000, 10, 60, 9000, 5000]
def heatPointRanges : Vector (Int × Int) 5 := #v[(1, 1000000), (1, 1000), (1, 3600), (0, 18000), (0, 18000)]

/-- Values after cold start and ranges of the export items (Table 6-1-1, Table 7-1-1). -/
def exportDefaults : Vector Int 6 := #v[2800, 0, 2, 10000, 10, 60]
def exportRanges : Vector (Int × Int) 6 := #v[(1000, 6000), (0, 2000000), (1, 4), (1, 100000), (1, 1000), (1, 3600)]

/-- Range of sample channel Ak after cold start (Table 1-5-2). -/
def sampleRangeDefault (k : Fin 22) : Int × Int :=
  if k.val < 4 ∨ k.val = 21 then (1000, 40000)
  else if k.val = 4 then (80000, 400000)
  else if k.val = 5 then (-4000, 10000)
  else if k.val = 6 then (0, 400000)
  else if k.val < 15 then (0, 1000000)
  else (0, 18000)

/-- The least and the greatest signed 32-bit number (R11, R182). -/
def s32Min : Int := -2147483648
def s32Max : Int := 2147483647

/-- Value after cold start of an item (Table 7-1-1). -/
def itemDefault : Item → Int
  | .consumer _ k => consumerDefaults[k]
  | .source _ k => sourceDefaults[k]
  | .holder k => holderDefaults[k]
  | .allocationPeriod => 30
  | .heatPoint _ k => heatPointDefaults[k]
  | .heatPrice _ => 0
  | .gasPrice _ => 0
  | .bandEntry _ => 0
  | .exportItem k => exportDefaults[k]
  | .intervalLength => 900
  | .rangeLow k => (sampleRangeDefault k).1
  | .rangeHigh k => (sampleRangeDefault k).2
  | .freshness _ => 10
  | .mainPressureSubstitute => 110000
  | .mainTemperatureSubstitute => 2000
  | .lineSubstitute _ => 101325
  | .mixedSubstitute => 8000

/-- Range of an item (Table 7-1-1). An item given only its channel's unit may take every signed 32-bit value
(log 12). -/
def itemRange : Item → Int × Int
  | .consumer _ k => consumerRanges[k]
  | .source _ k => sourceRanges[k]
  | .holder k => holderRanges[k]
  | .allocationPeriod => (5, 120)
  | .heatPoint _ k => heatPointRanges[k]
  | .heatPrice _ => (0, 1000000)
  | .gasPrice _ => (0, 1000000)
  | .bandEntry _ => (0, 3)
  | .exportItem k => exportRanges[k]
  | .intervalLength => (900, 3600)
  | .rangeLow _ => (s32Min, s32Max)
  | .rangeHigh _ => (s32Min, s32Max)
  | .freshness _ => (1, 60)
  | .mainPressureSubstitute => (s32Min, s32Max)
  | .mainTemperatureSubstitute => (s32Min, s32Max)
  | .lineSubstitute _ => (s32Min, s32Max)
  | .mixedSubstitute => (s32Min, s32Max)

/-- The listed choices of an item that has them (Table 7-1-1, R118). -/
def itemChoices : Item → Option (List Int)
  | .consumer _ k => if k = cPurgeTime then some [30, 60, 120, 240] else none
  | .intervalLength => some [900, 1800, 3600]
  | _ => none

/-- A value is in range when it lies in the item's range and among its listed choices (R118). -/
def itemInRange (i : Item) (v : Int) : Bool :=
  (itemRange i).1 ≤ v && v ≤ (itemRange i).2 &&
    match itemChoices i with
    | some l => l.contains v
    | none => true

/-- Range of what a name names: the offset is ±2,678,400 s and not 0, the lock is 1 (Table 7-1-1, R182). -/
def refInRange (r : ItemRef) (v : Int) : Bool :=
  match r with
  | .item i => itemInRange i v
  | .offset => -2678400 ≤ v && v ≤ 2678400 && v != 0
  | .lock => v == 1

/-- The values of `refInRange` as intervals from a low to a high value, as QUERY of the item returns its range (R141,
log 4): each listed choice is an interval of its own, and the offset leaves out 0. -/
def refRanges : ItemRef → List (Int × Int)
  | .item i =>
    match itemChoices i with
    | some l => l.map fun v => (v, v)
    | none => [itemRange i]
  | .offset => [(-2678400, -1), (1, 2678400)]
  | .lock => [(1, 1)]

/-- The structural items: owner, backup present, purge time select, purge threshold and pulse weight of a consumer
(R120). -/
def isStructural : Item → Bool
  | .consumer _ k => k = cOwner || k = cBackupPresent || k = cPurgeTime || k = cPurgeThreshold || k = cPulseWeight
  | _ => false

/-- The write-only item: a consumer's hard ceiling (R120). -/
def isWriteOnly : Item → Bool
  | .consumer _ k => k = cHardCeiling
  | _ => false

/-- The consumer that an item belongs to, if it is a consumer's item (5-1). -/
def itemConsumer : Item → Option (Fin 8)
  | .consumer c _ => some c
  | _ => none

/-- The in-force contract: one value for every item of the catalogue (R117). -/
structure Contract where
  consumer         : Vector (Vector Int 23) 8
  source           : Vector (Vector Int 5) 4
  holder           : Vector Int 11
  allocationPeriod : Int
  heatPoint        : Vector (Vector Int 5) 3
  heatPrice        : Vector Int 4
  gasPrice         : Vector Int 4
  bandTable        : Vector Int 24
  exportItems      : Vector Int 6
  intervalLength   : Int
  rangeLow         : Vector Int 22
  rangeHigh        : Vector Int 22
  freshness        : Vector Int 22
  mainPressure     : Int
  mainTemperature  : Int
  lineSubstitute   : Vector Int 8
  mixedSubstitute  : Int
  deriving DecidableEq, Repr

/-- The contract after a cold start: every item at its value of Table 7-1-1 (R140). -/
def coldContract : Contract where
  consumer := Vector.replicate 8 consumerDefaults
  source := Vector.replicate 4 sourceDefaults
  holder := holderDefaults
  allocationPeriod := 30
  heatPoint := Vector.replicate 3 heatPointDefaults
  heatPrice := Vector.replicate 4 0
  gasPrice := Vector.replicate 4 0
  bandTable := Vector.replicate 24 0
  exportItems := exportDefaults
  intervalLength := 900
  rangeLow := Vector.ofFn fun k => (sampleRangeDefault k).1
  rangeHigh := Vector.ofFn fun k => (sampleRangeDefault k).2
  freshness := Vector.replicate 22 10
  mainPressure := 110000
  mainTemperature := 2000
  lineSubstitute := Vector.replicate 8 101325
  mixedSubstitute := 8000

/-- The in-force value of an item (R117). -/
def readItem (k : Contract) : Item → Int
  | .consumer c i => (k.consumer[c])[i]
  | .source n i => (k.source[n])[i]
  | .holder i => k.holder[i]
  | .allocationPeriod => k.allocationPeriod
  | .heatPoint n i => (k.heatPoint[n])[i]
  | .heatPrice b => k.heatPrice[b]
  | .gasPrice b => k.gasPrice[b]
  | .bandEntry h => k.bandTable[h]
  | .exportItem i => k.exportItems[i]
  | .intervalLength => k.intervalLength
  | .rangeLow i => k.rangeLow[i]
  | .rangeHigh i => k.rangeHigh[i]
  | .freshness i => k.freshness[i]
  | .mainPressureSubstitute => k.mainPressure
  | .mainTemperatureSubstitute => k.mainTemperature
  | .lineSubstitute c => k.lineSubstitute[c]
  | .mixedSubstitute => k.mixedSubstitute

/-- The contract with one item's in-force value replaced (R117). -/
def writeItem (k : Contract) (i : Item) (v : Int) : Contract :=
  match i with
  | .consumer c i => { k with consumer := k.consumer.set c (k.consumer[c].set i v) }
  | .source n i => { k with source := k.source.set n (k.source[n].set i v) }
  | .holder i => { k with holder := k.holder.set i v }
  | .allocationPeriod => { k with allocationPeriod := v }
  | .heatPoint n i => { k with heatPoint := k.heatPoint.set n (k.heatPoint[n].set i v) }
  | .heatPrice b => { k with heatPrice := k.heatPrice.set b v }
  | .gasPrice b => { k with gasPrice := k.gasPrice.set b v }
  | .bandEntry h => { k with bandTable := k.bandTable.set h v }
  | .exportItem i => { k with exportItems := k.exportItems.set i v }
  | .intervalLength => { k with intervalLength := v }
  | .rangeLow i => { k with rangeLow := k.rangeLow.set i v }
  | .rangeHigh i => { k with rangeHigh := k.rangeHigh.set i v }
  | .freshness i => { k with freshness := k.freshness.set i v }
  | .mainPressureSubstitute => { k with mainPressure := v }
  | .mainTemperatureSubstitute => { k with mainTemperature := v }
  | .lineSubstitute c => { k with lineSubstitute := k.lineSubstitute.set c v }
  | .mixedSubstitute => { k with mixedSubstitute := v }

/-- Pulse weight item of channel Pn (R3, Table 0-5-1). -/
def pulseWeightItem (ch : Fin 16) : Item :=
  if h : ch.val < 4 then .source ⟨ch, h⟩ sPulseWeight
  else if h : ch.val < 12 then .consumer ⟨ch - 4, by omega⟩ cPulseWeight
  else if h : ch.val < 15 then .heatPoint ⟨ch - 12, by omega⟩ pPulseWeight
  else .exportItem xPulseWeight

/-- Minimum spacing item of channel Pn (R3). -/
def minSpacingItem (ch : Fin 16) : Item :=
  if h : ch.val < 4 then .source ⟨ch, h⟩ sMinSpacing
  else if h : ch.val < 12 then .consumer ⟨ch - 4, by omega⟩ cMinSpacing
  else if h : ch.val < 15 then .heatPoint ⟨ch - 12, by omega⟩ pMinSpacing
  else .exportItem xMinSpacing

/-- Zero-flow timeout item of channel Pn (R3). -/
def zeroFlowItem (ch : Fin 16) : Item :=
  if h : ch.val < 4 then .source ⟨ch, h⟩ sZeroFlow
  else if h : ch.val < 12 then .consumer ⟨ch - 4, by omega⟩ cZeroFlow
  else if h : ch.val < 15 then .heatPoint ⟨ch - 12, by omega⟩ pZeroFlow
  else .exportItem xZeroFlow

/-- The channel whose zero-flow timeout an item is, if it is one (R3). -/
def zeroFlowChannel : Item → Option (Fin 16)
  | .source n k => if k = sZeroFlow then some ⟨n, by omega⟩ else none
  | .consumer c k => if k = cZeroFlow then some ⟨c + 4, by omega⟩ else none
  | .heatPoint n k => if k = pZeroFlow then some ⟨n + 12, by omega⟩ else none
  | .exportItem k => if k = xZeroFlow then some 15 else none
  | _ => none

/-- Substitute item of sample channel Ak (Table 1-5-2). -/
def substituteItem (k : Fin 22) : Item :=
  if h : k.val < 4 then .source ⟨k, h⟩ sSubstitute
  else if k.val = 4 then .mainPressureSubstitute
  else if k.val = 5 then .mainTemperatureSubstitute
  else if k.val = 6 then .holder hSubstituteLevel
  else if h : k.val < 15 then .lineSubstitute ⟨k - 7, by omega⟩
  else if k.val = 15 then .heatPoint 0 pSupply
  else if k.val = 16 then .heatPoint 0 pReturn
  else if k.val = 17 then .heatPoint 1 pSupply
  else if k.val = 18 then .heatPoint 1 pReturn
  else if k.val = 19 then .heatPoint 2 pSupply
  else if k.val = 20 then .heatPoint 2 pReturn
  else .mixedSubstitute

end Sys2Proof.Machine
end

