-- ==== Sys2Proof/Machine/State.lean ====
section
/-! DEFINITION. The state of the part: everything that spec/ gives it, block by block (Table 0-3-1), the queue of
waiting commands, and the state right after a cold start, which is `State.reset`. Plain data throughout. -/

namespace Sys2Proof.Machine

/-! ## Field Input Unit (chapter 1) -/

/-- Channel states (Table 1-3-1). -/
inductive ChannelState where
  | noFlow | first | flowing
  deriving DecidableEq, Repr

/-- Pulse channel record (Table 1-2-1); the three contract items of the channel are in the contract. -/
structure PulseChannel where
  state       : ChannelState
  /-- Stamp of the last accepted pulse; absent in NO_FLOW. -/
  lastArrival : Option Nat
  /-- Last accepted period τ in ms; present in FLOWING. -/
  period      : Option Nat
  /-- Energy of the last accepted pulse: J, or Wh for X; absent in NO_FLOW. -/
  lastEnergy  : Option Nat
  /-- Stored rate estimate in kW. -/
  rate        : Nat
  noise       : Nat
  deriving DecidableEq, Repr

/-- A running timer: the value of its time base at the start, and its length in ms. -/
structure Timer where
  start  : Nat
  length : Nat
  deriving DecidableEq, Repr

/-- Sample record states (Table 1-5-1). -/
inductive SampleState where
  | never | valid | held
  deriving DecidableEq, Repr

/-- Sample record (Table 1-5-1). The value in use follows from the state, the last valid value and the substitute
(R15). -/
structure SampleRecord where
  state     : SampleState
  lastValid : Option Int
  uncertain : Bool
  /-- The freshness timer, on the arrival time base; running in VALID only. -/
  timer     : Option Timer
  deriving DecidableEq, Repr

structure FieldInput where
  /-- Arrival time base in ms (R1). -/
  arrivalBase : Nat
  channels    : Vector PulseChannel 16
  samples     : Vector SampleRecord 22
  deriving DecidableEq, Repr

/-! ## Metering Engine (chapter 2) -/

structure Metering where
  /-- Running totals in Wh (R21). -/
  totals     : Vector Nat 16
  /-- Remainders: J for P0 to P11, units of 10 µJ for P12 to P14; X has none (R21). -/
  remainders : Vector Nat 15
  deriving DecidableEq, Repr

/-! ## Holder Supervisor and Allocator (chapters 3 and 4) -/

/-- Holder bands, in rising order of level (R37). -/
inductive Band where
  | lowLow | low | normal | high | highHigh
  deriving DecidableEq, Repr

/-- Standing allocation result (Table 4-1-1). -/
structure Allocation where
  /-- Device time of the event; absent while the clock was UNSET, and in the empty result. -/
  time         : Option Nat
  /-- Allocation time base at the event; absent in the empty result. -/
  timeBase     : Option Nat
  sourceSum    : Nat
  holderTerm   : Int
  band         : Band
  available    : Nat
  grants       : Vector Nat 8
  reservations : Vector Nat 8
  surplus      : Nat
  flareDemand  : Nat
  /-- Flare credit point, on the allocation time base. -/
  creditPoint  : Nat
  deriving DecidableEq, Repr

structure Allocator where
  /-- Allocation time base in ms (R51). -/
  base     : Nat
  /-- Allocation period timer (R51). -/
  timer    : Timer
  result   : Allocation
  /-- Reallocation triggers handed over and not yet taken (R53); 0 between commands. -/
  triggers : Nat
  deriving DecidableEq, Repr

/-! ## Consumer Supervisor (chapter 5) -/

/-- Consumer states (Table 5-1-2). -/
inductive ConsumerState where
  | off | purging | active | backup | shed | tripped
  deriving DecidableEq, Repr

/-- Purge targets (Table 5-1-2). -/
inductive PurgeTarget where
  | active | backup | shed | off
  deriving DecidableEq, Repr

/-- Reservation status (Table 5-1-2). -/
inductive Reservation where
  | none | awaiting | holding
  deriving DecidableEq, Repr

/-- Trip causes (Table 5-1-2). -/
inductive Cause where
  | overdraw | lineLow | purgeFail | valvePassing | contractDamaged
  deriving DecidableEq, Repr

/-- A set of trip causes, a flag for each in the order of Table 5-1-2. -/
structure CauseSet where
  overdraw        : Bool
  lineLow         : Bool
  purgeFail       : Bool
  valvePassing    : Bool
  contractDamaged : Bool
  deriving DecidableEq, Repr

/-- The last trip: device time, absent while the clock was UNSET, and the cause set as it stood (R93). -/
structure LastTrip where
  time   : Option Nat
  causes : CauseSet
  deriving DecidableEq, Repr

/-- State fields of a consumer (Table 5-1-2); its items are in the contract. Timers run on the supervision time base
(R87) and are `none` while stopped. -/
structure Consumer where
  state         : ConsumerState
  target        : Option PurgeTarget
  reservation   : Reservation
  shedFlag      : Bool
  /-- Nomination N in kW; in the retained store (R74). -/
  nomination    : Nat
  causes        : CauseSet
  /-- Damage mark; in the retained store (R99). -/
  damageMark    : Bool
  lastTrip      : Option LastTrip
  recoveryCount : Nat
  purgeTimer    : Option Timer
  overdrawTimer : Option Timer
  lineLowTimer  : Option Timer
  passingTimer  : Option Timer
  lowDrawTimer  : Option Timer
  recoveryTimer : Option Timer
  deriving DecidableEq, Repr

structure Supervisor where
  /-- Supervision time base in ms (R87). -/
  base      : Nat
  consumers : Vector Consumer 8
  deriving DecidableEq, Repr

/-! ## Export Account Unit (chapter 6) -/

/-- Schedule entry (Table 6-2-1). -/
structure ScheduleEntry where
  start : Nat
  kw    : Nat
  deriving DecidableEq, Repr

/-- Source mark of the latched scheduled export (R108). -/
inductive LatchSource where
  | entry | default
  deriving DecidableEq, Repr

structure Latch where
  kw     : Nat
  source : LatchSource
  deriving DecidableEq, Repr

structure ExportUnit where
  /-- Export schedule list, in ascending order of start (R103). -/
  schedule : List ScheduleEntry
  /-- Latched scheduled export; absent while the clock is UNSET (R108). -/
  latch    : Option Latch
  deriving DecidableEq, Repr

/-! ## Contract Unit (chapter 7) -/

/-- A set of parties. -/
structure PartySet where
  works : Bool
  town  : Bool
  grid  : Bool
  deriving DecidableEq, Repr

/-- Proposal entry (Table 7-3-1); whether it is STAGED is the absence of the expiry time. -/
structure Proposal where
  number    : Nat
  proposer  : Party
  items     : List (ItemRef × Int)
  parties   : PartySet
  concurred : PartySet
  staged    : Bool
  /-- Expiry on the proposal time base, in s; in OPEN only. -/
  expiry    : Option Nat
  /-- Deferred mark; in STAGED only. -/
  deferred  : Bool
  deriving DecidableEq, Repr

structure ContractUnit where
  contract     : Contract
  /-- The commissioning state is LOCKED (R122). -/
  locked       : Bool
  revision     : Nat
  siteCode     : Nat
  siteName     : List Byte
  proposals    : List Proposal
  nextProposal : Nat
  /-- Proposal time base in s (R130), and the ms of its running second. -/
  base         : Nat
  baseMillis   : Nat
  deriving DecidableEq, Repr

/-! ## Settlement Unit (chapter 8) -/

/-- Open interval record (Table 8-3-1); the latched scheduled export is the Export Account Unit's. -/
structure OpenRecord where
  number          : Nat
  start           : Nat
  stop            : Nat
  band            : Nat
  heatPrice       : Nat
  gasPrice        : Nat
  revision        : Nat
  opening         : Vector Nat 16
  /-- ESTIMATED_GAS of S0 to S3 and C0 to C7, by pulse channel. -/
  estimatedGas    : Vector Bool 12
  estimatedHeat   : Vector Bool 3
  reverse         : Vector Nat 3
  short           : Bool
  clockStep       : Bool
  outage          : Bool
  commissioning   : Bool
  contractChanged : Bool
  contractDamaged : Bool
  flare           : Nat
  trimmed         : Bool
  deriving DecidableEq, Repr

/-- A TOWN billing account (R153). -/
structure Account where
  amount    : Nat
  remainder : Nat
  deriving DecidableEq, Repr

/-- Archive record (Table 8-5-1). -/
structure ArchiveRecord where
  number          : Nat
  start           : Nat
  length          : Nat
  band            : Nat
  revision        : Nat
  outage          : Bool
  clockStep       : Bool
  short           : Bool
  commissioning   : Bool
  contractChanged : Bool
  contractDamaged : Bool
  estimatedGas    : Vector Bool 12
  estimatedHeat   : Vector Bool 3
  /-- Interval energies by pulse channel, in Wh. -/
  energies        : Vector Nat 16
  latch           : Latch
  scheduled       : Nat
  deviation       : Int
  reverse         : Vector Nat 3
  flare           : Nat
  heatPrice       : Nat
  gasPrice        : Nat
  townHeat        : Nat
  townHeatAmount  : Nat
  townGas         : Nat
  townGasAmount   : Nat
  heatAccount     : Account
  gasAccount      : Account
  closing         : Vector Nat 16
  deriving DecidableEq, Repr

structure Settlement where
  /-- Device clock in s; `none` is UNSET (R142). On the backup supply, not in the store. -/
  clock       : Option Nat
  /-- Milliseconds of the clock's running second. -/
  clockMillis : Nat
  openRecord  : Option OpenRecord
  /-- Archive ring, oldest record first (R155). -/
  archive     : List ArchiveRecord
  heatAccount : Account
  gasAccount  : Account
  cursors     : Vector Nat 3
  gapMarks    : Vector Bool 3
  nextRecord  : Nat
  deriving DecidableEq, Repr

/-! ## Retained Store Controller (chapter 9) -/

/-- A stored thing of Table 9-1-1. The nomination and the damage mark of a consumer share an index there, and so do
a party's cursor and gap mark. -/
inductive Thing where
  | totals (ch : Fin 16)
  | contract (i : Item)
  | nomination (c : Fin 8)
  | damageMark (c : Fin 8)
  | proposal (place : Fin 8)
  | commissioning
  | revision
  | nextProposal
  | identity
  | schedule (place : Fin 8)
  | latch
  | openRecord (field : Fin 49)
  | archive (place : Fin 96)
  | heatAccount
  | gasAccount
  | cursor (p : Party)
  | gapMark (p : Party)
  | nextRecord
  | report (field : Fin 4)
  | marks
  | signature (word : Fin 4)
  deriving DecidableEq, Repr

/-- State of a word that is in error: one bit, which the code corrects, or more, which it only detects (R165). -/
inductive WordError where
  | oneBit | uncorrectable
  deriving DecidableEq, Repr

/-- A region and an index, as a damage report and an INTEGRITY notice carry them (Table 9-1-1, R192). -/
structure RegionIndex where
  region : Nat
  index  : Nat
  deriving DecidableEq, Repr

/-- Integrity report (Table 9-4-1). -/
structure IntegrityReport where
  corrected     : Nat
  uncorrectable : Nat
  last          : Option RegionIndex
  sweeps        : Nat
  deriving DecidableEq, Repr

structure Store where
  /-- Which words hold which thing: runs of words in ascending order of position. Fixed in the part; the manual
  gives it only for the signature (R172), which overrides this list (log 13). -/
  layout       : List (Thing × Nat)
  /-- The words in error, in ascending order of position, each once. -/
  errors       : List (Nat × WordError)
  /-- Each signature word holds the fixed pattern (R172). -/
  signature    : Vector Bool 4
  report       : IntegrityReport
  /-- Known-damaged marks of the places of the archive ring (R169). -/
  knownDamaged : Vector Bool 96
  /-- Words the current sweep has read (R171, R176). -/
  sweepPos     : Nat
  /-- Sweep time base in ms (R171), and its value when the current sweep began. -/
  sweepBase    : Nat
  sweepStart   : Nat
  deriving DecidableEq, Repr

/-! ## Link Unit (chapter 10) -/

/-- Statuses (Table 10-2-2, Table 10-6-2). -/
inductive Status where
  | done | clamped | none | damaged
  | notOwner | notParty | wrongState | outOfRange | inconsistent | conflict | tableFull | locked
  | notFound | gateClosed | stillFaulted | clockUnset | unknown
  deriving DecidableEq, Repr

/-- A response field in one of the forms of Table 10-6-3. -/
inductive Field where
  | u8 (n : Nat)
  | u16 (n : Nat)
  | u32 (n : Nat)
  | u48 (n : Nat)
  | u64 (n : Nat)
  | s32 (i : Int)
  | s64 (i : Int)
  | text (bs : List Byte)
  deriving DecidableEq, Repr

/-- A response frame: the request code as received, the status, the fields (Table 10-6-1). -/
structure Response where
  code   : Nat
  status : Status
  fields : List Field
  deriving DecidableEq, Repr

/-- Restart kinds (R172). -/
inductive RestartKind where
  | restart | unlock | cold
  deriving DecidableEq, Repr

/-- Outcomes that a PROPOSAL notice carries (R132). -/
inductive Outcome where
  | opened | staged | applied | rejected | withdrawn | expired | discarded
  deriving DecidableEq, Repr

/-- Notice details (Table 10-5-1). -/
inductive Detail where
  | trip (slot : Fin 8) (causes : CauseSet) (time : Option Nat)
  | integrity (r : RegionIndex)
  | restart (kind : RestartKind)
  | shed (slot : Fin 8) (restored : Bool)
  | holder (old new : Band)
  | field (channel : Fin 22) (state : SampleState)
  | proposal (number : Nat) (outcome : Outcome)
  | grant (slot : Fin 8) (kw : Nat)
  | settlement (number : Nat)
  | lowDraw (slot : Fin 8)
  deriving DecidableEq, Repr

/-- Notice record of a party and a class (R184). -/
structure NoticeRecord where
  pending : Bool
  count   : Nat
  detail  : Option Detail
  deriving DecidableEq, Repr

structure LinkUnit where
  /-- The response that occupies each busy port; a free port has none (R178). By party. -/
  ports   : Vector (Option Response) 3
  /-- Notice records by party and class (R184). -/
  notices : Vector (Vector NoticeRecord 10) 3
  /-- Notice masks by party and class (R187). -/
  masks   : Vector (Vector Bool 10) 3
  deriving DecidableEq, Repr

/-! ## Pins and supplies (chapter 11) -/

/-- The output lines, `true` where asserted (Table 11-1-1). -/
structure Lines where
  gasEn    : Vector Bool 8
  backupEn : Vector Bool 8
  flareEn  : Bool
  /-- ATTN_W, ATTN_T, ATTN_G. -/
  attn     : Vector Bool 3
  deriving DecidableEq, Repr

structure Power where
  /-- The part takes events: after a start-up operation and until a supply fall or a RESET (R174, R175). -/
  running      : Bool
  /-- The main supply is present. -/
  mainSupply   : Bool
  /-- The backup supply holds (R175). -/
  backupSupply : Bool
  /-- RESET is held low (R194). -/
  resetHeld    : Bool
  /-- Kind of the last restart (R176, R195). -/
  lastKind     : RestartKind
  deriving DecidableEq, Repr

/-! ## The whole part -/

/-- The state of the part and the queue of commands that wait, first in, first out. -/
structure State where
  power      : Power
  /-- The model's own count of the open values it has used (Config.lean). -/
  freeIndex  : Nat
  field      : FieldInput
  metering   : Metering
  /-- Holder band (R37). -/
  band       : Band
  allocator  : Allocator
  supervisor : Supervisor
  exports    : ExportUnit
  contracts  : ContractUnit
  settlement : Settlement
  store      : Store
  links      : LinkUnit
  lines      : Lines
  pending    : List Instr
  deriving DecidableEq, Repr

/-- Why a step stops with a fault: no command of this part does, since the manual gives every event and every
request an effect or a refusing status. -/
inductive Fault where
  deriving DecidableEq, Repr

/-- Why a step has no meaning. -/
inductive Refusal where
  /-- Raised only by an arm of `exec` whose command has no meaning in the model; safe. -/
  | notModelled (mnemonic : String)
  deriving DecidableEq, Repr

/-! ## The blocks after a restart kind, and reset -/

/-- A pulse channel after every restart kind (R19). -/
def freshChannel : PulseChannel :=
  { state := .noFlow, lastArrival := none, period := none, lastEnergy := none, rate := 0, noise := 0 }

/-- A sample record after every restart kind (R19). -/
def freshSample : SampleRecord := { state := .never, lastValid := none, uncertain := false, timer := none }

/-- The Field Input Unit after every restart kind (R1, R19). -/
def freshField : FieldInput :=
  { arrivalBase := 0, channels := Vector.replicate 16 freshChannel, samples := Vector.replicate 22 freshSample }

/-- The empty allocation result (R50). -/
def emptyAllocation : Allocation :=
  { time := none, timeBase := none, sourceSum := 0, holderTerm := 0, band := .low, available := 0,
    grants := Vector.replicate 8 0, reservations := Vector.replicate 8 0, surplus := 0, flareDemand := 0,
    creditPoint := 0 }

/-- The Allocator after every restart kind, with the allocation period in force in s (R51, R71). -/
def freshAllocator (period : Nat) : Allocator :=
  { base := 0, timer := { start := 0, length := 1000 * period }, result := emptyAllocation, triggers := 0 }

def noCauses : CauseSet :=
  { overdraw := false, lineLow := false, purgeFail := false, valvePassing := false, contractDamaged := false }

/-- A consumer after every restart kind, with the nomination and damage mark it keeps (R101). -/
def freshConsumer (nomination : Nat) (damageMark : Bool) : Consumer :=
  { state := .off, target := none, reservation := .none, shedFlag := false, nomination := nomination,
    causes := noCauses, damageMark := damageMark, lastTrip := none, recoveryCount := 0, purgeTimer := none,
    overdrawTimer := none, lineLowTimer := none, passingTimer := none, lowDrawTimer := none, recoveryTimer := none }

/-- The Metering Engine after a cold start (R21). -/
def coldMetering : Metering := { totals := Vector.replicate 16 0, remainders := Vector.replicate 15 0 }

/-- The Contract Unit after a cold start (R140). -/
def coldContracts : ContractUnit :=
  { contract := coldContract, locked := false, revision := 0, siteCode := 0, siteName := [], proposals := [],
    nextProposal := 1, base := 0, baseMillis := 0 }

/-- The Settlement Unit after a cold start (R160). -/
def coldSettlement : Settlement :=
  { clock := none, clockMillis := 0, openRecord := none, archive := [], heatAccount := ⟨0, 0⟩, gasAccount := ⟨0, 0⟩,
    cursors := Vector.replicate 3 1, gapMarks := Vector.replicate 3 false, nextRecord := 1 }

/-- The integrity report after a cold start (Table 9-4-1). -/
def coldReport : IntegrityReport := { corrected := 0, uncorrectable := 0, last := none, sweeps := 0 }

/-- Words of each field of the open record in the layout that reset names (log 13). -/
def openFieldWords (k : Fin 49) : Nat :=
  if k.val = 1 ∨ k.val = 2 ∨ k.val = 47 ∨ (7 ≤ k.val ∧ k.val ≤ 22) then 2 else 1

/-- The items in the order of their names (Table 10-3-1). -/
def allItems : List Item :=
  List.flatten
    [(List.finRange 8).flatMap (fun c => (List.finRange 23).map (.consumer c)),
     (List.finRange 4).flatMap (fun n => (List.finRange 5).map (.source n)),
     (List.finRange 11).map .holder,
     [.allocationPeriod],
     (List.finRange 3).flatMap (fun n => (List.finRange 5).map (.heatPoint n)),
     (List.finRange 4).map .heatPrice,
     (List.finRange 4).map .gasPrice,
     (List.finRange 24).map .bandEntry,
     (List.finRange 6).map .exportItem,
     [.intervalLength],
     (List.finRange 22).map .rangeLow,
     (List.finRange 22).map .rangeHigh,
     (List.finRange 22).map .freshness,
     [.mainPressureSubstitute, .mainTemperatureSubstitute],
     (List.finRange 8).map .lineSubstitute,
     [.mixedSubstitute]]

/-- The layout that reset names: the things in the order of Table 9-1-1, with a number of words each (log 13). -/
def resetLayout : List (Thing × Nat) :=
  List.flatten
    [(List.finRange 16).map (fun ch => (.totals ch, 3)),
     allItems.map (fun i => (.contract i, 1)),
     (List.finRange 8).flatMap (fun c => [(.nomination c, 1), (.damageMark c, 1)]),
     (List.finRange 8).map (fun k => (.proposal k, 16)),
     [(.commissioning, 1), (.revision, 1), (.nextProposal, 1), (.identity, 8)],
     (List.finRange 8).map (fun k => (.schedule k, 3)),
     [(.latch, 2)],
     (List.finRange 49).map (fun k => (.openRecord k, openFieldWords k)),
     (List.finRange 96).map (fun k => (.archive k, 120)),
     [(.heatAccount, 4), (.gasAccount, 4), (.cursor .works, 1), (.gapMark .works, 1), (.cursor .town, 1),
       (.gapMark .town, 1), (.cursor .grid, 1), (.gapMark .grid, 1), (.nextRecord, 1),
       (.report 0, 1), (.report 1, 1), (.report 2, 2), (.report 3, 1), (.marks, 3)]]

/-- The store after a cold start, with a layout (R173). -/
def coldStore (layout : List (Thing × Nat)) : Store :=
  { layout := layout, errors := [], signature := Vector.replicate 4 true, report := coldReport,
    knownDamaged := Vector.replicate 96 false, sweepPos := 0, sweepBase := 0, sweepStart := 0 }

/-- A notice record that is not pending (R184, R190). -/
def clearNotice : NoticeRecord := { pending := false, count := 0, detail := none }

/-- The notice records of a party after the start-up operation: RESTART pending once (R190). -/
def restartNotices (kind : RestartKind) : Vector NoticeRecord 10 :=
  (Vector.replicate 10 clearNotice).set 2 { pending := true, count := 1, detail := some (.restart kind) }

/-- The mask after each restart kind: class 9, LOW_DRAW, alone (R187). -/
def restartMask : Vector Bool 10 := (Vector.replicate 10 false).set 9 true

/-- The Link Unit after the start-up operation (R178, R190). -/
def restartLinks (kind : RestartKind) : LinkUnit :=
  { ports := Vector.replicate 3 none, notices := Vector.replicate 3 (restartNotices kind),
    masks := Vector.replicate 3 restartMask }

/-- Every output line deasserted (R193). -/
def lowLines : Lines :=
  { gasEn := Vector.replicate 8 false, backupEn := Vector.replicate 8 false, flareEn := false,
    attn := Vector.replicate 3 false }

/-- The part right after its start-up operation with a store that holds nothing yet, which is a cold start (R172 to
R174): every register at its value after cold start, RESTART pending for every party (R190), no command waiting. -/
def State.reset : State where
  power := { running := true, mainSupply := true, backupSupply := true, resetHeld := false, lastKind := .cold }
  freeIndex := 0
  field := freshField
  metering := coldMetering
  band := .low
  allocator := freshAllocator 30
  supervisor := { base := 0, consumers := Vector.replicate 8 (freshConsumer 0 false) }
  exports := { schedule := [], latch := none }
  contracts := coldContracts
  settlement := coldSettlement
  store := coldStore resetLayout
  links := restartLinks .cold
  lines := { lowLines with attn := Vector.replicate 3 true }
  pending := []

end Sys2Proof.Machine
end

