-- ==== Sys2Proof/Machine/Ops.lean ====
section
/-! DEFINITION. The named operations over the state that every block uses: the words of the store, contract items,
notices and attention lines, the valve and flare lines, the time bases and timers, sample values and the open
interval record. -/

namespace Sys2Proof.Machine

/-! ## Parties -/

def partyIndex : Party → Fin 3
  | .works => 0 | .town => 1 | .grid => 2

/-- A party from its code: 0 WORKS, 1 TOWN, 2 GRID (R182). -/
def partyOfCode (v : Int) : Party := if v = 1 then .town else if v = 2 then .grid else .works

def allParties : PartySet := { works := true, town := true, grid := true }
def noParties : PartySet := { works := false, town := false, grid := false }

def hasParty (ps : PartySet) : Party → Bool
  | .works => ps.works | .town => ps.town | .grid => ps.grid

def addParty (ps : PartySet) : Party → PartySet
  | .works => { ps with works := true }
  | .town => { ps with town := true }
  | .grid => { ps with grid := true }

def unionParties (a b : PartySet) : PartySet :=
  { works := a.works || b.works, town := a.town || b.town, grid := a.grid || b.grid }

def onlyParty (p : Party) : PartySet := addParty noParties p

/-- A consumer's owner with WORKS: the recipients of TRIP and SHED (Table 10-5-1). -/
def withWorks (p : Party) : PartySet := addParty (onlyParty p) .works

/-! ## Words of the retained store -/

/-- The thing that a run list gives to the word `w` places on, if any. -/
def walkLayout : List (Thing × Nat) → Nat → Option Thing
  | [], _ => none
  | (t, n) :: rest, w => if w < n then some t else walkLayout rest (w - n)

/-- The thing that a word holds: the signature stands at the first word, at the quarter and half points and at the
last word (R172); the layout of the part gives the rest. -/
def thingAt (layout : List (Thing × Nat)) (w : Nat) : Option Thing :=
  if w = 0 then some (.signature 0)
  else if w = 4096 then some (.signature 1)
  else if w = 8192 then some (.signature 2)
  else if w = 16383 then some (.signature 3)
  else walkLayout layout w

/-- The error that stands in a word, if any. -/
def errorAt (errors : List (Nat × WordError)) (w : Nat) : Option WordError :=
  (errors.find? (fun e => e.1 == w)).map (·.2)

/-- One more bit in error in a word: a first one makes a single-bit error, a further one an uncorrectable error
(R165). Positions stay strictly rising. -/
def addError (w : Nat) : List (Nat × WordError) → List (Nat × WordError)
  | [] => [(w, .oneBit)]
  | (v, e) :: rest =>
    if w < v then (w, .oneBit) :: (v, e) :: rest
    else if w = v then (v, .uncorrectable) :: rest
    else (v, e) :: addError w rest

/-- The canonical form of the list of words in error: positions strictly rising, each a word of the store. -/
def errorsInOrder (errors : List (Nat × WordError)) : Bool :=
  errors.Pairwise (fun a b => a.1 < b.1) && errors.all (fun e => e.1 < Config.storeWords)

def setErrors (errors : List (Nat × WordError)) (s : State) : State :=
  { s with store := { s.store with errors := errors } }

/-- A word is written whole, so it holds no error (R165). -/
def clearWord (w : Nat) (s : State) : State := setErrors (s.store.errors.filter (fun e => e.1 != w)) s

/-- Every word of a thing is written whole, so no error is left in it (R165). -/
def wrote (t : Thing) (s : State) : State :=
  setErrors (s.store.errors.filter (fun e => thingAt s.store.layout e.1 != some t)) s

/-- Every word of several things is written. -/
def wroteAll (ts : List Thing) (s : State) : State := ts.foldl (fun s t => wrote t s) s

/-- The words of a thing that are in error, in ascending order of position. -/
def wordsInError (t : Thing) (s : State) : List Nat :=
  (s.store.errors.filter (fun e => thingAt s.store.layout e.1 == some t)).map (·.1)

/-- The state with the next open value's index used up. -/
def useFree (s : State) : State := { s with freeIndex := s.freeIndex + 1 }

/-! ## Contract items -/

/-- The in-force value of an item (R117). -/
def item (s : State) (i : Item) : Int := readItem s.contracts.contract i

/-- The same as a natural number, for the items that are never below 0. -/
def itemNat (s : State) (i : Item) : Nat := (item s i).toNat

def consumerItem (s : State) (c : Fin 8) (k : Fin 23) : Nat := itemNat s (.consumer c k)

/-- A flag item is set (R182). -/
def flagItem (s : State) (i : Item) : Bool := item s i == 1

/-- An item takes a new value in the store; its words are written. The consequences are `putInForce`'s. -/
def setItem (i : Item) (v : Int) (s : State) : State :=
  wrote (.contract i) { s with contracts := { s.contracts with contract := writeItem s.contracts.contract i v } }

/-- The owner in force of a consumer (R180). -/
def ownerOf (s : State) (c : Fin 8) : Party := partyOfCode (item s (.consumer c cOwner))

/-! ## Notices and attention lines (10-5) -/

abbrev clsTrip : Fin 10 := 0
abbrev clsIntegrity : Fin 10 := 1
abbrev clsRestart : Fin 10 := 2
abbrev clsShed : Fin 10 := 3
abbrev clsHolder : Fin 10 := 4
abbrev clsField : Fin 10 := 5
abbrev clsProposal : Fin 10 := 6
abbrev clsGrant : Fin 10 := 7
abbrev clsSettlement : Fin 10 := 8
abbrev clsLowDraw : Fin 10 := 9

/-- At least one class is pending and not masked (R189). -/
def attnCalled (notices : Vector NoticeRecord 10) (mask : Vector Bool 10) : Bool :=
  (List.finRange 10).any (fun k => notices[k].pending && !mask[k])

/-- A party's attention line follows its notices and mask while the part runs (R189, R193). -/
def refreshAttn (p : Party) (s : State) : State :=
  { s with lines := { s.lines with
      attn := s.lines.attn.set (partyIndex p)
        (s.power.running && attnCalled s.links.notices[partyIndex p] s.links.masks[partyIndex p]) } }

/-- An occurrence on a notice record (R184). -/
def addOccurrence (d : Detail) (n : NoticeRecord) : NoticeRecord :=
  if n.pending then { n with count := countUp 255 n.count, detail := some d }
  else { pending := true, count := 1, detail := some d }

def setNotice (p : Party) (k : Fin 10) (n : NoticeRecord) (s : State) : State :=
  { s with links := { s.links with
      notices := s.links.notices.set (partyIndex p) (s.links.notices[partyIndex p].set k n) } }

/-- One occurrence of a class for one party; its line follows at that moment (R184, R189). -/
def raiseFor (p : Party) (k : Fin 10) (d : Detail) (s : State) : State :=
  refreshAttn p (setNotice p k (addOccurrence d (s.links.notices[partyIndex p])[k]) s)

/-- One occurrence of a class for each party of a set (R185). -/
def raiseNotice (ps : PartySet) (k : Fin 10) (d : Detail) (s : State) : State :=
  [Party.works, .town, .grid].foldl (fun s p => if hasParty ps p then raiseFor p k d s else s) s

/-! ## Ports (R178) -/

def portBusy (s : State) (p : Party) : Bool := s.links.ports[partyIndex p].isSome

def setPort (p : Party) (r : Option Response) (s : State) : State :=
  { s with links := { s.links with ports := s.links.ports.set (partyIndex p) r } }

/-! ## Time bases and timers -/

/-- Elapsed time on the arrival time base (R1). -/
def sinceArrival (s : State) (t : Nat) : Nat := elapsedMod Config.arrivalModulus t s.field.arrivalBase

/-- A timer on a count that does not return to 0 has run its length (R51, R87). -/
def timerDue (base : Nat) (t : Timer) : Bool := t.start + t.length ≤ base

/-- The whole seconds left on such a timer (R73, R102). DESIGN CHOICE (log 4): a part of a second is left off. -/
def secondsLeft (base : Nat) (t : Timer) : Nat := (t.start + t.length - base) / 1000

/-- The seconds from one device time to another. DESIGN CHOICE (log 40): where the second lies before the first, as damage of
the open record can make it, no rule states a value, and it is a free one. -/
def spanOf (start stop : Nat) : Nat := if start ≤ stop then stop - start else Config.spanBelowZero start stop

/-- A consumer timer started now with the length of its item in force, in s (R87). -/
def startTimer (s : State) (c : Fin 8) (k : Fin 23) : Timer :=
  { start := s.supervisor.base, length := 1000 * consumerItem s c k }

/-! ## Channels, samples and rates -/

def channel (s : State) (ch : Fin 16) : PulseChannel := s.field.channels[ch]

def setChannel (ch : Fin 16) (r : PulseChannel) (s : State) : State :=
  { s with field := { s.field with channels := s.field.channels.set ch r } }

def sample (s : State) (k : Fin 22) : SampleRecord := s.field.samples[k]

def setSample (k : Fin 22) (r : SampleRecord) (s : State) : State :=
  { s with field := { s.field with samples := s.field.samples.set k r } }

/-- The value in use: the last valid value in VALID and HELD, the substitute in NEVER (R15). -/
def valueInUse (s : State) (k : Fin 22) : Int :=
  match (sample s k).state, (sample s k).lastValid with
  | .never, _ => item s (substituteItem k)
  | _, some v => v
  | _, none => item s (substituteItem k)

/-- A stored pulse energy in J: for X the stored Wh times 3,600 (R9, R10). -/
def joules (ch : Fin 16) (energy : Nat) : Nat := if ch = 15 then 3600 * energy else energy

/-- The rate of a channel as a block takes it now (R10). -/
def takeRate (s : State) (ch : Fin 16) : Nat :=
  match (channel s ch).state, (channel s ch).lastArrival, (channel s ch).period, (channel s ch).lastEnergy with
  | .flowing, some t, some tau, some energy =>
    if 1000 * itemNat s (zeroFlowItem ch) ≤ sinceArrival s t then 0
    else if sinceArrival s t ≤ tau then (channel s ch).rate
    else min Config.maxRate (joules ch energy / sinceArrival s t)
  | _, _, _, _ => 0

/-! ## Totals (chapter 2) -/

/-- The remainder of a channel; the export total has none (R21). -/
def remainderOf (s : State) (ch : Fin 16) : Nat := if h : ch.val < 15 then s.metering.remainders[ch.val] else 0

/-- A channel's total and remainder are written (R25, R28, R29, R34). -/
def setTotal (ch : Fin 16) (total remainder : Nat) (s : State) : State :=
  wrote (.totals ch) { s with metering :=
    { totals := s.metering.totals.set ch total,
      remainders := if h : ch.val < 15 then s.metering.remainders.set ch.val remainder else s.metering.remainders } }

/-! ## Consumers, grants and lines -/

def consumer (s : State) (c : Fin 8) : Consumer := s.supervisor.consumers[c]

def setConsumer (c : Fin 8) (r : Consumer) (s : State) : State :=
  { s with supervisor := { s.supervisor with consumers := s.supervisor.consumers.set c r } }

/-- The pulse channel P4 + c of a consumer (Table 0-5-1). -/
def drawChannel (c : Fin 8) : Fin 16 := ⟨c + 4, by omega⟩

/-- The line pressure channel A7 + c of a consumer (Table 0-5-2). -/
def lineChannel (c : Fin 8) : Fin 22 := ⟨c + 7, by omega⟩

/-- The consumer that a pulse channel measures, for P4 to P11 (Table 0-5-1). -/
def channelConsumer (ch : Fin 16) : Option (Fin 8) :=
  if h : 4 ≤ ch.val ∧ ch.val < 12 then some ⟨ch - 4, by omega⟩ else none

/-- The consumer whose line pressure a sample channel carries, for A7 to A14 (Table 0-5-2). -/
def sampleConsumer (k : Fin 22) : Option (Fin 8) :=
  if h : 7 ≤ k.val ∧ k.val < 15 then some ⟨k - 7, by omega⟩ else none

/-- The draw of a consumer: the rate of P4 + c as taken now (5-6). -/
def draw (s : State) (c : Fin 8) : Nat := takeRate s (drawChannel c)

/-- The valve lines follow a consumer's state while the part runs (R75). -/
def refreshValves (c : Fin 8) (s : State) : State :=
  { s with lines := { s.lines with
      gasEn := s.lines.gasEn.set c (s.power.running && (consumer s c).state == .active),
      backupEn := s.lines.backupEn.set c (s.power.running && (consumer s c).state == .backup) } }

/-- A consumer's record is replaced and its valve lines follow (R75). -/
def putConsumer (c : Fin 8) (r : Consumer) (s : State) : State := refreshValves c (setConsumer c r s)

def setResult (r : Allocation) (s : State) : State := { s with allocator := { s.allocator with result := r } }

def grant (s : State) (c : Fin 8) : Nat := s.allocator.result.grants[c]

def reservation (s : State) (c : Fin 8) : Nat := s.allocator.result.reservations[c]

/-- The flare demand is set, and FLARE_EN follows while the part runs (R45). -/
def setFlare (kw : Nat) (s : State) : State :=
  { setResult { s.allocator.result with flareDemand := kw } s with
    lines := { s.lines with flareEn := s.power.running && 0 < kw } }

/-- A reallocation trigger is handed to the Allocator (R53). -/
def trigger (s : State) : State := { s with allocator := { s.allocator with triggers := s.allocator.triggers + 1 } }

/-! ## The open interval record -/

/-- A field of the open record, where one is open, is written (R149). -/
def onOpen (k : Fin 49) (f : OpenRecord → OpenRecord) (s : State) : State :=
  match s.settlement.openRecord with
  | none => s
  | some o => wrote (.openRecord k) { s with settlement := { s.settlement with openRecord := some (f o) } }

/-- The ESTIMATED mark of a gas or heat channel is set in the open record, if one exists; X has none (R31). -/
def markEstimated (ch : Fin 16) (s : State) : State :=
  if h : ch.val < 12 then
    onOpen ⟨23 + ch, by omega⟩ (fun o => { o with estimatedGas := o.estimatedGas.set ch.val true }) s
  else if h' : ch.val < 15 then
    onOpen ⟨23 + ch, by omega⟩ (fun o => { o with estimatedHeat := o.estimatedHeat.set (ch.val - 12) true }) s
  else s

def markContractChanged (s : State) : State := onOpen 45 (fun o => { o with contractChanged := true }) s

def markContractDamaged (s : State) : State := onOpen 46 (fun o => { o with contractDamaged := true }) s

/-- The flare accumulator after a credit; past its greatest value it is open (Table 8-3-1, log 8). -/
def flareSum (flare credit : Nat) : Nat :=
  if flare + credit < Config.flareModulus then flare + credit
  else Config.flareBeyond (flare + credit) % Config.flareModulus

/-- The flare standing since the credit point is credited to the open record, where one is open, for the whole
seconds elapsed, and the credit point moves to the present (R46, R65). -/
def creditFlare (s : State) : State :=
  let credit := s.allocator.result.flareDemand * ((s.allocator.base - s.allocator.result.creditPoint) / 1000)
  setResult { s.allocator.result with creditPoint := s.allocator.base }
    (onOpen 47 (fun o => { o with flare := flareSum o.flare credit }) s)

/-- The hour of day at a device time (0-5, R142). -/
def hourOf (t : Nat) : Fin 24 := ⟨t % 86400 / 3600, by omega⟩

/-- The interval length in force, in s (R147). -/
def intervalLength (s : State) : Nat := itemNat s .intervalLength

/-- The regular start of a device time (R147). -/
def regularStart (len t : Nat) : Nat := t - t % len

end Sys2Proof.Machine
end

