-- ==== Sys2Proof/Machine/Flags.lean ====
section
/-! DEFINITION. The sets of flags of the part: trip causes, the marks of an interval record, a set of parties, and the
numeric codes in which Table 10-6-2 and Table 10-6-3 send states and statuses. -/

namespace Sys2Proof.Machine

/-- A cause joins a set; one already there is not added twice (R93). -/
def addCause (cs : CauseSet) : Cause → CauseSet
  | .overdraw => { cs with overdraw := true }
  | .lineLow => { cs with lineLow := true }
  | .purgeFail => { cs with purgeFail := true }
  | .valvePassing => { cs with valvePassing := true }
  | .contractDamaged => { cs with contractDamaged := true }

/-- A set of causes as a field: one bit for each in listed order (Table 10-6-3). -/
def causeBits (cs : CauseSet) : Nat :=
  natOfFlags [cs.overdraw, cs.lineLow, cs.purgeFail, cs.valvePassing, cs.contractDamaged]

/-- A set of parties as a field (Table 10-6-3). -/
def partyBits (ps : PartySet) : Nat := natOfFlags [ps.works, ps.town, ps.grid]

/-- The marks of an interval record as a field: bits 0 to 5 the six marks, 6 to 17 ESTIMATED_GAS, 18 to 20
ESTIMATED_HEAT, and in the open record bit 21 the trim mark (Table 10-6-3). -/
def markBits (outage clockStep short commissioning changed damaged : Bool) (gas : Vector Bool 12) (heat : Vector Bool 3)
    (trimmed : Bool) : Nat :=
  natOfFlags ([outage, clockStep, short, commissioning, changed, damaged] ++ gas.toList ++ heat.toList ++ [trimmed])

/-- Status codes (Table 10-6-2). -/
def statusCode : Status → Nat
  | .done => 0x00 | .clamped => 0x01 | .none => 0x02 | .damaged => 0x03
  | .notOwner => 0x10 | .notParty => 0x11 | .wrongState => 0x12 | .outOfRange => 0x13 | .inconsistent => 0x14
  | .conflict => 0x15 | .tableFull => 0x16 | .locked => 0x17 | .notFound => 0x18 | .gateClosed => 0x19
  | .stillFaulted => 0x1A | .clockUnset => 0x1B | .unknown => 0x1F

/-- The refusing statuses (Table 10-2-2). -/
def isRefusing : Status → Bool
  | .done | .clamped | .none | .damaged => false
  | _ => true

/-! Codes of the listed values, numbered from 0 in the order the manual lists them (Table 10-6-3). -/

def channelStateCode : ChannelState → Nat
  | .noFlow => 0 | .first => 1 | .flowing => 2

def sampleStateCode : SampleState → Nat
  | .never => 0 | .valid => 1 | .held => 2

def bandCode : Band → Nat
  | .lowLow => 0 | .low => 1 | .normal => 2 | .high => 3 | .highHigh => 4

def consumerStateCode : ConsumerState → Nat
  | .off => 0 | .purging => 1 | .active => 2 | .backup => 3 | .shed => 4 | .tripped => 5

def targetCode : PurgeTarget → Nat
  | .active => 0 | .backup => 1 | .shed => 2 | .off => 3

def reservationCode : Reservation → Nat
  | .none => 0 | .awaiting => 1 | .holding => 2

def latchSourceCode : LatchSource → Nat
  | .entry => 0 | .default => 1

def restartKindCode : RestartKind → Nat
  | .restart => 0 | .unlock => 1 | .cold => 2

def outcomeCode : Outcome → Nat
  | .opened => 0 | .staged => 1 | .applied => 2 | .rejected => 3 | .withdrawn => 4 | .expired => 5 | .discarded => 6

def partyCode (p : Party) : Nat := (partyIndex p).val

/-- Severity of a notice class: 0 ALARM, 1 WARNING, 2 INFO (Table 10-5-1, R192). -/
def severityOf (k : Fin 10) : Nat := if k.val < 2 then 0 else if k.val < 6 then 1 else 2

end Sys2Proof.Machine
end

