-- ==== Sys2Proof/Machine/Operands.lean ====
section
/-! DEFINITION. The forms in which requests and responses carry their operands: the body length each request code
calls for (10-6, R179) and the field forms of Table 10-6-3. -/

namespace Sys2Proof.Machine

/-! Request codes (Table 10-6-2). -/
abbrev codeQuery : Nat := 0x01
abbrev codeStart : Nat := 0x10
abbrev codeStop : Nat := 0x11
abbrev codeNominate : Nat := 0x12
abbrev codeClear : Nat := 0x13
abbrev codeFuelBackup : Nat := 0x14
abbrev codeFuelGas : Nat := 0x15
abbrev codeSchedule : Nat := 0x20
abbrev codePropose : Nat := 0x30
abbrev codeConcur : Nat := 0x31
abbrev codeReject : Nat := 0x32
abbrev codeWithdraw : Nat := 0x33
abbrev codeWrite : Nat := 0x40
abbrev codeWriteClock : Nat := 0x41
abbrev codeWriteIdentity : Nat := 0x42
abbrev codeTrim : Nat := 0x43
abbrev codeMask : Nat := 0x50
abbrev codeNotice : Nat := 0x51
abbrev codeArchive : Nat := 0x60
abbrev codeCursor : Nat := 0x61

/-- The request codes of Table 10-6-2. -/
def knownCodes : List Nat :=
  [codeQuery, codeStart, codeStop, codeNominate, codeClear, codeFuelBackup, codeFuelGas, codeSchedule, codePropose,
   codeConcur, codeReject, codeWithdraw, codeWrite, codeWriteClock, codeWriteIdentity, codeTrim, codeMask, codeNotice,
   codeArchive, codeCursor]

/-- The length of the body of a request: the code and its fields (Table 10-6-1, Table 10-6-2). -/
def lenQuery : Nat := 3
def lenQueryItem : Nat := 5
def lenConsumer : Nat := 2
def lenNominate : Nat := 6
def lenSchedule : Nat := 11
def lenPropose (count : Nat) : Nat := 2 + 7 * count
def lenProposal : Nat := 3
def lenWrite : Nat := 8
def lenWriteClock : Nat := 5
def lenWriteIdentity (name : Nat) : Nat := 6 + name
def lenTrim : Nat := 2
def lenMask : Nat := 3
def lenBare : Nat := 1
def lenCursor : Nat := 6

/-- A mark or a flag as a field (Table 10-6-3). -/
def flagField (b : Bool) : Field := .u8 (natOfBool b)

/-- A field that a rule calls absent in some states: a presence byte, and the fields where present (R192). -/
def optional (fs : Option (List Field)) : List Field :=
  match fs with
  | none => [.u8 0]
  | some fs => .u8 1 :: fs

/-- The `n` fields that a rule calls absent in the same states: each has a presence byte of its own (R192). -/
def optionalEach (n : Nat) (fs : Option (List Field)) : List Field :=
  match fs with
  | none => List.replicate n (.u8 0)
  | some fs => fs.flatMap fun f => [.u8 1, f]

/-- A list of varying length: its count, then its entries in order (R192). -/
def counted (l : List (List Field)) : List Field := .u8 l.length :: l.flatten

/-- An item name as three bytes (R182). -/
def nameFields (n : ItemName) : List Field := [.u8 n.group, .u8 n.index, .u8 n.item]

/-- A region and an index (Table 10-6-3). -/
def regionFields (r : RegionIndex) : List Field := [.u8 r.region, .u32 r.index]

/-- The detail of a notice, by class (Table 10-5-1). DESIGN CHOICE (log 4): a slot and a channel are sent as a U8, a form that
Table 10-6-3 lists for neither in a response. -/
def detailFields : Detail → List Field
  | .trip slot causes time => [.u8 slot, .u16 (causeBits causes)] ++ optional (time.map fun t => [.u48 t])
  | .integrity r => regionFields r
  | .restart kind => [.u8 (restartKindCode kind)]
  | .shed slot restored => [.u8 slot, flagField restored]
  | .holder old new => [.u8 (bandCode old), .u8 (bandCode new)]
  | .field ch st => [.u8 ch, .u8 (sampleStateCode st)]
  | .proposal number outcome => [.u16 number, .u8 (outcomeCode outcome)]
  | .grant slot kw => [.u8 slot, .s32 kw]
  | .settlement number => [.u32 number]
  | .lowDraw slot => [.u8 slot]

/-- The bytes of a field, most significant first, two's complement where signed (R192, Table 10-6-3). -/
def fieldBytes : Field → List Byte
  | .u8 n => bytesOfNat 1 n
  | .u16 n => bytesOfNat 2 n
  | .u32 n => bytesOfNat 4 n
  | .u48 n => bytesOfNat 6 n
  | .u64 n => bytesOfNat 8 n
  | .s32 i => bytesOfNat 4 (natOfInt 4 i)
  | .s64 i => bytesOfNat 8 (natOfInt 8 i)
  | .text bs => bytesOfNat 1 bs.length ++ bs

/-- The printable characters of a name: 20h to 7Eh (R124, Table 10-6-3). -/
def isPrintable (b : Byte) : Bool := 0x20 ≤ b.toNat && b.toNat ≤ 0x7E

/-- The site name is no longer than 24 characters, all printable (R124). -/
def nameAllowed (name : List Byte) : Bool := name.length ≤ 24 && name.all isPrintable

end Sys2Proof.Machine
end

