-- ==== Sys2Proof/Machine/Frames.lean ====
section
/-! DEFINITION. The frames of the four links as runs of characters: the cyclic redundancy check (R191), when a frame is
good (R177), and the sample frame (Table 10-6-4). -/

namespace Sys2Proof.Machine

/-- One step of the check register: the polynomial x^16 + x^12 + x^5 + 1, most significant bit first (R191). -/
def crcBit (r : BitVec 16) : BitVec 16 := if r.msb then (r <<< 1) ^^^ 0x1021#16 else r <<< 1

/-- One byte through the check register (R191). -/
def crcByte (r : BitVec 16) (b : Byte) : BitVec 16 := Nat.repeat crcBit 8 (r ^^^ (b.zeroExtend 16 <<< 8))

/-- The check of a run of bytes: the register starts at FFFFh, with no reflection and no final inversion (R191). -/
def crc (bs : List Byte) : BitVec 16 := bs.foldl crcByte 0xFFFF#16

/-- The two bytes of a check, high byte first (R191). -/
def crcField (bs : List Byte) : List Byte := bytesOfNat 2 (crc bs).toNat

/-- Bytes followed by their check. -/
def sealed (bs : List Byte) : List Byte := bs ++ crcField bs

/-- The bytes before the check field hold, and the check field agrees with them (R191). -/
def crcChecks (bs : List Byte) : Bool := bs.drop (bs.length - 2) == crcField (bs.take (bs.length - 2))

/-- The length that a party link frame declares (Table 10-6-1). -/
def declaredLength (bs : List Byte) : Nat := natOfBytes (bs.take 2)

/-- A request frame is good: no stop-bit error, a declared body of 1 to 64 bytes, as many characters as that length
calls for, and a check that agrees (R177, Table 10-6-1). -/
def goodRequest (raw : RawFrame) : Bool :=
  !raw.stopError && 1 ≤ declaredLength raw.chars && declaredLength raw.chars ≤ 64 &&
    raw.chars.length == declaredLength raw.chars + 4 && crcChecks raw.chars

/-- The body of a good request frame: the request code and its fields (Table 10-6-1). -/
def requestBody (raw : RawFrame) : List Byte := (raw.chars.drop 2).take (declaredLength raw.chars)

/-- The transmitter status of a code; a code that is none of the three is taken as BAD (R11, Table 10-6-4). -/
def statusOfCode (n : Nat) : SampleStatus := if n = 0 then .good else if n = 1 then .uncertain else .bad

/-- A sample frame is good: nine characters without a stop-bit error, a length byte of 6, a check that agrees (R177,
Table 10-6-4). -/
def goodSample (raw : RawFrame) : Bool :=
  !raw.stopError && raw.chars.length == 9 && raw.chars[0]? == some 6#8 && crcChecks raw.chars

/-- What a sample frame carries: channel, status and value; nothing where the frame is discarded (R11). -/
def parseSample (raw : RawFrame) : Option (Fin 22 × SampleStatus × Int) :=
  if goodSample raw then
    match raw.chars with
    | _ :: ch :: st :: rest =>
      if h : ch.toNat < 22 then some (⟨ch.toNat, h⟩, statusOfCode st.toNat, intOfNat 4 (natOfBytes (rest.take 4))) else none
    | _ => none
  else none

/-- The sample frame that carries a channel, a status code and a value (Table 10-6-4). -/
def sampleChars (channel status : Nat) (value : Int) : List Byte :=
  sealed ([6#8, BitVec.ofNat 8 channel, BitVec.ofNat 8 status] ++ bytesOfNat 4 (natOfInt 4 value))

/-- A response as the characters of its frame (Table 10-6-1, R192). -/
def responseChars (r : Response) : List Byte :=
  let body := [BitVec.ofNat 8 r.code, BitVec.ofNat 8 (statusCode r.status)] ++ r.fields.flatMap fieldBytes
  sealed (bytesOfNat 2 body.length ++ body)

end Sys2Proof.Machine
end

