-- ==== Sys2Proof/Decode.lean ====
section
/-! DEFINITION. From characters to commands. The opcode table gives its rows no bits, so no word spells a command
(`decodeTableWord`); a party link frame spells a request by Table 10-6-1 and Table 10-6-2, which `decodeRequest` reads and
`encodeRequest` writes. -/

namespace Sys2Proof

open Sys2Proof.Machine

/-- The command that a table word spells: none, since no row of the opcode table has bits. -/
def decodeTableWord (_nbits _w : Nat) : Option Instr := none

/-! ## Requests (Table 10-6-2) -/

/-- The unsigned number in `n` bytes of a body from position `i` on; a missing byte reads as 0, which the length check of
R179 makes unseen. -/
def fieldAt (body : List Byte) (i n : Nat) : Nat := natOfBytes ((List.range n).map fun k => body.getD (i + k) 0)

/-- An item name at a position of a body (R182). -/
def nameAt (body : List Byte) (i : Nat) : ItemName := ⟨fieldAt body i 1, fieldAt body (i + 1) 1, fieldAt body (i + 2) 1⟩

/-- The items of PROPOSE, seven bytes each, as many as the count sent (Table 10-6-2, R191). -/
def itemsAt (body : List Byte) (count : Nat) : List (ItemName × Int) :=
  (List.range count).map fun k => (nameAt body (2 + 7 * k), intOfNat 4 (fieldAt body (5 + 7 * k) 4))

/-- A QUERY by its target (Table 10-4-1). -/
def decodeQuery (f : Frame) (body : List Byte) : Instr :=
  let index := fieldAt body 2 1
  match fieldAt body 1 1 with
  | 0 => .querySampleChannel f index
  | 1 => .queryPulseChannel f index
  | 2 => .queryConsumer f index
  | 3 => .queryHolder f index
  | 4 => .queryAllocation f index
  | 5 => .queryTotals f index
  | 6 => .queryExportSchedule f index
  | 7 => .queryContractItem f (nameAt body 2)
  | 8 => .queryProposalTable f index
  | 9 => .queryClock f index
  | 10 => .queryIntegrityReport f index
  | 11 => .queryIdentity f index
  | t => .unknownRequest f codeQuery t

/-- A CURSOR by its choice (Table 10-6-2). -/
def decodeCursor (f : Frame) (body : List Byte) : Instr :=
  match fieldAt body 1 1 with
  | 0 => .cursorOldest f
  | 1 => .cursorNewest f
  | 2 => .cursorNumber f (fieldAt body 2 4)
  | c => .unknownRequest f codeCursor c

/-- A body by its request code (Table 10-6-2). -/
def decodeBody (f : Frame) (body : List Byte) : Instr :=
  match fieldAt body 0 1 with
  | 0x01 => decodeQuery f body
  | 0x10 => .start f (fieldAt body 1 1)
  | 0x11 => .stop f (fieldAt body 1 1)
  | 0x12 => .nominate f (fieldAt body 1 1) (fieldAt body 2 4)
  | 0x13 => .clear f (fieldAt body 1 1)
  | 0x14 => .fuelBackup f (fieldAt body 1 1)
  | 0x15 => .fuelGas f (fieldAt body 1 1)
  | 0x20 => .schedule f (fieldAt body 1 6) (fieldAt body 7 4)
  | 0x30 => .propose f (itemsAt body (fieldAt body 1 1))
  | 0x31 => .concur f (fieldAt body 1 2)
  | 0x32 => .reject f (fieldAt body 1 2)
  | 0x33 => .withdraw f (fieldAt body 1 2)
  | 0x40 => .write f (nameAt body 1) (intOfNat 4 (fieldAt body 4 4))
  | 0x41 => .writeClock f (fieldAt body 1 4)
  | 0x42 => .writeIdentity f (fieldAt body 1 4) ((List.range (fieldAt body 5 1)).map fun k => body.getD (6 + k) 0)
  | 0x43 => .trim f (intOfNat 1 (fieldAt body 1 1))
  | 0x50 => .mask f (fieldAt body 1 2)
  | 0x51 => .notice f
  | 0x60 => .archive f
  | 0x61 => decodeCursor f body
  | code => .unknownRequest f code (fieldAt body 1 1)

/-- The command that a frame on a party link is: BAD_FRAME where it is bad, its request otherwise (R177, R179). -/
def decodeRequest (p : Party) (raw : RawFrame) : Instr :=
  if goodRequest raw then decodeBody { party := p, length := declaredLength raw.chars } (requestBody raw)
  else .badFrame p raw

/-! ## The encoder -/

/-- The bytes of an item name (R182). -/
def nameBytes (n : ItemName) : List Byte := [BitVec.ofNat 8 n.group, BitVec.ofNat 8 n.index, BitVec.ofNat 8 n.item]

/-- The bytes of a signed field. -/
def intBytes (k : Nat) (i : Int) : List Byte := bytesOfNat k (natOfInt k i)

/-- A code and one byte. -/
def shortBody (code n : Nat) : List Byte := [BitVec.ofNat 8 code, BitVec.ofNat 8 n]

/-- A QUERY body: target and index (Table 10-6-2). -/
def queryBody (target index : Nat) : List Byte := [BitVec.ofNat 8 codeQuery, BitVec.ofNat 8 target, BitVec.ofNat 8 index]

/-- The party and the body of a request; a command that is no request has none (Table 10-6-2). -/
def encodeBody : Instr → Option (Frame × List Byte)
  | .start f c => some (f, shortBody codeStart c)
  | .stop f c => some (f, shortBody codeStop c)
  | .nominate f c rate => some (f, shortBody codeNominate c ++ bytesOfNat 4 rate)
  | .clear f c => some (f, shortBody codeClear c)
  | .fuelBackup f c => some (f, shortBody codeFuelBackup c)
  | .fuelGas f c => some (f, shortBody codeFuelGas c)
  | .schedule f start kw => some (f, BitVec.ofNat 8 codeSchedule :: bytesOfNat 6 start ++ bytesOfNat 4 kw)
  | .write f name v => some (f, BitVec.ofNat 8 codeWrite :: nameBytes name ++ intBytes 4 v)
  | .writeIdentity f code name =>
    some (f, BitVec.ofNat 8 codeWriteIdentity :: bytesOfNat 4 code ++ bytesOfNat 1 name.length ++ name)
  | .propose f items =>
    some (f, shortBody codePropose items.length ++ items.flatMap fun e => nameBytes e.1 ++ intBytes 4 e.2)
  | .concur f n => some (f, BitVec.ofNat 8 codeConcur :: bytesOfNat 2 n)
  | .reject f n => some (f, BitVec.ofNat 8 codeReject :: bytesOfNat 2 n)
  | .withdraw f n => some (f, BitVec.ofNat 8 codeWithdraw :: bytesOfNat 2 n)
  | .writeClock f t => some (f, BitVec.ofNat 8 codeWriteClock :: bytesOfNat 4 t)
  | .trim f d => some (f, BitVec.ofNat 8 codeTrim :: intBytes 1 d)
  | .archive f => some (f, [BitVec.ofNat 8 codeArchive])
  | .cursorOldest f => some (f, shortBody codeCursor 0 ++ bytesOfNat 4 0)
  | .cursorNewest f => some (f, shortBody codeCursor 1 ++ bytesOfNat 4 0)
  | .cursorNumber f n => some (f, shortBody codeCursor 2 ++ bytesOfNat 4 n)
  | .querySampleChannel f i => some (f, queryBody 0 i)
  | .queryPulseChannel f i => some (f, queryBody 1 i)
  | .queryConsumer f i => some (f, queryBody 2 i)
  | .queryHolder f i => some (f, queryBody 3 i)
  | .queryAllocation f i => some (f, queryBody 4 i)
  | .queryTotals f i => some (f, queryBody 5 i)
  | .queryExportSchedule f i => some (f, queryBody 6 i)
  | .queryContractItem f name => some (f, shortBody codeQuery 7 ++ nameBytes name)
  | .queryProposalTable f i => some (f, queryBody 8 i)
  | .queryClock f i => some (f, queryBody 9 i)
  | .queryIntegrityReport f i => some (f, queryBody 10 i)
  | .queryIdentity f i => some (f, queryBody 11 i)
  | .mask f classes => some (f, BitVec.ofNat 8 codeMask :: bytesOfNat 2 classes)
  | .notice f => some (f, [BitVec.ofNat 8 codeNotice])
  | .pulseArrival _ _ _ => none
  | .zeroFlowExpiry _ => none
  | .sampleFrame _ => none
  | .freshnessExpiry _ => none
  | .allocationPeriodExpiry => none
  | .purgeExpiry _ => none
  | .overdrawMaskExpiry _ => none
  | .lineLowMaskExpiry _ => none
  | .passingMaskExpiry _ => none
  | .lowDrawTimerExpiry _ => none
  | .recoveryDelayExpiry _ => none
  | .proposalExpiry _ => none
  | .regularBoundary => none
  | .scrubRead => none
  | .startUpOperation _ _ => none
  | .supplyFall => none
  | .resetAssertion _ => none
  | .unknownRequest _ _ _ => none
  | .badFrame _ _ => none
  | .busyPortFrame _ _ => none
  | .responseSent _ => none
  | .storeWordError _ => none
  | .backupSupplyLoss => none

/-- The frame of a body: length, body and check (Table 10-6-1). -/
def frameOfBody (body : List Byte) : RawFrame := { chars := sealed (bytesOfNat 2 body.length ++ body), stopError := false }

/-- The party and the frame of a request. -/
def encodeRequest (i : Instr) : Option (Party × RawFrame) := (encodeBody i).map fun e => (e.1.party, frameOfBody e.2)

end Sys2Proof
end

