-- ==== Sys2Proof/Machine/Energy.lean ====
section
/-! DEFINITION. Energy Arithmetic (chapter 2): the energy of a pulse from its weight and the sample values in use, its
accumulation into the running total, and the marks it sets in the open interval record. -/

namespace Sys2Proof.Machine

/-! ## Gas (2-2) -/

/-- The calorific value channel of a gas channel: An for source Sn, A21 for a consumer (Table 2-2-1). -/
def calorificChannel (ch : Fin 16) : Fin 22 := if h : ch.val < 4 then ⟨ch, by omega⟩ else 21

/-- `D = 101,325 × T`, with `T` the clamped temperature plus 27,315 (R23, R24). -/
def gasDivisor (theta : Int) : Nat := 101325 * (clampInt (-4000) 10000 theta + 27315).toNat

/-- The energy of a gas pulse in J from its weight in L and the values in use (R23, R24). -/
def gasEnergy (weight : Nat) (pressure theta calorific : Int) : Nat :=
  roundDiv (weight * (clampInt 80000 400000 pressure).toNat * 27315 * (clampInt 1000 40000 calorific).toNat)
    (gasDivisor theta)

/-! ## Heat (2-3) -/

/-- Coefficient and difference to the next anchor, by anchor (Table 2-3-2). -/
def heatAnchor : Nat → Nat × Nat
  | 0 => (4216, 54) | 1 => (4162, 47) | 2 => (4115, 56) | 3 => (4059, 56) | 4 => (4003, 51) | _ => (3952, 0)

/-- The volumetric heat coefficient on the clamped return temperature (R27). -/
def heatCoefficient (ret : Nat) : Nat :=
  (heatAnchor (min ret 15000 / 3000)).1 -
    (heatAnchor (min ret 15000 / 3000)).2 * (min ret 15000 - 3000 * (min ret 15000 / 3000)) / 3000

/-- The supply channel of heat point Hn and, one above it, its return channel (Table 2-3-1). -/
def supplyChannel (n : Fin 3) : Fin 22 := ⟨15 + 2 * n, by omega⟩
def returnChannel (n : Fin 3) : Fin 22 := ⟨16 + 2 * n, by omega⟩

/-- The temperature difference ΔT of a heat pulse, from the clamped temperatures, before its own clamp (R26). -/
def heatDifference (s : State) (n : Fin 3) : Int :=
  clampInt 0 18000 (valueInUse s (supplyChannel n)) - clampInt 0 18000 (valueInUse s (returnChannel n))

/-- The heat of a pulse in units of 10 µJ: weight × ΔT × k, 0 for a ΔT at or below 0 (R26, R28). -/
def heatOfPulse (s : State) (n : Fin 3) (weight : Nat) : Nat :=
  weight * (min (heatDifference s n) 15000).toNat *
    heatCoefficient (clampInt 0 18000 (valueInUse s (returnChannel n))).toNat

/-! ## Any channel -/

/-- The heat point of P12 to P14 (Table 0-5-1). -/
def heatPointOf (ch : Fin 16) : Option (Fin 3) :=
  if h : 12 ≤ ch.val ∧ ch.val < 15 then some ⟨ch - 12, by omega⟩ else none

/-- The sample channels whose values a pulse of the channel uses (R31). -/
def pulseInputs (ch : Fin 16) : List (Fin 22) :=
  match heatPointOf ch with
  | some n => [supplyChannel n, returnChannel n]
  | none => if ch = 15 then [] else [4, 5, calorificChannel ch]

/-- What a pulse adds, in the unit of the channel's remainder: J, units of 10 µJ, or Wh for X (R24, R28, R29). -/
def pulseQuantity (s : State) (ch : Fin 16) : Nat :=
  match heatPointOf ch with
  | some n => heatOfPulse s n (itemNat s (pulseWeightItem ch))
  | none =>
    if ch = 15 then itemNat s (pulseWeightItem ch)
    else gasEnergy (itemNat s (pulseWeightItem ch)) (valueInUse s 4) (valueInUse s 5) (valueInUse s (calorificChannel ch))

/-- Units of the remainder in one Wh (R25, R28, R29). -/
def unitsPerWh (ch : Fin 16) : Nat := if ch = 15 then 1 else if ch.val < 12 then 3600 else 360000000

/-- The last pulse energy that the channel record keeps (Table 1-2-1, R28). -/
def recordedEnergy (s : State) (ch : Fin 16) : Nat :=
  match heatPointOf ch with
  | some n => heatOfPulse s n (itemNat s (pulseWeightItem ch)) / 100000
  | none => pulseQuantity s ch

/-- The rate of a pulse accepted in FLOWING: energy in J by period in ms, at most 4,000,000 (R9, R30). -/
def rateOf (ch : Fin 16) (energy tau : Nat) : Nat := min Config.maxRate (joules ch energy / tau)

/-- A quantity is added to a channel's total through its remainder (R25, R28, R29). -/
def accumulate (ch : Fin 16) (q : Nat) (s : State) : State :=
  setTotal ch ((s.metering.totals[ch] + (remainderOf s ch + q) / unitsPerWh ch) % Config.totalModulus)
    ((remainderOf s ch + q) % unitsPerWh ch) s

/-- An input is doubtful when its record is HELD or NEVER, or VALID with its uncertain mark set (R31). -/
def doubtful (s : State) (k : Fin 22) : Bool := (sample s k).state != .valid || (sample s k).uncertain

/-- The ESTIMATED mark that the inputs of a pulse call for (R31). -/
def markInputs (ch : Fin 16) (s : State) : State :=
  if (pulseInputs ch).any (doubtful s) then markEstimated ch s else s

/-- The reverse-ΔT count of a heat point, when the difference is below 0 (R26). -/
def countReverse (ch : Fin 16) (s : State) : State :=
  match heatPointOf ch with
  | some n =>
    if heatDifference s n < 0 then
      onOpen ⟨38 + n, by omega⟩ (fun o => { o with reverse := o.reverse.set n (countUp 65535 o.reverse[n]) }) s
    else s
  | none => s

/-- The Metering Engine takes an accepted pulse (R22). -/
def meterPulse (ch : Fin 16) (s : State) : State :=
  countReverse ch (markInputs ch (accumulate ch (pulseQuantity s ch) s))

end Sys2Proof.Machine
end

