-- ==== Sys2Proof/Machine/Supervise.lean ====
section
/-! DEFINITION. What the Consumer Supervisor and the Allocator do to one consumer between allocation events: the demand
(R56), cuts and releases (R66 to R69), the supervised conditions and their timers (R87 to R94), trips (R93), the
beginning of a purge (R82), recovery (R95, R97), and the consequences of an item change in force (R100, R117). -/

namespace Sys2Proof.Machine

/-! ## Export figures and demand -/

/-- The latched scheduled export, which while the clock is UNSET is the default export in force (R108). -/
def scheduledExport (s : State) : Nat :=
  match s.settlement.clock, s.exports.latch with
  | some _, some l => l.kw
  | _, _ => itemNat s (.exportItem xDefaultExport)

/-- Its source mark (R108). -/
def scheduledSource (s : State) : LatchSource :=
  match s.settlement.clock, s.exports.latch with
  | some _, some l => l.source
  | _, _ => .default

/-- The derived rate of the export-linked consumer (R56, R110). -/
def derivedRate (s : State) : Nat := scheduledExport s * itemNat s (.exportItem xHeatRate) / 1000

/-- The consumer's export-linked item is set. -/
def isLinked (s : State) (c : Fin 8) : Bool := flagItem s (.consumer c cLinked)

/-- The lower of the contract ceiling and the hard ceiling (R74). -/
def effectiveCeiling (s : State) (c : Fin 8) : Nat := min (consumerItem s c cCeiling) (consumerItem s c cHardCeiling)

/-- The nomination as the Allocator reads it (R56, R110). -/
def cappedNomination (s : State) (c : Fin 8) : Nat :=
  if isLinked s c then min (consumer s c).nomination (derivedRate s) else (consumer s c).nomination

/-- The demand D (R56). -/
def demand (s : State) (c : Fin 8) : Nat := min (cappedNomination s c) (effectiveCeiling s c)

/-- The lit floor f (R56). -/
def litFloor (s : State) (c : Fin 8) : Nat := min (consumerItem s c cFloor) (demand s c)

/-- The priority class, 0 to 3 (R57). -/
def classOf (s : State) (c : Fin 8) : Nat := min 3 (consumerItem s c cClass)

/-- The consumer has backup fuel. -/
def hasBackup (s : State) (c : Fin 8) : Bool := flagItem s (.consumer c cBackupPresent)

/-! ## The supervised conditions (Table 5-6-1) -/

/-- The limit of the overdraw condition (R90). -/
def overdrawLimit (s : State) (c : Fin 8) : Nat :=
  grant s c + grant s c * consumerItem s c cTolPct / 100 + consumerItem s c cSlack

def overdrawHolds (s : State) (c : Fin 8) : Bool := overdrawLimit s c < draw s c

/-- The line-low condition: the value in use lies below the minimum, and never with a minimum of 0, at whatever value the
channel holds (R91, Table 5-6-1). -/
def lineLowHolds (s : State) (c : Fin 8) : Bool :=
  item s (.consumer c cLineMinimum) != 0 && valueInUse s (lineChannel c) < item s (.consumer c cLineMinimum)

def passingHolds (s : State) (c : Fin 8) : Bool := consumerItem s c cPassingThreshold < draw s c

def lowDrawHolds (s : State) (c : Fin 8) : Bool := draw s c < grant s c * consumerItem s c cLowPct / 100

/-- Overdraw, line-low and low-draw apply in ACTIVE (Table 5-6-1). -/
def lit (s : State) (c : Fin 8) : Bool := (consumer s c).state == .active

/-- Passing applies in every state but ACTIVE, except TRIPPED with VALVE_PASSING in the cause set (R92). -/
def passingApplies (s : State) (c : Fin 8) : Bool :=
  !lit s c && !((consumer s c).state == .tripped && (consumer s c).causes.valvePassing)

/-- An evaluation of a condition: true starts its timer unless it runs, false or not applying stops it (R88, R89). -/
def judge (holds : Bool) (running : Option Timer) (fresh : Timer) : Option Timer :=
  if holds then some (running.getD fresh) else none

/-- The consumer at an evaluation point (R88). -/
def evaluated (s : State) (c : Fin 8) : Consumer :=
  { consumer s c with
    overdrawTimer := judge (lit s c && overdrawHolds s c) (consumer s c).overdrawTimer (startTimer s c cOverdrawMask)
    lineLowTimer := judge (lit s c && lineLowHolds s c) (consumer s c).lineLowTimer (startTimer s c cLineLowMask)
    passingTimer := judge (passingApplies s c && passingHolds s c) (consumer s c).passingTimer
      (startTimer s c cPassingMask)
    lowDrawTimer := judge (lit s c && lowDrawHolds s c) (consumer s c).lowDrawTimer (startTimer s c cLowDrawTime) }

/-- An evaluation point of a consumer (R88). -/
def evaluate (c : Fin 8) (s : State) : State := setConsumer c (evaluated s c) s

/-- An evaluation point of the consumer of a pulse or sample channel, where it has one. -/
def evaluateSome (c : Option (Fin 8)) (s : State) : State :=
  match c with
  | none => s
  | some c => evaluate c s

/-! ## Releases and cuts (4-5) -/

/-- A GRANT notice for the owner of a consumer (R66). -/
def noticeGrant (c : Fin 8) (kw : Nat) (s : State) : State :=
  raiseNotice (onlyParty (ownerOf s c)) clsGrant (.grant c kw) s

/-- Part of a consumer's grant moves to the surplus: the grant becomes `kw`, with a GRANT notice where it changes
(R66, R67, R69). -/
def lowerGrant (c : Fin 8) (kw : Nat) (s : State) : State :=
  if kw < grant s c then
    noticeGrant c kw (setResult { s.allocator.result with
      grants := s.allocator.result.grants.set c kw,
      surplus := s.allocator.result.surplus + (grant s c - kw) } s)
  else s

/-- The grant of a consumer that leaves ACTIVE is released to the surplus (R67). -/
def releaseGrant (c : Fin 8) (s : State) : State := lowerGrant c 0 s

/-- The reservation of a consumer is released to the surplus (R68). -/
def releaseReservation (c : Fin 8) (s : State) : State :=
  setResult { s.allocator.result with
    reservations := s.allocator.result.reservations.set c 0,
    surplus := s.allocator.result.surplus + reservation s c } s

/-- A grant above the demand is cut to it at once, and the consumer is an evaluation point (R69). -/
def cutGrant (c : Fin 8) (s : State) : State :=
  if demand s c < grant s c then evaluate c (lowerGrant c (demand s c) s) else s

/-- The cut of R69 for the export-linked consumer (R110). -/
def cutLinked (s : State) : State :=
  (List.finRange 8).foldl (fun s c => if isLinked s c then cutGrant c s else s) s

/-! ## Purge, recovery and trip -/

/-- A purge begins: PURGING with its target and reservation status, the ACTIVE timers stopped and the purge timer
started (R82). -/
def purging (s : State) (c : Fin 8) (target : PurgeTarget) (status : Reservation) : Consumer :=
  { consumer s c with
    state := .purging, target := some target, reservation := status
    overdrawTimer := none, lineLowTimer := none, lowDrawTimer := none
    purgeTimer := some (startTimer s c cPurgeTime) }

def beginPurge (c : Fin 8) (target : PurgeTarget) (status : Reservation) (s : State) : State :=
  putConsumer c (purging s c target status) s

/-- The consumer in a state outside PURGING: no purge target, no reservation status, no purge timer (Table 5-1-2). -/
def settled (r : Consumer) (st : ConsumerState) : Consumer :=
  { r with state := st, target := none, reservation := .none, purgeTimer := none }

/-- The consumer enters a state outside PURGING and TRIPPED, as an evaluation point (R75, R88). DEDUCED (log 37): the entry
stops a running passing timer when the draw is at or below the threshold (R88, R89); where R84 says that a pass into
BACKUP, SHED or OFF leaves the timer running, it is read as saying that the entry itself does not restart it. -/
def enter (c : Fin 8) (st : ConsumerState) (s : State) : State := evaluate c (putConsumer c (settled (consumer s c) st) s)

/-- The recovery mode in force is AUTO. -/
def isAuto (s : State) (c : Fin 8) : Bool := flagItem s (.consumer c cRecoveryMode)

/-- The recovery delay is started for a TRIPPED consumer in AUTO with its count below 3 and no delay running (R97). -/
def startRecovery (c : Fin 8) (s : State) : State :=
  if (consumer s c).state == .tripped && isAuto s c && (consumer s c).recoveryCount < 3 &&
      (consumer s c).recoveryTimer.isNone then
    setConsumer c { consumer s c with recoveryTimer := some (startTimer s c cRecoveryDelay) } s
  else s

/-- The record of a consumer that trips: already TRIPPED it takes the cause into its set, which stops its passing timer
once VALVE_PASSING is in it (R92); otherwise it enters TRIPPED with its timers stopped and its shed flag cleared
(R93). -/
def trippedRecord (s : State) (c : Fin 8) (cause : Cause) : Consumer :=
  let causes := addCause (consumer s c).causes cause
  let last := some { time := s.settlement.clock, causes := causes }
  if (consumer s c).state = .tripped then
    { consumer s c with
      causes := causes, lastTrip := last
      passingTimer := if causes.valvePassing then none else (consumer s c).passingTimer }
  else
    { settled (consumer s c) .tripped with
      shedFlag := false, causes := causes, lastTrip := last
      overdrawTimer := none, lineLowTimer := none, lowDrawTimer := none, recoveryTimer := none }

/-- The release that goes before a trip: the grant from ACTIVE, the reservation from PURGING (R67, R68). -/
def releaseForTrip (c : Fin 8) (s : State) : State :=
  match (consumer s c).state with
  | .active => releaseGrant c s
  | .purging => releaseReservation c s
  | _ => s

/-- The TRIP notice, for the owner and WORKS (Table 10-5-1, R93). -/
def noticeTrip (c : Fin 8) (s : State) : State :=
  raiseNotice (withWorks (ownerOf s c)) clsTrip (.trip c (consumer s c).causes s.settlement.clock) s

/-- A trip up to its trigger: release, state, notice, and for a consumer that enters TRIPPED the recovery delay and an
evaluation point (R88, R93). -/
def tripBody (c : Fin 8) (cause : Cause) (s : State) : State :=
  let s' := noticeTrip c (putConsumer c (trippedRecord (releaseForTrip c s) c cause) (releaseForTrip c s))
  if (consumer s c).state = .tripped then s' else evaluate c (startRecovery c s')

/-- A trip; from ACTIVE a reallocation trigger follows (R93). -/
def trip (c : Fin 8) (cause : Cause) (s : State) : State :=
  if lit s c then trigger (tripBody c cause s) else tripBody c cause s

/-! ## The recheck (R95) -/

def supplyTest (s : State) (c : Fin 8) : Bool := item s (.consumer c cLineMinimum) ≤ valueInUse s 4

def passingTest (s : State) (c : Fin 8) : Bool := draw s c ≤ consumerItem s c cPassingThreshold

def recheckPasses (s : State) (c : Fin 8) : Bool := supplyTest s c && passingTest s c && !(consumer s c).damageMark

/-- The causes of the failed tests (R95). -/
def failedTests (s : State) (c : Fin 8) : CauseSet :=
  { noCauses with
    lineLow := !supplyTest s c, valvePassing := !passingTest s c, contractDamaged := (consumer s c).damageMark }

/-! ## Zero flow and item changes in force -/

/-- The zero-flow expiry has been reached (R7). DESIGN CHOICE (log 35): finding so takes the timeout as it stands, without a
checked read. -/
def zeroFlowDue (s : State) (ch : Fin 16) : Bool :=
  match (channel s ch).state, (channel s ch).lastArrival with
  | .noFlow, _ => false
  | _, some t => 1000 * itemNat s (zeroFlowItem ch) ≤ sinceArrival s t
  | _, none => false

/-- The channel becomes NO_FLOW, and its consumer is an evaluation point (R7). -/
def expireFlow (ch : Fin 16) (s : State) : State :=
  evaluateSome (channelConsumer ch) (setChannel ch { freshChannel with noise := (channel s ch).noise } s)

/-- What a change of one of a consumer's items in force does to the consumer: a cut for an item that can lower the
demand, the recovery delay for the recovery mode, and an evaluation point (R69, R97, R100). -/
def consumerItemChanged (c : Fin 8) (k : Fin 23) (s : State) : State :=
  let s := if k = cCeiling ∨ k = cHardCeiling ∨ k = cLinked then cutGrant c s else s
  let s :=
    if k = cRecoveryMode then
      if isAuto s c then startRecovery c s else setConsumer c { consumer s c with recoveryTimer := none } s
    else s
  evaluate c s

/-- A new zero-flow timeout whose moment has already passed is taken at once (R3). -/
def zeroFlowItemChanged (i : Item) (s : State) : State :=
  match zeroFlowChannel i with
  | some ch => if zeroFlowDue s ch then expireFlow ch s else s
  | none => s

/-- What a change of an item in force does to the blocks that read it (R117): a source's in-service item hands a
trigger (R53), a heat rate and, while the clock is UNSET, a default export may cut (R69, R109), and a consumer's item
acts under R100. Every other item acts at its reader's next event. -/
def itemChanged (i : Item) (s : State) : State :=
  let s := zeroFlowItemChanged i s
  match i with
  | .consumer c k => consumerItemChanged c k s
  | .source _ k => if k = sInService then trigger s else s
  | .exportItem k =>
    if k = xHeatRate ∨ (k = xDefaultExport ∧ s.settlement.clock = none) then cutLinked s else s
  | _ => s

/-- Items take new values together, and then each change acts on its block (R117, R134). -/
def putInForce (changes : List (Item × Int)) (s : State) : State :=
  changes.foldl (fun s ch => itemChanged ch.1 s) (changes.foldl (fun s ch => setItem ch.1 ch.2 s) s)

/-- The damage mark of a consumer is cleared (R99). -/
def clearDamageMark (c : Fin 8) (s : State) : State :=
  wrote (.damageMark c) (setConsumer c { consumer s c with damageMark := false } s)

/-- The damage marks of the consumers whose items are among the changes are cleared (R99, R134). -/
def clearDamageMarks (changes : List (Item × Int)) (s : State) : State :=
  changes.foldl (fun s ch => match itemConsumer ch.1 with | some c => clearDamageMark c s | none => s) s

/-- The revision increases by 1 and returns to 0 after its largest value (R125). -/
def bumpRevision (s : State) : State :=
  wrote .revision { s with contracts := { s.contracts with
    revision := (s.contracts.revision + 1) % Config.revisionModulus } }

/-! ## The words that the supervision of a consumer reads -/

/-- The items and words that the supervised conditions of a consumer read (R88). -/
def supervisionReads (c : Fin 8) : List Thing :=
  [.contract (zeroFlowItem (drawChannel c)), .contract (substituteItem (lineChannel c))] ++
  [cLineMinimum, cTolPct, cSlack, cOverdrawMask, cLineLowMask, cPassingMask, cPassingThreshold, cLowPct, cLowDrawTime].map
    (fun k => .contract (.consumer c k))

/-- The words from which a consumer's demand is formed (R56). -/
def demandReads (c : Fin 8) : List Thing :=
  [.nomination c, .contract (.consumer c cCeiling), .contract (.consumer c cHardCeiling), .contract (.consumer c cLinked),
   .latch, .contract (.exportItem xDefaultExport), .contract (.exportItem xHeatRate)]

/-- The words that a trip reads: its notices' owner, the recovery delay, and the evaluation after it (R93). -/
def tripReads (c : Fin 8) : List Thing :=
  supervisionReads c ++ [cOwner, cRecoveryMode, cRecoveryDelay].map (fun k => .contract (.consumer c k))

/-- The words that a cut of a grant reads: the demand, its notice's owner, and the evaluation after it (R69). -/
def cutReads (c : Fin 8) : List Thing := demandReads c ++ supervisionReads c ++ [.contract (.consumer c cOwner)]

/-- The words that a cut of the export-linked consumer's grant reads (R110). -/
def linkedReads : List Thing := (List.finRange 8).flatMap cutReads

/-- The words that the consequences of an item's change read (R117, log 35). -/
def actionReads : Item → List Thing
  | .consumer c _ => demandReads c ++ tripReads c
  | .exportItem k => if k = xHeatRate ∨ k = xDefaultExport then linkedReads else []
  | _ => []

/-- The items that the rule of a changed item reads (R121). -/
def ruleReads : Item → List Thing
  | .consumer c i =>
    if i = cFloor ∨ i = cCeiling then [.contract (.consumer c cFloor), .contract (.consumer c cCeiling)]
    else if i = cLinked then (List.finRange 8).map fun c => .contract (.consumer c cLinked)
    else []
  | .holder i =>
    if i ≤ hHysteresis then [hTLL, hTL, hTH, hTHH, hHysteresis].map fun k => .contract (.holder k) else []
  | .rangeLow ch => [.contract (.rangeLow ch), .contract (.rangeHigh ch)]
  | .rangeHigh ch => [.contract (.rangeLow ch), .contract (.rangeHigh ch)]
  | _ => []

/-- The words that putting an item in force reads (R117). -/
def changeReads (i : Item) : List Thing := ruleReads i ++ actionReads i

end Sys2Proof.Machine
end

