-- ==== Sys2Proof/Machine/Store.lean ====
section
/-! DEFINITION. The Retained Store Controller at work: the check that every read of a word passes (R166, R167, R169),
the counts of the integrity report (R170), and the reaction of the owning block to each kind of damage (Table
9-2-1). -/

namespace Sys2Proof.Machine

/-! ## Places and regions -/

/-- The place of the ring that a record number takes (R155, log 14). -/
def placeOf (number : Nat) : Fin 96 := ⟨number % 96, by omega⟩

/-- The record that stands in a place of the ring. -/
def recordAt (s : State) (k : Fin 96) : Option ArchiveRecord :=
  s.settlement.archive.find? (fun r => placeOf r.number == k)

/-- A place's known-damaged mark is set (R169). -/
def knownDamaged (s : State) (number : Nat) : Bool := s.store.knownDamaged[placeOf number]

/-- An item name in the three most significant bytes of an index (Table 10-6-3). -/
def nameIndex (n : ItemName) : Nat := n.group * 16777216 + n.index * 65536 + n.item * 256

/-- The region and index under which damage to a thing is reported (Table 9-1-1). -/
def regionOf (s : State) : Thing → RegionIndex
  | .totals ch => ⟨0, ch⟩
  | .contract i => ⟨1, nameIndex (nameOf (.item i))⟩
  | .nomination c => ⟨2, c⟩
  | .damageMark c => ⟨2, c⟩
  | .proposal k => ⟨3, k⟩
  | .commissioning => ⟨3, 8⟩
  | .revision => ⟨3, 9⟩
  | .nextProposal => ⟨3, 10⟩
  | .identity => ⟨3, 11⟩
  | .schedule k => ⟨4, k⟩
  | .latch => ⟨4, 8⟩
  | .openRecord k => ⟨5, k⟩
  | .archive k =>
    match recordAt s k with
    | some r => ⟨6, r.number⟩
    | none => ⟨6, Config.emptyPlaceIndex s.freeIndex⟩
  | .heatAccount => ⟨7, 0⟩
  | .gasAccount => ⟨7, 1⟩
  | .cursor p => ⟨8, partyIndex p⟩
  | .gapMark p => ⟨8, partyIndex p⟩
  | .nextRecord => ⟨8, 3⟩
  | .report k => ⟨9, k⟩
  | .marks => ⟨9, 4⟩
  | .signature k => ⟨10, k⟩

/-! ## Whole things written -/

/-- The places of a list of eight from `k` on that a change from one length to another writes. -/
def writtenPlaces (mk : Fin 8 → Thing) (k n m : Nat) : List Thing :=
  ((List.finRange 8).filter (fun j => k ≤ j.val && j.val < max n m)).map mk

/-- The proposal table is rewritten from a place on; the places below it keep their words (R126, R165). -/
def setProposalsFrom (k : Nat) (l : List Proposal) (s : State) : State :=
  wroteAll (writtenPlaces .proposal k s.contracts.proposals.length l.length)
    { s with contracts := { s.contracts with proposals := l } }

/-- The proposal table is rewritten (R126). -/
def setProposals (l : List Proposal) (s : State) : State := setProposalsFrom 0 l s

/-- The export schedule list is rewritten from a place on; the places below it keep their words (R103, R165). -/
def setScheduleFrom (k : Nat) (l : List ScheduleEntry) (s : State) : State :=
  wroteAll (writtenPlaces .schedule k s.exports.schedule.length l.length)
    { s with exports := { s.exports with schedule := l } }

/-- The export schedule list is rewritten (R103). -/
def setSchedule (l : List ScheduleEntry) (s : State) : State := setScheduleFrom 0 l s

/-- The places of the proposal table that hold an entry, for a read of it. -/
def tableReads (s : State) : List Thing :=
  ((List.finRange 8).filter fun k => k.val < s.contracts.proposals.length).map .proposal

/-- The places of the schedule list that hold an entry. -/
def scheduleReads (s : State) : List Thing :=
  ((List.finRange 8).filter fun k => k.val < s.exports.schedule.length).map .schedule

def setLatch (l : Option Latch) (s : State) : State := wrote .latch { s with exports := { s.exports with latch := l } }

def setHeatAccount (a : Account) (s : State) : State :=
  wrote .heatAccount { s with settlement := { s.settlement with heatAccount := a } }

def setGasAccount (a : Account) (s : State) : State :=
  wrote .gasAccount { s with settlement := { s.settlement with gasAccount := a } }

def setCursor (p : Party) (n : Nat) (s : State) : State :=
  wrote (.cursor p) { s with settlement := { s.settlement with cursors := s.settlement.cursors.set (partyIndex p) n } }

def setGap (p : Party) (b : Bool) (s : State) : State :=
  wrote (.gapMark p) { s with settlement := { s.settlement with gapMarks := s.settlement.gapMarks.set (partyIndex p) b } }

/-- While the ring is empty every cursor stands at the next record number (R155). -/
def followNext (s : State) : State :=
  if s.settlement.archive.isEmpty then
    [Party.works, .town, .grid].foldl (fun t p => setCursor p s.settlement.nextRecord t) s
  else s

/-- The next record number changes, and the cursors of an empty ring with it (R155). -/
def setNextRecord (n : Nat) (s : State) : State :=
  followNext (wrote .nextRecord { s with settlement := { s.settlement with nextRecord := n } })

def setLocked (b : Bool) (s : State) : State :=
  wrote .commissioning { s with contracts := { s.contracts with locked := b } }

def setRevision (n : Nat) (s : State) : State :=
  wrote .revision { s with contracts := { s.contracts with revision := n } }

def setNextProposal (n : Nat) (s : State) : State :=
  wrote .nextProposal { s with contracts := { s.contracts with nextProposal := n } }

def setIdentity (code : Nat) (name : List Byte) (s : State) : State :=
  wrote .identity { s with contracts := { s.contracts with siteCode := code, siteName := name } }

def setNomination (c : Fin 8) (n : Nat) (s : State) : State :=
  wrote (.nomination c) (setConsumer c { consumer s c with nomination := n } s)

def setDamageMark (c : Fin 8) (s : State) : State :=
  wrote (.damageMark c) (setConsumer c { consumer s c with damageMark := true } s)

/-- The oldest record number of the ring, or the next record number where it is empty (R155). -/
def oldestNumber (s : State) : Nat :=
  match s.settlement.archive.head? with
  | some r => r.number
  | none => s.settlement.nextRecord

/-- The newest record number of the ring plus one, or the next record number where it is empty (R155). -/
def newestPlusOne (s : State) : Nat :=
  match s.settlement.archive.getLast? with
  | some r => r.number + 1
  | none => s.settlement.nextRecord

/-! ## Counts of the integrity report -/

/-- A correction is counted (R166). -/
def countCorrected (s : State) : State :=
  wrote (.report 0) { s with store := { s.store with
    report := { s.store.report with corrected := countUp 65535 s.store.report.corrected } } }

/-- An uncorrectable error is counted and recorded as the last, and INTEGRITY is raised for every party (R167). -/
def countUncorrectable (r : RegionIndex) (s : State) : State :=
  raiseNotice allParties clsIntegrity (.integrity r)
    (wroteAll [.report 1, .report 2] { s with store := { s.store with
      report := { s.store.report with uncorrectable := countUp 65535 s.store.report.uncorrectable, last := some r } } })

/-- A damaged field of the report is set to 0; the last region and index is set by the count that follows (R170). -/
def zeroReportField (k : Fin 4) (s : State) : State :=
  { s with store := { s.store with report :=
    match k with
    | 0 => { s.store.report with corrected := 0 }
    | 1 => { s.store.report with uncorrectable := 0 }
    | 2 => { s.store.report with last := some ⟨9, 2⟩ }
    | 3 => { s.store.report with sweeps := 0 } } }

/-- The known-damaged mark of a place is set (R169). -/
def setMark (k : Fin 96) (b : Bool) (s : State) : State :=
  wrote .marks { s with store := { s.store with knownDamaged := s.store.knownDamaged.set k b } }

/-- Every known-damaged mark is cleared (R170). -/
def clearMarks (s : State) : State :=
  wrote .marks { s with store := { s.store with knownDamaged := Vector.replicate 96 false } }

/-! ## Reading the archive for a reseed -/

/-- The newest record that reads without damage among records given newest first; each is read through the check
`rd`, which sets the mark of one found damaged (R34, R163, R169). -/
def firstIntact (rd : List Thing → State → State) : List ArchiveRecord → State → State × Option ArchiveRecord
  | [], s => (s, none)
  | r :: rest, s =>
    let s := rd [.archive (placeOf r.number)] s
    if knownDamaged s r.number then firstIntact rd rest s else (s, some r)

def newestIntact (rd : List Thing → State → State) (s : State) : State × Option ArchiveRecord :=
  firstIntact rd s.settlement.archive.reverse s

/-- The record number of the open record. -/
def openNumber (s : State) : Nat :=
  match s.settlement.openRecord with
  | some o => o.number
  | none => 0

/-- The start of the open record. -/
def openStart (s : State) : Nat :=
  match s.settlement.openRecord with
  | some o => o.start
  | none => 0

/-- The newest archive record, if it reads intact and its number is one less than the open record's, which is read
first (R162). -/
def intactBefore (rd : List Thing → State → State) (s : State) : State × Option ArchiveRecord :=
  let s := rd [.openRecord 0] s
  match s.settlement.archive.getLast? with
  | none => (s, none)
  | some r =>
    let s := rd [.archive (placeOf r.number)] s
    (s, if knownDamaged s r.number || r.number + 1 != openNumber s then none else some r)

/-! ## Reactions of the owning blocks -/

/-- A damaged total or remainder is reseeded (R34). -/
def reseedTotal (rd : List Thing → State → State) (ch : Fin 16) (s : State) : State :=
  let (s, r) := newestIntact rd s
  let v := match r with | some r => r.closing[ch] | none => 0
  onOpen ⟨7 + ch, by omega⟩ (fun o => { o with opening := o.opening.set ch v }) (markEstimated ch (setTotal ch v 0 s))

/-- A damaged in-force item falls to its value after cold start, and what that change touches is read; the open record
is marked, and the consumer of a consumer's item is marked and trips (R99, R138). -/
def defaultItem (rd : List Thing → State → State) (i : Item) (s : State) : State :=
  let s := markContractDamaged (itemChanged i (rd (actionReads i) (setItem i (itemDefault i) s)))
  match itemConsumer i with
  | some c => trip c .contractDamaged (setDamageMark c s)
  | none => s

/-- Damage to a consumer's nomination or damage mark: both are replaced before what the trip and the cut need is read
(R168). -/
def damageConsumer (rd : List Thing → State → State) (c : Fin 8) (s : State) : State :=
  cutGrant c (trip c .contractDamaged (rd (demandReads c ++ tripReads c) (setDamageMark c (setNomination c 0 s))))

/-- The places above `k` of a list of so many entries, last first. -/
def placesAbove (mk : Fin 8 → Thing) (k : Fin 8) (length : Nat) : List Thing :=
  ((List.finRange 8).reverse.filter (fun j => k < j && j.val < length)).map mk

/-- A damaged proposal entry leaves the table, with DISCARDED for the parties and with the number that read intact
(R139). The entries that move down are read first; those below it stay where they are. -/
def dropDamagedProposal (rd : List Thing → State → State) (k : Fin 8) (s : State) : State :=
  let s := rd (placesAbove .proposal k s.contracts.proposals.length) s
  match s.contracts.proposals[k.val]? with
  | none => s
  | some e =>
    let parties :=
      if Config.entryPartiesIntact s.freeIndex then addParty e.parties e.proposer else allParties
    let number := if Config.entryNumberIntact s.freeIndex then e.number else 0
    raiseNotice parties clsProposal (.proposal number .discarded)
      (setProposalsFrom k (s.contracts.proposals.eraseIdx k) (useFree s))

/-- A damaged schedule entry leaves the list (R115). The entries that move down are read first; those below it stay
where they are. -/
def dropDamagedSchedule (rd : List Thing → State → State) (k : Fin 8) (s : State) : State :=
  let s := rd (placesAbove .schedule k s.exports.schedule.length) s
  setScheduleFrom k (s.exports.schedule.eraseIdx k) s

/-- A damaged latch becomes the default export in force, and a grant above the new demand is cut (R115). -/
def defaultLatch (rd : List Thing → State → State) (s : State) : State :=
  match s.exports.latch with
  | none => s
  | some _ =>
    let s := rd [.contract (.exportItem xDefaultExport)] s
    cutLinked (rd linkedReads
      (setLatch (some { kw := itemNat s (.exportItem xDefaultExport), source := .default }) s))

/-- A damaged contract revision (R139). -/
def repairRevision (rd : List Thing → State → State) (s : State) : State :=
  let (s, r) := newestIntact rd s
  markContractDamaged (setRevision
    (match r with | some r => (r.revision + 1) % Config.revisionModulus | none => 1) s)

/-- A damaged next proposal number: one more than the highest in the table, or 1 (R139). -/
def repairNextProposal (rd : List Thing → State → State) (s : State) : State :=
  let s := rd (tableReads s) s
  setNextProposal ((s.contracts.proposals.map (·.number)).foldl max 0 % 65535 + 1) s

/-- A damaged billing account is reseeded from the newest intact record (R163). -/
def reseedAccount (rd : List Thing → State → State) (heat : Bool) (s : State) : State :=
  let (s, r) := newestIntact rd s
  match r with
  | some r => if heat then setHeatAccount r.heatAccount s else setGasAccount r.gasAccount s
  | none => if heat then setHeatAccount ⟨0, 0⟩ s else setGasAccount ⟨0, 0⟩ s

/-- A damaged next record number: one more than the open record's, or than the newest of the ring while none is open
(R163, R168). -/
def repairNextRecord (rd : List Thing → State → State) (s : State) : State :=
  match s.settlement.openRecord with
  | some _ => let s := rd [.openRecord 0] s; setNextRecord (openNumber s + 1) s
  | none =>
    setNextRecord (match s.settlement.archive.getLast? with | some r => r.number + 1 | none => 1) s

/-- The band of a device time in the band table in force (R148). -/
def bandAt (s : State) (t : Nat) : Nat := min 3 (itemNat s (.bandEntry (hourOf t)))

/-- The heat and gas price in force of a band (R148). -/
def heatPriceOf (s : State) (b : Nat) : Nat := itemNat s (.heatPrice ⟨min 3 b, by omega⟩)
def gasPriceOf (s : State) (b : Nat) : Nat := itemNat s (.gasPrice ⟨min 3 b, by omega⟩)

/-- The end of a record that starts at `t` (R147). -/
def recordEnd (s : State) (t : Nat) : Nat := regularStart (intervalLength s) t + intervalLength s

/-- The next record number is read where it stands for the numbers of an empty ring (R155). -/
def readForEmptyRing (rd : List Thing → State → State) (s : State) : State :=
  if s.settlement.archive.isEmpty then rd [.nextRecord] s else s

/-- The record number of the open record is replaced, and the next record number is one more (R162). -/
def repairNumber (rd : List Thing → State → State) (s : State) : State :=
  let s := readForEmptyRing rd s
  let n := newestPlusOne s
  setNextRecord (n + 1) (onOpen 0 (fun o => { o with number := n }) s)

/-- The start of the open record is replaced, and its end formed again (R162). After a backward step the end of the record
before may lie past the present time; what is then formed from the seconds since the start is open (log 40). -/
def repairStart (rd : List Thing → State → State) (s : State) : State :=
  let (s, r) := intactBefore rd s
  let s := rd [.contract .intervalLength] s
  match r with
  | some r =>
    onOpen 2 (fun o => { o with stop := recordEnd s (r.start + r.length) })
      (onOpen 1 (fun o => { o with start := r.start + r.length }) s)
  | none =>
    let t := regularStart (intervalLength s) (s.settlement.clock.getD 0)
    onOpen 42 (fun o => { o with clockStep := true })
      (onOpen 2 (fun o => { o with stop := recordEnd s t }) (onOpen 1 (fun o => { o with start := t }) s))

/-- The end of the open record is formed again from its start (R162). With an interval length that damage has shortened it may
lie before the present time (R138, log 39). -/
def repairStop (rd : List Thing → State → State) (s : State) : State :=
  let s := rd [.openRecord 1, .contract .intervalLength] s
  onOpen 2 (fun o => { o with stop := recordEnd s (openStart s) }) s

/-- The start of the open record and the band of its hour are read, for the band and prices formed from them (R148). -/
def readBand (rd : List Thing → State → State) (s : State) : State :=
  let s := rd [.openRecord 1] s
  rd [.contract (.bandEntry (hourOf (openStart s)))] s

/-- The band of the open record is formed again (R148, R162). -/
def repairBand (rd : List Thing → State → State) (s : State) : State :=
  let s := readBand rd s
  onOpen 3 (fun o => { o with band := bandAt s (openStart s) }) s

/-- The band of the open record's start, as an index of the price tables (R148). -/
def openBand (s : State) : Fin 4 := ⟨bandAt s (openStart s), by unfold bandAt; omega⟩

/-- A price of the open record is formed again (R148, R162). -/
def repairHeatPrice (rd : List Thing → State → State) (s : State) : State :=
  let s := readBand rd s
  let s := rd [.contract (.heatPrice (openBand s))] s
  onOpen 4 (fun o => { o with heatPrice := heatPriceOf s (bandAt s (openStart s)) }) s

def repairGasPrice (rd : List Thing → State → State) (s : State) : State :=
  let s := readBand rd s
  let s := rd [.contract (.gasPrice (openBand s))] s
  onOpen 5 (fun o => { o with gasPrice := gasPriceOf s (bandAt s (openStart s)) }) s

/-- The contract revision of the open record is taken again (R150, R162). -/
def repairOpenRevision (rd : List Thing → State → State) (s : State) : State :=
  let s := rd [.revision] s
  onOpen 6 (fun o => { o with revision := s.contracts.revision }) s

/-- An opening total is replaced, by the running total where the ring gives none, and the channel's ESTIMATED mark is set
(R162). -/
def repairOpening (rd : List Thing → State → State) (ch : Fin 16) (s : State) : State :=
  let (s, r) := intactBefore rd s
  let s := if r.isNone then rd [.totals ch] s else s
  let v := match r with | some r => r.closing[ch] | none => s.metering.totals[ch]
  markEstimated ch (onOpen ⟨7 + ch, by omega⟩ (fun o => { o with opening := o.opening.set ch v }) s)

/-- SHORT is formed again from the start (R147, R162). -/
def repairShort (rd : List Thing → State → State) (s : State) : State :=
  let s := rd [.openRecord 1, .contract .intervalLength] s
  onOpen 41 (fun o => { o with short := openStart s % intervalLength s != 0 }) s

/-- CLOCK_STEP is replaced: clear where the record continues the one before it (R162). -/
def repairClockStep (rd : List Thing → State → State) (s : State) : State :=
  let (s, r) := intactBefore rd s
  let s := rd [.openRecord 1] s
  let step := match r with | some r => openStart s != r.start + r.length | none => true
  onOpen 42 (fun o => { o with clockStep := step }) s

/-- COMMISSIONING is set if the contract is COMMISSIONING (R162). -/
def repairCommissioning (rd : List Thing → State → State) (s : State) : State :=
  let s := rd [.commissioning] s
  onOpen 44 (fun o => { o with commissioning := !s.contracts.locked }) s

/-- A damaged field of the open record is replaced, from the words it is formed from as they read then, and the record stays
open (R162, log 35; the fields by the index of Table 9-1-1). -/
def repairOpen (rd : List Thing → State → State) (k : Fin 49) (s : State) : State :=
  if s.settlement.openRecord.isNone then s
  else if k = 0 then repairNumber rd s
  else if k = 1 then repairStart rd s
  else if k = 2 then repairStop rd s
  else if k = 3 then repairBand rd s
  else if k = 4 then repairHeatPrice rd s
  else if k = 5 then repairGasPrice rd s
  else if k = 6 then repairOpenRevision rd s
  else if h : 7 ≤ k.val ∧ k.val < 23 then repairOpening rd ⟨k - 7, by omega⟩ s
  else if h : 23 ≤ k.val ∧ k.val < 38 then markEstimated ⟨k - 23, by omega⟩ s
  else if h : 38 ≤ k.val ∧ k.val < 41 then
    markEstimated ⟨k - 26, by omega⟩ (onOpen k (fun o => { o with reverse := o.reverse.set (k.val - 38) 0 }) s)
  else if k = 41 then repairShort rd s
  else if k = 42 then repairClockStep rd s
  else if k = 43 then onOpen 43 (fun o => { o with outage := false }) s
  else if k = 44 then repairCommissioning rd s
  else if k = 45 then markContractChanged s
  else if k = 46 then markContractDamaged s
  else if k = 47 then onOpen 47 (fun o => { o with flare := 0 }) s
  else onOpen 48 (fun o => { o with trimmed := true }) s

/-- A damaged cursor goes to the oldest record, with its gap mark set (R163). -/
def repairCursor (rd : List Thing → State → State) (p : Party) (s : State) : State :=
  let s := readForEmptyRing rd s
  setGap p true (setCursor p (oldestNumber s) s)

/-- A signature word found uncorrectable is written again with the pattern (R172). -/
def rewriteSignature (k : Fin 4) (s : State) : State :=
  { s with store := { s.store with signature := s.store.signature.set k true } }

/-- The reaction of the owning block to damage of a thing outside the report and the archive (Table 9-2-1); `rd` is
the check that its own reads pass. A reaction puts a replacement that needs no read in place before it reads. -/
def react (rd : List Thing → State → State) (t : Thing) (s : State) : State :=
  match t with
  | .totals ch => reseedTotal rd ch s
  | .contract i => defaultItem rd i s
  | .nomination c => damageConsumer rd c s
  | .damageMark c => damageConsumer rd c s
  | .proposal k => dropDamagedProposal rd k s
  | .commissioning => setLocked true s
  | .revision => repairRevision rd s
  | .nextProposal => repairNextProposal rd s
  | .identity => setIdentity 0 [] s
  | .schedule k => dropDamagedSchedule rd k s
  | .latch => defaultLatch rd s
  | .openRecord k => repairOpen rd k s
  | .heatAccount => reseedAccount rd true s
  | .gasAccount => reseedAccount rd false s
  | .cursor p => repairCursor rd p s
  | .gapMark p => setGap p true s
  | .nextRecord => repairNextRecord rd s
  | .signature k => rewriteSignature k s
  | .archive _ => s
  | .report _ => s
  | .marks => s

/-! ## The check of a word -/

/-- An uncorrectable word `w` of the thing `t` is counted, reported and met by its owner (R167). The report's own
damage is replaced before it is counted (R170); a damaged archive record keeps its words and gains its mark (R169). -/
def meetDamage (rd : List Thing → State → State) (w : Nat) (t : Option Thing) (s : State) : State :=
  match t with
  | none =>
    let r := Config.spareWordReport s.freeIndex
    countUncorrectable ⟨r.1, r.2⟩ (rd [.report 1] (useFree (clearWord w s)))
  | some (.report k) => countUncorrectable ⟨9, k⟩ (rd [.report 1] (zeroReportField k (wrote (.report k) s)))
  | some .marks => countUncorrectable ⟨9, 4⟩ (rd [.report 1] (clearMarks s))
  | some (.archive k) =>
    let r := regionOf s (.archive k)
    if (recordAt s k).isSome then setMark k true (countUncorrectable r (rd [.report 1] s))
    else countUncorrectable r (rd [.report 1] (useFree (wrote (.archive k) s)))
  | some t =>
    let r := regionOf s t
    react rd t (countUncorrectable r (rd [.report 1] (wrote t s)))

/-- What the check does about the error, if any, that stands in a word (R166, R167). -/
def meetError (rd : List Thing → State → State) (w : Nat) (t : Option Thing) (s : State) : State :=
  match errorAt s.store.errors w with
  | none => s
  | some .oneBit => countCorrected (rd [.report 0] (clearWord w s))
  | some .uncorrectable => meetDamage rd w t s

/-- The words of a thing are read, each through the check `m` of the words in error. A read of an archive record reads the
known-damaged marks first (R169). -/
def readThing (m : Nat → State → State) (t : Thing) (s : State) : State :=
  let s :=
    match t with
    | .archive _ => (wordsInError .marks s).foldl (fun s w => m w s) s
    | _ => s
  (wordsInError t s).foldl (fun s w => m w s) s

/-- Things are read one after another. -/
def readWith (m : Nat → State → State) (ts : List Thing) (s : State) : State := ts.foldl (fun s t => readThing m t s) s

/-- The read of a word through the Retained Store Controller. The words of an archive record whose known-damaged mark
is set are passed over (R169). The first argument bounds how deep reactions whose own reads find damage may nest:
each level has removed an error or set a mark, so the number of words in error is bound enough. -/
def checkWord : Nat → Nat → State → State
  | 0, _, s => s
  | n + 1, w, s =>
    match thingAt s.store.layout w with
    | some (.archive k) =>
      let s := readWith (checkWord n) [.marks] s
      if s.store.knownDamaged[k] then s else meetError (readWith (checkWord n)) w (some (.archive k)) s
    | t => meetError (readWith (checkWord n)) w t s

/-- A read of one word (R166). -/
def readWord (w : Nat) (s : State) : State := checkWord (s.store.errors.length + 1) w s

/-- The reads of an operation: every word of the things named, in order (R166). -/
def readAll (ts : List Thing) (s : State) : State := readWith (checkWord (s.store.errors.length + 1)) ts s

end Sys2Proof.Machine
end

