-- ==== Sys2Proof/Machine/Allocate.lean ====
section
/-! DEFINITION. The allocation event (chapter 4): the available rate, the six stages, the replacement of the standing
result, and the taking of the triggers that an operation hands over (R53, R54). -/

namespace Sys2Proof.Machine

/-! ## The figures of an event (4-3) -/

/-- The sum of the rates of the sources in service (R55). -/
def sourceSum (s : State) : Nat :=
  ((List.finRange 4).map fun n =>
    if flagItem s (.source n sInService) then takeRate s ⟨n, by omega⟩ else 0).sum

/-- The holder term that the current band and the items in force give (R43). -/
def holderTerm (s : State) : Int :=
  match s.band with
  | .lowLow => -item s (.holder hFillLL)
  | .low => -item s (.holder hFillL)
  | .normal => 0
  | .high => item s (.holder hDrawH)
  | .highHigh => item s (.holder hDrawH)

/-- The available rate A (R55). -/
def availableRate (s : State) : Nat := ((sourceSum s : Int) + holderTerm s - item s (.holder hMargin)).toNat

/-- The slots that a condition picks, in order of class from 0 to 3 and in ascending slot order within a class
(R57). -/
def byClass (s : State) (p : Fin 8 → Bool) : List (Fin 8) :=
  [0, 1, 2, 3].flatMap fun k => (List.finRange 8).filter fun c => classOf s c == k && p c

/-- The sum of the lit floors of the ACTIVE consumers, Φ (R57). -/
def floorSum (s : State) : Nat := (((List.finRange 8).filter (lit s)).map (litFloor s)).sum

def sumVec (v : Vector Nat 8) : Nat := v.toList.sum

/-- `amount` in proportion to the weights of some slots, rounded down, and the leftover 1 kW at a time to the slots
of weight above 0 in the order given (R60, R62). -/
def shares (w : Fin 8 → Nat) (slots : List (Fin 8)) (amount : Nat) (c : Fin 8) : Nat :=
  let total := (slots.map w).sum
  let base := fun c => w c * amount / total
  let left := amount - (slots.map base).sum
  if slots.contains c then base c + (if ((slots.filter (fun c => 0 < w c)).take left).contains c then 1 else 0) else 0

/-! ## Stage 1: reservations (R58) -/

/-- A candidate of stage 1: PURGING with target ACTIVE. -/
def isCandidate (s : State) (c : Fin 8) : Bool :=
  (consumer s c).state == .purging && (consumer s c).target == some .active

/-- What stage 1 has done so far: the records as changed, the reservations given and their sum, whether a candidate
has failed its test, and the slots that lost their reservation. -/
structure Reserving where
  state  : State
  given  : Vector Nat 8
  sum    : Nat
  failed : Bool
  lost   : List (Fin 8)

/-- A candidate that holds its reservation (R58). -/
def holding (r : Consumer) : Consumer :=
  { r with reservation := .holding, shedFlag := if r.reservation = .awaiting then false else r.shedFlag }

/-- A candidate that loses its reservation (R58). -/
def losing (s : State) (c : Fin 8) : Consumer :=
  { consumer s c with
    target := some (if hasBackup s c then .backup else .shed), reservation := .none, shedFlag := true }

def reserveOne (available floors : Nat) (x : Reserving) (c : Fin 8) : Reserving :=
  if !x.failed && floors + x.sum + litFloor x.state c ≤ available then
    { x with
      state := setConsumer c (holding (consumer x.state c)) x.state
      given := x.given.set c (litFloor x.state c)
      sum := x.sum + litFloor x.state c }
  else
    { x with state := setConsumer c (losing x.state c) x.state, failed := true, lost := x.lost ++ [c] }

def reserve (available : Nat) (s : State) : Reserving :=
  (byClass s (isCandidate s)).foldl (reserveOne available (floorSum s))
    { state := s, given := Vector.replicate 8 0, sum := 0, failed := false, lost := [] }

/-! ## Stage 2: shedding (R59, R85) -/

/-- The order in which ACTIVE consumers are shed: classes 3, 2 and 1, slots descending (R59). -/
def shedOrder (s : State) : List (Fin 8) :=
  [3, 2, 1].flatMap fun k => (List.finRange 8).reverse.filter fun c => classOf s c == k && lit s c

/-- A shed consumer: toward BACKUP through a purge where it has backup, SHED at once otherwise (R59, R85). -/
def shedRecord (s : State) (c : Fin 8) : Consumer :=
  if hasBackup s c then { purging s c .backup .none with shedFlag := true }
  else { settled (consumer s c) .shed with
    shedFlag := true, overdrawTimer := none, lineLowTimer := none, lowDrawTimer := none }

/-- Shedding goes on while Φ exceeds A (R59). -/
def shedOne (available : Nat) (x : State × List (Fin 8)) (c : Fin 8) : State × List (Fin 8) :=
  if available < floorSum x.1 then (putConsumer c (shedRecord x.1 c) x.1, x.2 ++ [c]) else x

def shedding (available : Nat) (s : State) : State × List (Fin 8) := (shedOrder s).foldl (shedOne available) (s, [])

/-! ## Stage 3: class-0 pro-rata (R60) -/

def proRata (available : Nat) (s : State) : Vector Nat 8 :=
  Vector.ofFn (shares (litFloor s) ((List.finRange 8).filter (lit s)) available)

/-! ## Stage 4: restoration (R61) -/

/-- The consumers that restoration may consider: in BACKUP or SHED with the shed flag set. -/
def isWaiting (s : State) (c : Fin 8) : Bool :=
  ((consumer s c).state == .backup || (consumer s c).state == .shed) && (consumer s c).shedFlag

/-- The band lets shed consumers be restored: NORMAL or above (R61). -/
def bandRestores : Band → Bool
  | .normal | .high | .highHigh => true
  | .low | .lowLow => false

/-- The first waiting consumer, if the rate left covers its floor and the restore margin (R61). -/
def toRestore (available reserved : Nat) (s : State) : Option (Fin 8) :=
  match byClass s (isWaiting s) with
  | [] => none
  | c :: _ =>
    if litFloor s c + itemNat s (.holder hRestoreMargin) ≤ available - floorSum s - reserved then some c else none

def restored (s : State) (c : Fin 8) : Consumer := { purging s c .active .holding with shedFlag := false }

/-! ## Stage 5: floors and nomination pass (R62) -/

/-- One class of the nomination pass: the grants and the rate left. -/
def nominationPass (s : State) (x : Vector Nat 8 × Nat) (k : Nat) : Vector Nat 8 × Nat :=
  let slots := (List.finRange 8).filter fun c => classOf s c == k && lit s c
  let want := fun c => demand s c - litFloor s c
  let total := (slots.map want).sum
  if total ≤ x.2 then
    (Vector.ofFn fun c => x.1[c] + (if slots.contains c then want c else 0), x.2 - total)
  else (Vector.ofFn fun c => x.1[c] + shares want slots x.2 c, 0)

def floorsAndNominations (s : State) (left : Nat) : Vector Nat 8 × Nat :=
  [0, 1, 2, 3].foldl (nominationPass s) (Vector.ofFn fun c => if lit s c then litFloor s c else 0, left)

/-! ## The event (R54, R63) -/

/-- What the stages give: the records as they leave them, the new grants, reservations and surplus, and the slots
shed or restored for the notices. -/
structure Plan where
  state        : State
  grants       : Vector Nat 8
  reservations : Vector Nat 8
  surplus      : Nat
  shed         : List (Fin 8)
  restored     : Option (Fin 8)

/-- Stages 4 and 5, which run when stage 3 does not (Table 4-4-1). -/
def planServed (available : Nat) (r : Reserving) (s : State) (shed : List (Fin 8)) : Plan :=
  match (if shed.isEmpty && bandRestores s.band then toRestore available r.sum s else none) with
  | some c =>
    let s' := putConsumer c (restored s c) s
    let g := floorsAndNominations s' (available - floorSum s - (r.sum + litFloor s c))
    { state := s', grants := g.1, reservations := r.given.set c (litFloor s c), surplus := g.2,
      shed := r.lost ++ shed, restored := some c }
  | none =>
    let g := floorsAndNominations s (available - floorSum s - r.sum)
    { state := s, grants := g.1, reservations := r.given, surplus := g.2, shed := r.lost ++ shed, restored := none }

/-- Stages 1 to 5 (Table 4-4-1). -/
def plan (available : Nat) (s : State) : Plan :=
  let r := reserve available s
  let x := if available < floorSum r.state then shedding available r.state else (r.state, [])
  if available < floorSum x.1 then
    { state := x.1, grants := proRata available x.1, reservations := r.given, surplus := 0, shed := r.lost ++ x.2,
      restored := none }
  else planServed available r x.1 x.2

/-- A SHED notice for the owner and WORKS (R86). -/
def noticeShed (c : Fin 8) (restored : Bool) (s : State) : State :=
  raiseNotice (withWorks (ownerOf s c)) clsShed (.shed c restored) s

/-- The notices of an event, after its stage 6: SHED, then GRANT, each in ascending slot order (R66, R86, R186). -/
def eventNotices (p : Plan) (old : Vector Nat 8) (s : State) : State :=
  let s := (List.finRange 8).foldl (fun s c =>
    if p.shed.contains c then noticeShed c false s
    else if p.restored = some c then noticeShed c true s else s) s
  (List.finRange 8).foldl (fun s c => if p.grants[c] ≠ old[c] then noticeGrant c p.grants[c] s else s) s

/-- The evaluation points of an event: a consumer whose grant changed, and one that entered another state (R63,
R88). -/
def eventEvaluations (p : Plan) (before : State) (s : State) : State :=
  (List.finRange 8).foldl (fun s c =>
    if p.grants[c] ≠ grant before c ∨ (consumer p.state c).state ≠ (consumer before c).state then evaluate c s else s) s

/-- The new standing result (R54, R63). -/
def planResult (p : Plan) (s : State) (available : Nat) : Allocation :=
  { time := s.settlement.clock, timeBase := some s.allocator.base, sourceSum := sourceSum s, holderTerm := holderTerm s,
    band := s.band, available := available, grants := p.grants, reservations := p.reservations, surplus := p.surplus,
    flareDemand := s.allocator.result.flareDemand, creditPoint := s.allocator.result.creditPoint }

/-- The allocation period timer is started with the period in force (R51). -/
def startPeriod (s : State) : State :=
  { s with allocator := { s.allocator with
    timer := { start := s.allocator.base, length := 1000 * itemNat s .allocationPeriod } } }

/-- Stage 6: the result is replaced, the flare follows, and the period timer is restarted (R51, R63). -/
def applyPlan (p : Plan) (s : State) : State :=
  startPeriod (setFlare (if s.band = .highHigh then p.surplus else 0)
    (setResult (planResult p s (availableRate s)) p.state))

/-- The stages on the inputs as they stand, the notices, and the evaluation of the consumers (R54, R63, R66). -/
def runStages (s : State) : State :=
  eventEvaluations (plan (availableRate s) s) s
    (eventNotices (plan (availableRate s) s) s.allocator.result.grants (applyPlan (plan (availableRate s) s) s))

/-- Everything that an allocation event reads (R54). -/
def allocationReads : List Thing :=
  List.flatten
    [[.openRecord 47],
     (List.finRange 4).flatMap (fun n => [.contract (.source n sInService), .contract (.source n sZeroFlow)]),
     [hFillLL, hFillL, hDrawH, hMargin, hRestoreMargin].map (fun k => .contract (.holder k)),
     [.contract .allocationPeriod],
     (List.finRange 8).flatMap (fun c =>
       demandReads c ++ [cOwner, cClass, cFloor, cBackupPresent, cPurgeTime].map (fun k => .contract (.consumer c k)) ++
       supervisionReads c)]

/-- An allocation event, one operation of the Allocator (R54): its reads, the flare credit, the stages. -/
def allocationEvent (s : State) : State := runStages (creditFlare (readAll allocationReads s))

/-- A trigger is taken (R53). -/
def takeTrigger (s : State) : State := { s with allocator := { s.allocator with triggers := s.allocator.triggers - 1 } }

/-- Each trigger handed over is an allocation event of its own (R53). Only damage found by an event's reads can hand
over a further one, so triggers and words in error together bound their number. -/
def takeTriggers : Nat → State → State
  | 0, s => s
  | n + 1, s => if s.allocator.triggers = 0 then s else takeTriggers n (allocationEvent (takeTrigger s))

def settle (s : State) : State := takeTriggers (s.allocator.triggers + s.store.errors.length) s

/-- An operation of a block: its reads, with the reactions to the damage they find as events of their own, then the
operation, and the triggers each of the two hands over (0-5, R167, R181). -/
def operation (reads : List Thing) (body : State → State) (s : State) : State := settle (body (settle (readAll reads s)))

end Sys2Proof.Machine
end

