-- ==== Sys2Proof/Machine/Link.lean ====
section
/-! DEFINITION. The Link Unit's part in every request: which frames are taken (R174, R175, R178), the refusal at
decoding (R179), the rights check of consumer requests (R180), and the response formed when the owning block and the
allocation events that follow have finished (R181). -/

namespace Sys2Proof.Machine

/-- The outcome of a command. -/
abbrev Out := Host.Outcome State Fault Refusal

/-- A frame on a party link is taken: the part runs and the port is free (R174, R175, R178). -/
def takes (s : State) (p : Party) : Bool := s.power.running && !portBusy s p

/-- A response takes the port of its party (R178). -/
def respond (p : Party) (code : Nat) (status : Status) (fields : List Field) (s : State) : State :=
  setPort p (some { code := code, status := status, fields := fields }) s

/-- A request handed to its owning block: its reads, on whose reactions it is judged, its own event, and the response
formed after the allocation events that follow (R167, R181). `answer` gives status and fields from the state judged and
the state reached. -/
def serve (p : Party) (code : Nat) (reads : List Thing) (body : State → State)
    (answer : State → State → Status × List Field) (s : State) : State :=
  let judged := settle (readAll reads s)
  let after := settle (body judged)
  respond p code (answer judged after).1 (answer judged after).2 after

/-- The fields of a request that the Link Unit refuses: the entry count for SCHEDULE and the party's cursor for CURSOR, none
for any other (R104, R192, log 36). -/
def refusalFields (code : Nat) (p : Party) (s : State) : List Field :=
  if code = codeSchedule then [.u32 s.exports.schedule.length]
  else if code = codeCursor then [.u32 s.settlement.cursors[partyIndex p]]
  else []

/-- The words that these fields are taken from (R166). -/
def refusalReads (code : Nat) (p : Party) (s : State) : List Thing :=
  if code = codeSchedule then scheduleReads s
  else if code = codeCursor then
    .cursor p :: (if s.settlement.archive.isEmpty then [.nextRecord] else [])
  else []

/-- A request is refused by the Link Unit: its fields, where it has any, are read through the check, and nothing else
happens (R166, R179, R180, R192). -/
def refuse (p : Party) (code : Nat) (status : Status) (s : State) : State :=
  let reads := refusalReads code p s
  let checked := if reads.isEmpty then s else settle (readAll reads s)
  respond p code status (refusalFields code p checked) checked

/-- A request frame: without effect where it is not taken, answered OUT_OF_RANGE where it does not decode, handed on
otherwise (R178, R179). -/
def request (f : Frame) (code length : Nat) (decodes : Bool) (run : State → State) (s : State) : Out :=
  if takes s f.party then
    if f.length = length ∧ decodes = true then .next (run s)
    else .next (refuse f.party code .outOfRange s)
  else .next s

/-- A request answered DONE or refused by one status, with the same fields in both cases, whose effect is `body` where
the status is not a refusal. -/
def judged (status : State → Status) (body : State → State) (s : State) : State :=
  if isRefusing (status s) then s else body s

/-! ## Consumer requests (R76, R180) -/

/-- A consumer's state as a response carries it (R76). -/
def stateField (s : State) (c : Fin 8) : Field := .u8 (consumerStateCode (consumer s c).state)

/-- A request that names a consumer, from its owner in force (R180). -/
def ownerRequest (f : Frame) (code : Nat) (c : Fin 8) (reads : List Thing) (body : State → State)
    (answer : State → State → Status × List Field) (s : State) : State :=
  let s := settle (readAll [.contract (.consumer c cOwner)] s)
  if ownerOf s c = f.party then serve f.party code reads body answer s
  else respond f.party code .notOwner [stateField s c] s

/-- The consumer of a number, where it is 0 to 7 (R76). -/
def slotOf (c : Nat) : Fin 8 := ⟨c % 8, by omega⟩

end Sys2Proof.Machine
end

