-- ==== Sys2Proof/Machine/Notices.lean ====
section
/-! DEFINITION. The Link Unit's own commands: MASK (R187), NOTICE (R188), frames that no block receives (R177 to R179),
and the end of a response (R178). -/

namespace Sys2Proof.Machine

/-! ## MASK (R187) -/

/-- The mask that a set of class flags gives: less classes 0 and 1 (R187). -/
def maskOf (classes : Nat) : Vector Bool 10 := Vector.ofFn fun k => 2 ≤ k.val && classes.testBit k

def setMask (p : Party) (m : Vector Bool 10) (s : State) : State :=
  refreshAttn p { s with links := { s.links with masks := s.links.masks.set (partyIndex p) m } }

/-- MASK: a bit beyond class 9 is refused at decoding (R179). DONE carries the effective mask. -/
def execMask (f : Frame) (classes : Nat) (s : State) : Out :=
  request f codeMask lenMask (classes < 1024)
    (fun s => serve f.party codeMask [] (setMask f.party (maskOf classes))
      (fun _ after => (.done, [.u16 (natOfFlags after.links.masks[partyIndex f.party].toList)])) s) s

/-! ## NOTICE (R188) -/

/-- The lowest-numbered class that is pending and not masked for a party (R188). -/
def noticeClass (s : State) (p : Party) : Option (Fin 10) :=
  (List.finRange 10).find? fun k =>
    (s.links.notices[partyIndex p])[k].pending && !(s.links.masks[partyIndex p])[k]

/-- The record of the class returned is cleared, and ATTN follows (R188, R189). -/
def noticeBody (p : Party) (s : State) : State :=
  match noticeClass s p with
  | none => s
  | some k => refreshAttn p (setNotice p k clearNotice s)

/-- DONE carries class, severity, count and detail (R188, R192). -/
def noticeAnswer (p : Party) (before _ : State) : Status × List Field :=
  match noticeClass before p with
  | none => (.none, [])
  | some k =>
    let n := (before.links.notices[partyIndex p])[k]
    (.done, [.u8 k, .u8 (severityOf k), .u8 n.count] ++ (match n.detail with | some d => detailFields d | none => []))

/-- NOTICE. -/
def execNotice (f : Frame) (s : State) : Out :=
  request f codeNotice lenBare true (fun s => serve f.party codeNotice [] (noticeBody f.party) (noticeAnswer f.party) s) s

/-! ## Frames that reach no block -/

/-- The status of a request that names no command of Table 10-6-2: UNKNOWN for an unknown code, OUT_OF_RANGE for a known
one whose selecting field holds no member of its set (R179). -/
def unknownStatus (code : Nat) : Status := if knownCodes.contains code then .outOfRange else .unknown

/-- UNKNOWN_REQUEST (R179, R192). -/
def execUnknownRequest (f : Frame) (code _selector : Nat) (s : State) : Out :=
  if takes s f.party then .next (refuse f.party code (unknownStatus code) s) else .next s

/-- BAD_FRAME: discarded without a response or an effect (R177). -/
def execBadFrame (_ : Party) (_ : RawFrame) (s : State) : Out := .next s

/-- BUSY_PORT_FRAME: discarded without a response or an effect, good or bad (R178). -/
def execBusyPortFrame (_ : Party) (_ : RawFrame) (s : State) : Out := .next s

/-- RESPONSE_SENT: the port becomes free (R178). -/
def execResponseSent (p : Party) (s : State) : Out := .next (setPort p none s)

end Sys2Proof.Machine
end

