-- ==== Sys2Proof/Machine/Holder.lean ====
section
/-! DEFINITION. The Holder Supervisor (chapter 3): the band set in use, the evaluation of the band on a valid level, and
the band change. -/

namespace Sys2Proof.Machine

/-- The four thresholds and the hysteresis (3-1). -/
structure BandSet where
  tLL        : Int
  tL         : Int
  tH         : Int
  tHH        : Int
  hysteresis : Int
  deriving DecidableEq, Repr

/-- The order rule (3-1, R121). -/
def BandSet.ordered (b : BandSet) : Bool :=
  b.tLL + b.hysteresis < b.tL && b.tL + b.hysteresis < b.tH && b.tH + b.hysteresis < b.tHH

/-- The band set that a contract holds (Table 3-1-1). -/
def bandSetOf (k : Contract) : BandSet :=
  { tLL := readItem k (.holder hTLL), tL := readItem k (.holder hTL), tH := readItem k (.holder hTH)
    tHH := readItem k (.holder hTHH), hysteresis := readItem k (.holder hHysteresis) }

/-- The band set after cold start (R41). -/
def coldBandSet : BandSet := bandSetOf coldContract

/-- The band set in force is the one in use (R41). -/
def bandSetInForce (s : State) : Bool := (bandSetOf s.contracts.contract).ordered

/-- The band set in use: the one in force where it satisfies the order rule, the one after cold start otherwise
(R41). DESIGN CHOICE (log 38): R41 lets the set in force return at the first evaluation that finds the order rule met, and
here it is in use, for QUERY too, from the change that meets it. -/
def bandSetInUse (s : State) : BandSet := if bandSetInForce s then bandSetOf s.contracts.contract else coldBandSet

/-- The band of a level (R38). -/
def bandOf (b : BandSet) (level : Int) : Band :=
  if level < b.tLL then .lowLow
  else if level < b.tL then .low
  else if level < b.tH then .normal
  else if level < b.tHH then .high
  else .highHigh

/-- The band after an evaluation: it rises to band(L), falls to band(L + hysteresis), or stays (R39). -/
def nextBand (b : BandSet) (now : Band) (level : Int) : Band :=
  if bandCode now < bandCode (bandOf b level) then bandOf b level
  else if bandCode (bandOf b (level + b.hysteresis)) < bandCode now then bandOf b (level + b.hysteresis)
  else now

/-- The flare demand is credited and set to 0, and FLARE_EN is deasserted (R46). -/
def zeroFlare (s : State) : State := setFlare 0 (creditFlare s)

/-- A band change, in the order of R42. -/
def changeBand (new : Band) (s : State) : State :=
  let moved := { s with band := new }
  let dark := if s.band = .highHigh then zeroFlare moved else moved
  trigger (raiseNotice allParties clsHolder (.holder s.band new) dark)

/-- The evaluation of the band on a valid level frame (R39). -/
def evaluateBand (level : Int) (s : State) : State :=
  let new := nextBand (bandSetInUse s) s.band level
  if new = s.band then s else changeBand new s

/-- The words that an evaluation of the band reads (R41), with the accumulator that a flare credit adds to. -/
def bandReads : List Thing :=
  [hTLL, hTL, hTH, hTHH, hHysteresis].map (fun k => .contract (.holder k)) ++ [.openRecord 47]

end Sys2Proof.Machine
end

