-- ==== Sys2Proof/Machine/Agreement.lean ====
section
/-! DEFINITION. The rules of the contract's change (chapter 7): the consistency rules, the concurrence sets, and the
operations on the proposal table that requests, expiries and boundaries share. -/

namespace Sys2Proof.Machine

/-! ## Consistency (R121) -/

/-- The floor rule of a consumer. -/
def floorRule (k : Contract) (c : Fin 8) : Bool :=
  readItem k (.consumer c cFloor) ≤ readItem k (.consumer c cCeiling)

/-- The export-link rule: at most one consumer has the item set. -/
def linkRule (k : Contract) : Bool :=
  ((List.finRange 8).filter fun c => readItem k (.consumer c cLinked) == 1).length ≤ 1

/-- The range rule of a sample channel. -/
def rangeRule (k : Contract) (ch : Fin 22) : Bool := readItem k (.rangeLow ch) < readItem k (.rangeHigh ch)

/-- The rule that a changed item enters, if it enters one, holds (R121). -/
def ruleOf (k : Contract) : Item → Bool
  | .consumer c i => if i = cFloor ∨ i = cCeiling then floorRule k c else if i = cLinked then linkRule k else true
  | .holder i => if i ≤ hHysteresis then (bandSetOf k).ordered else true
  | .rangeLow ch => rangeRule k ch
  | .rangeHigh ch => rangeRule k ch
  | _ => true

/-- A contract with changes in place. -/
def withChanges (k : Contract) (changes : List (Item × Int)) : Contract :=
  changes.foldl (fun k ch => writeItem k ch.1 ch.2) k

/-- Changes are consistent against a base when every rule they bring in holds with them in place (R121). -/
def consistent (base : Contract) (changes : List (Item × Int)) : Bool :=
  changes.all fun ch => ruleOf (withChanges base changes) ch.1

/-- The items held in force among those that an entry carries. -/
def heldItems (items : List (ItemRef × Int)) : List (Item × Int) :=
  items.filterMap fun e => match e.1 with | .item i => some (i, e.2) | _ => none

/-- The projected contract: the in-force values with every STAGED entry's values in place (R121). -/
def projected (s : State) : Contract :=
  withChanges s.contracts.contract ((s.contracts.proposals.filter (·.staged)).flatMap fun e => heldItems e.items)

/-! ## Concurrence sets (R119) -/

/-- The owner set of a consumer under a contract. -/
def ownerSet (k : Contract) (c : Fin 8) : PartySet := withWorks (partyOfCode (readItem k (.consumer c cOwner)))

/-- The set whose agreement a change of a consumer's item needs under a contract (Table 7-1-1, R119). DESIGN CHOICE (log 4): the
hard ceiling has none in Table 7-1-1, and its QUERY returns the empty set. -/
def consumerSet (k : Contract) (c : Fin 8) (i : Fin 23) : PartySet :=
  if i = cOwner then allParties
  else if i = cHardCeiling then noParties
  else if i = cLinked then addParty (ownerSet k c) .grid
  else if (i = cFloor ∨ i = cCeiling) ∧ readItem k (.consumer c cLinked) = 1 then addParty (ownerSet k c) .grid
  else ownerSet k c

/-- The concurrence set of an item under a contract (Table 7-1-1, R119). -/
def itemSet (k : Contract) : Item → PartySet
  | .consumer c i => consumerSet k c i
  | .source _ _ => onlyParty .works
  | .holder _ => onlyParty .works
  | .allocationPeriod => onlyParty .works
  | .heatPoint _ _ => withWorks .town
  | .heatPrice _ => withWorks .town
  | .gasPrice _ => withWorks .town
  | .bandEntry _ => withWorks .town
  | .exportItem _ => withWorks .grid
  | .intervalLength => allParties
  | .rangeLow _ => allParties
  | .rangeHigh _ => allParties
  | .freshness _ => allParties
  | .mainPressureSubstitute => allParties
  | .mainTemperatureSubstitute => allParties
  | .lineSubstitute _ => allParties
  | .mixedSubstitute => allParties

def refSet (k : Contract) : ItemRef → PartySet
  | .item i => itemSet k i
  | .offset => allParties
  | .lock => allParties

/-- The set of an entry: the union of its items' sets (R119). -/
def entrySet (k : Contract) (items : List (ItemRef × Int)) : PartySet :=
  items.foldl (fun ps e => unionParties ps (refSet k e.1)) noParties

/-! ## The proposal table (7-3) -/

/-- The entry that carries a number. -/
def entryOf (s : State) (number : Nat) : Option Proposal := s.contracts.proposals.find? (·.number == number)

/-- The entry that names an item (R126). -/
def entryNaming (s : State) (r : ItemRef) : Option Proposal :=
  s.contracts.proposals.find? fun e => e.items.any (·.1 == r)

/-- The number after a proposal number: from 65,535 it goes to 1 (R126). -/
def nextNumber (n : Nat) : Nat := if n < 65535 then n + 1 else 1

/-- The first number from `n` on that no entry of the table carries (R126). The first argument bounds how many are
passed over. -/
def freeNumber (carried : List Nat) : Nat → Nat → Nat
  | 0, n => n
  | k + 1, n => if carried.contains n then freeNumber carried k (nextNumber n) else n

/-- The number that a new entry takes (R126). -/
def numberToGive (s : State) : Nat :=
  freeNumber (s.contracts.proposals.map (·.number)) s.contracts.proposals.length s.contracts.nextProposal

/-- A PROPOSAL notice for the proposer and the parties of an entry's set (R132). -/
def noticeProposal (e : Proposal) (o : Outcome) (s : State) : State :=
  raiseNotice (addParty e.parties e.proposer) clsProposal (.proposal e.number o) s

/-- An entry leaves the table, and the rest keep their order (R126). -/
def removeEntry (number : Nat) (s : State) : State :=
  setProposals (s.contracts.proposals.filter (·.number != number)) s

/-- An entry leaves the table with a notice (R129, R130). -/
def endEntry (e : Proposal) (o : Outcome) (s : State) : State := noticeProposal e o (removeEntry e.number s)

/-- An entry of the table is changed. -/
def changeEntry (number : Nat) (f : Proposal → Proposal) (s : State) : State :=
  setProposals (s.contracts.proposals.map fun e => if e.number == number then f e else e) s

/-- An entry becomes STAGED (R128). -/
def stagedEntry (e : Proposal) : Proposal := { e with staged := true, expiry := none, deferred := false }

/-- A completed lock entry (R136). -/
def lockContract (e : Proposal) (s : State) : State :=
  markContractChanged (endEntry e .applied (bumpRevision (setLocked true s)))

/-- The words that a lock's effect reads. -/
def lockReads : List Thing := [.commissioning, .revision]

end Sys2Proof.Machine
end

