-- ==== Sys2Proof/Machine/Boundary.lean ====
section
/-! DEFINITION. The settlement boundary, one operation of the Settlement Unit with the parts of R151 in their order: the
closing of the open record into the archive, the application of the STAGED entries, the export latch, and the opening of
the new record. -/

namespace Sys2Proof.Machine

/-- The boundaries at which a record opens (R133): the end of a regular interval, a clock step to a new time, the first
setting of the clock, and the resolution of an outage. -/
inductive Boundary where
  | regular
  | step (time : Nat)
  | first (time : Nat)
  | outage
  deriving DecidableEq, Repr

/-- The device time, 0 while UNSET (R142). -/
def deviceTime (s : State) : Nat := s.settlement.clock.getD 0

/-- The current regular start of the present device time (R147). -/
def presentStart (s : State) : Nat := regularStart (intervalLength s) (deviceTime s)

/-! ## Closing (parts 2 to 5) -/

/-- The end of the record that a boundary closes (Table 8-2-1). DEDUCED (log 39): a regular boundary closes at the record's
end also where damage has put that end before the present time, at which the next record opens (R150), so that the two do
not join. -/
def closingTime (k : Boundary) (s : State) (o : OpenRecord) : Nat :=
  match k with
  | .regular => o.stop
  | .step _ => deviceTime s
  | .first _ => deviceTime s
  | .outage => presentStart s

/-- The interval energy of a channel: closing total less opening total, modulo 10^13 (R152). -/
def intervalEnergy (s : State) (o : OpenRecord) (ch : Fin 16) : Nat :=
  elapsedMod Config.totalModulus o.opening[ch] s.metering.totals[ch]

/-- The TOWN heat quantity: the heat of H0 to H2 (R152). -/
def townHeat (s : State) (o : OpenRecord) : Nat := intervalEnergy s o 12 + intervalEnergy s o 13 + intervalEnergy s o 14

/-- The TOWN gas quantity: the gas of the consumers whose owner in force is TOWN (R152). -/
def townGas (s : State) (o : OpenRecord) : Nat :=
  ((List.finRange 8).map fun c => if ownerOf s c = .town then intervalEnergy s o (drawChannel c) else 0).sum

/-- The amount that an account bills for a quantity at a price (R153). -/
def billed (a : Account) (quantity price : Nat) : Nat := (a.remainder + quantity * price) / 1000000

/-- An account after it is billed (R153). -/
def billAccount (a : Account) (quantity price : Nat) : Account :=
  { amount := a.amount + billed a quantity price, remainder := (a.remainder + quantity * price) % 1000000 }

/-- The length of the record that a boundary closes (R112, Table 8-2-1). DESIGN CHOICE (log 40): it is a free value where the
start, which damage after a backward step can put past the present time (R162), lies after the end. -/
def closingLength (k : Boundary) (s : State) (o : OpenRecord) : Nat := spanOf o.start (closingTime k s o)

/-- The scheduled energy of a length in s (R112). -/
def scheduledEnergy (kw length : Nat) : Nat := kw * length * 10 / 36

/-- The archive record of a closing record (R112, R113, R152 to R154). -/
def archiveRecord (k : Boundary) (s : State) (o : OpenRecord) : ArchiveRecord :=
  { number := o.number, start := o.start, length := closingLength k s o, band := o.band, revision := o.revision
    outage := o.outage || k = .outage
    clockStep := o.clockStep || (match k with | .step _ => true | _ => false)
    short := o.short, commissioning := o.commissioning, contractChanged := o.contractChanged
    contractDamaged := o.contractDamaged, estimatedGas := o.estimatedGas, estimatedHeat := o.estimatedHeat
    energies := Vector.ofFn (intervalEnergy s o)
    latch := { kw := scheduledExport s, source := scheduledSource s }
    scheduled := scheduledEnergy (scheduledExport s) (closingLength k s o)
    deviation := (intervalEnergy s o 15 : Int) - scheduledEnergy (scheduledExport s) (closingLength k s o)
    reverse := o.reverse, flare := o.flare, heatPrice := o.heatPrice, gasPrice := o.gasPrice
    townHeat := townHeat s o, townHeatAmount := billed s.settlement.heatAccount (townHeat s o) o.heatPrice
    townGas := townGas s o, townGasAmount := billed s.settlement.gasAccount (townGas s o) o.gasPrice
    heatAccount := billAccount s.settlement.heatAccount (townHeat s o) o.heatPrice
    gasAccount := billAccount s.settlement.gasAccount (townGas s o) o.gasPrice
    closing := s.metering.totals }

/-- A party's cursor below the oldest record moves to it, with the gap mark set (R155). -/
def moveCursor (s : State) (p : Party) : State :=
  if s.settlement.cursors[partyIndex p] < oldestNumber s then setGap p true (setCursor p (oldestNumber s) s) else s

/-- What a record that has joined the ring does to a party's cursor (R155). DEDUCED (log 22): one that joins an empty ring,
where every cursor stands at newest plus one, is the record that each cursor then finds (R156). -/
def passRecord (r : ArchiveRecord) (wasEmpty : Bool) (s : State) (p : Party) : State :=
  if wasEmpty then setCursor p r.number s else moveCursor s p

/-- A record joins the ring, in the place of the oldest where the ring is full; its place's known-damaged mark is
cleared, and the cursors follow (R155, R169). -/
def writeArchive (r : ArchiveRecord) (s : State) : State :=
  let kept := if s.settlement.archive.length < Config.archiveCapacity then s.settlement.archive
    else s.settlement.archive.drop 1
  let joined := setMark (placeOf r.number) false (wrote (.archive (placeOf r.number))
    { s with settlement := { s.settlement with archive := kept ++ [r] } })
  [Party.works, .town, .grid].foldl (passRecord r s.settlement.archive.isEmpty) joined

/-- Parts 2 to 5 of a boundary: figures, accounts and archive record of the closing record (R151). -/
def closeRecord (k : Boundary) (o : OpenRecord) (s : State) : State :=
  let r := archiveRecord k s o
  writeArchive r (setGasAccount r.gasAccount (setHeatAccount r.heatAccount s))

/-! ## Application (part 6) -/

/-- An entry carries a structural item of a consumer that is not OFF (R134). -/
def mustWait (s : State) (items : List (Item × Int)) : Bool :=
  items.any fun e => isStructural e.1 &&
    match itemConsumer e.1 with
    | some c => (consumer s c).state != .off
    | none => false

/-- What the application has done so far: the state, the entries that stay, and whether one has been applied. -/
structure Applying where
  state   : State
  kept    : List Proposal
  applied : Bool

/-- One entry of the table is taken: kept while OPEN, deferred, discarded or applied (R134). The in-force contract is
the running base. -/
def applyEntry (x : Applying) (e : Proposal) : Applying :=
  if !e.staged then { x with kept := x.kept ++ [e] }
  else if mustWait x.state (heldItems e.items) then { x with kept := x.kept ++ [{ e with deferred := true }] }
  else if !consistent x.state.contracts.contract (heldItems e.items) then
    { x with state := noticeProposal e .discarded x.state }
  else
    { x with
      state := noticeProposal e .applied
        (clearDamageMarks (heldItems e.items) (putInForce (heldItems e.items) x.state))
      applied := true }

/-- The STAGED entries are applied in list order (R134). -/
def applyEntries (s : State) : Applying :=
  s.contracts.proposals.foldl applyEntry { state := s, kept := [], applied := false }

/-- Part 6: the entries are taken, the rest stay in the table, and the revision increases once where one was applied
(R134, R135). -/
def applyStaged (s : State) : State :=
  let x := applyEntries s
  let s := setProposals x.kept x.state
  if x.applied then bumpRevision s else s

/-! ## The latch (part 7) -/

/-- Entries not aligned to a new interval length leave the list (R109). -/
def removeUnaligned (old : Nat) (s : State) : State :=
  if intervalLength s = old then s
  else setSchedule (s.exports.schedule.filter fun e => e.start % intervalLength s == 0) s

/-- The latch for an interval whose regular start is `start`: its entry, or the default export in force (R108). -/
def latchFor (s : State) (start : Nat) : Latch :=
  match s.exports.schedule.find? (·.start == start) with
  | some e => { kw := e.kw, source := .entry }
  | none => { kw := itemNat s (.exportItem xDefaultExport), source := .default }

/-- The latch is made, the entries at its start or before it leave the list, and a grant above the new demand is cut
(R108, R110). -/
def makeLatch (start : Nat) (s : State) : State :=
  cutLinked (setSchedule (s.exports.schedule.filter fun e => start < e.start) (setLatch (some (latchFor s start)) s))

/-! ## Opening (part 8) -/

/-- The record that a boundary opens at `start` (R147, R148, R150). -/
def newRecord (k : Boundary) (start : Nat) (changed : Bool) (s : State) : OpenRecord :=
  { number := s.settlement.nextRecord, start := start, stop := recordEnd s start, band := bandAt s start
    heatPrice := heatPriceOf s (bandAt s start), gasPrice := gasPriceOf s (bandAt s start)
    revision := s.contracts.revision, opening := s.metering.totals
    estimatedGas := Vector.replicate 12 false, estimatedHeat := Vector.replicate 3 false
    reverse := Vector.replicate 3 0, short := start % intervalLength s != 0
    clockStep := (match k with | .step _ => true | _ => false), outage := k = .outage
    commissioning := !s.contracts.locked, contractChanged := changed, contractDamaged := false, flare := 0
    trimmed := false }

/-- Part 8: the record takes the next record number, which increases by 1 (R150), the cursors of an empty ring with it
(R155). -/
def openRecord (k : Boundary) (start : Nat) (changed : Bool) (s : State) : State :=
  setNextRecord (s.settlement.nextRecord + 1)
    (wroteAll ((List.finRange 49).map .openRecord)
      { s with settlement := { s.settlement with openRecord := some (newRecord k start changed s) } })

/-! ## The operation -/

/-- The clock is set (R142 to R144, R146). Past its greatest value its value is open (R142, log 7). -/
def setClock (t : Nat) (s : State) : State :=
  if t < Config.clockModulus then { s with settlement := { s.settlement with clock := some t } }
  else useFree { s with settlement := { s.settlement with
    clock := some (Config.clockBeyond s.freeIndex % Config.clockModulus) } }

/-- The part of a boundary that sets the clock, between parts 5 and 6 (R146). -/
def moveClock (k : Boundary) (s : State) : State :=
  match k with
  | .step t => setClock t s
  | .first t => { setClock t s with settlement := { (setClock t s).settlement with clockMillis := 0 } }
  | .regular => s
  | .outage => s

/-- The start of the record that a boundary opens: the present device time, or the current regular start as it was
before application after an outage (R150, R159). DEDUCED (log 39): it is the present device time also where the record before
it has been closed at an earlier end. -/
def openingStart (k : Boundary) (before : State) (s : State) : Nat :=
  match k with
  | .outage => presentStart before
  | _ => deviceTime s

/-- Part 9: the recovery counts return to 0, and idle AUTO delays start (R98). -/
def resetRecovery (s : State) : State :=
  (List.finRange 8).foldl (fun s c => startRecovery c (setConsumer c { consumer s c with recoveryCount := 0 } s)) s

/-- Parts 6 to 9: application, latch, opening, recovery counts, from the state with the old record closed. -/
def openInterval (k : Boundary) (s : State) : State :=
  let moved := moveClock k s
  let x := applyStaged moved
  let start := openingStart k s x
  let latched := makeLatch (regularStart (intervalLength x) start) (removeUnaligned (intervalLength moved) x)
  let opened := openRecord k start (applyEntries moved).applied latched
  if k = .outage then opened else resetRecovery opened

/-- Part 1: the flare credit, which the closing after an outage does not make; at the first opening only the credit
point moves (R65, R143). -/
def boundaryCredit (k : Boundary) (s : State) : State := if k = .outage then s else creditFlare s

/-- A boundary, taken whole (R151). -/
def boundary (k : Boundary) (s : State) : State :=
  let s := boundaryCredit k s
  match s.settlement.openRecord with
  | none => openInterval k s
  | some o => raiseNotice allParties clsSettlement (.settlement o.number) (openInterval k (closeRecord k o s))

/-! ## What a boundary reads -/

/-- The words that the application of an entry reads. -/
def entryReads (e : Proposal) : List Thing := (heldItems e.items).flatMap fun i => changeReads i.1

/-- The words that the closing of the open record reads, where one is open. -/
def closingReads (s : State) : List Thing :=
  if s.settlement.openRecord.isSome then
    (List.finRange 49).map .openRecord ++
      [.heatAccount, .gasAccount, .cursor .works, .cursor .town, .cursor .grid, .marks]
  else []

/-- The band table and the two price tables: the new record takes its band and prices from them as the application leaves
them, so every word that it may take is read before (R148, R166, log 17). -/
def tariffReads : List Thing :=
  (List.finRange 24).map (fun h => .contract (.bandEntry h)) ++ (List.finRange 4).map (fun b => .contract (.heatPrice b)) ++
    (List.finRange 4).map (fun b => .contract (.gasPrice b))

/-- The words that a boundary reads: the totals, what the closing reads, the proposal table and the schedule list, and the
items and counts that the new record takes (R151). -/
def boundaryReads (s : State) : List Thing :=
  List.flatten
    [(List.finRange 16).map .totals,
     closingReads s,
     tableReads s,
     scheduleReads s,
     [.latch, .contract .intervalLength, .commissioning, .revision, .nextRecord],
     tariffReads,
     (List.finRange 8).flatMap (fun c => demandReads c ++ tripReads c),
     (s.contracts.proposals.filter (·.staged)).flatMap entryReads]

end Sys2Proof.Machine
end

