-- ==== Sys2Proof/Machine/Clock.lean ====
section
/-! DEFINITION. The device clock's commands: WRITE CLOCK (R143), TRIM (R144), the regular boundary (R147), and the clock
step that both WRITE CLOCK and a completed proposal take (R146). -/

namespace Sys2Proof.Machine

/-- A clock step to a new time: one boundary operation (R146). -/
def stepClock (t : Nat) (s : State) : State := boundary (.step t) s

/-! ## WRITE CLOCK (R143) -/

def writeClockStatus (s : State) : Status := if s.contracts.locked then .locked else .done

/-- The kind of boundary that WRITE CLOCK takes: the first opening, or a step of a RUNNING clock. -/
def writeClockKind (time : Nat) (s : State) : Boundary := if s.settlement.clock = none then .first time else .step time

/-- DONE carries the device time after the request (R143). -/
def writeClockAnswer (before after : State) : Status × List Field :=
  match writeClockStatus before with
  | .done => (.done, [.u48 (deviceTime after)])
  | st => (st, [])

/-- WRITE CLOCK. A time beyond 4,294,967,295 s is one that no frame carries. -/
def execWriteClock (f : Frame) (time : Nat) (s : State) : Out :=
  request f codeWriteClock lenWriteClock (time < 4294967296)
    (fun s =>
      let s := settle (readAll [.commissioning] s)
      serve f.party codeWriteClock (if s.contracts.locked then [] else boundaryReads s)
        (judged writeClockStatus fun s => boundary (writeClockKind time s) s) writeClockAnswer s) s

/-! ## TRIM (R144) -/

/-- Where a trim moves the clock, before the clamp. -/
def trimTarget (d : Int) (s : State) : Int := (deviceTime s : Int) + d

/-- The edges of the open record, between which a trim keeps the clock: its start, and its end less 1 s (R144). -/
def trimLimits (s : State) : Nat × Nat :=
  match s.settlement.openRecord with
  | some o => (o.start, o.stop - 1)
  | none => (deviceTime s, deviceTime s)

def trimmedAlready (s : State) : Bool :=
  match s.settlement.openRecord with
  | some o => o.trimmed
  | none => false

def trimStatus (d : Int) (s : State) : Status :=
  if s.settlement.clock = none then .clockUnset
  else if d = 0 ∨ d < -20 ∨ 20 < d then .outOfRange
  else if trimmedAlready s then .wrongState
  else if trimTarget d s < (trimLimits s).1 ∨ ((trimLimits s).2 : Int) < trimTarget d s then .clamped
  else .done

/-- The clock after a trim: moved by `d`, to the start where that lies before it, to the end less 1 s where it lies at
or after the end (R144). -/
def trimmedTime (d : Int) (s : State) : Nat :=
  if trimTarget d s < (trimLimits s).1 then (trimLimits s).1
  else if ((trimLimits s).2 : Int) < trimTarget d s then (trimLimits s).2
  else (trimTarget d s).toNat

/-- The clock is moved and the trim mark set (R144). DESIGN CHOICE (log 7): a trim past the clock's greatest value leaves it at
an open one (R142). -/
def trimBody (d : Int) (s : State) : State := onOpen 48 (fun o => { o with trimmed := true }) (setClock (trimmedTime d s) s)

/-- TRIM. -/
def execTrim (f : Frame) (d : Int) (s : State) : Out :=
  request f codeTrim lenTrim true
    (fun s => serve f.party codeTrim [.openRecord 1, .openRecord 2, .openRecord 48] (judged (trimStatus d) (trimBody d))
      (fun before _ => (trimStatus d before, [])) s) s

/-! ## The regular boundary (R147, R151) -/

/-- The clock has reached the open record's end (R147). DESIGN CHOICE (log 35): finding so takes the end as it stands, without a
checked read. -/
def boundaryDue (s : State) : Bool :=
  match s.settlement.clock, s.settlement.openRecord with
  | some t, some o => o.stop ≤ t
  | _, _ => false

/-- A regular boundary that still falls is taken. DEDUCED (log 39): one whose own reads have replaced the record's start or
end, so that the new end lies past the clock, does not fall (R147, R162). -/
def takeBoundary (s : State) : State := if boundaryDue s then boundary .regular s else s

/-- REGULAR_BOUNDARY: without effect before the clock reaches the open record's end. -/
def execRegularBoundary (s : State) : Out :=
  if s.power.running && boundaryDue s then .next (operation (boundaryReads s) takeBoundary s) else .next s

end Sys2Proof.Machine
end

