-- ==== Sys2Proof/Machine/Retained.lean ====
section
/-! DEFINITION. The retained store on its own: the scrub sweep (R171), the decay of a word (R165), the loss of the backup
supply (R175), and the values that a cold start writes (R173). -/

namespace Sys2Proof.Machine

/-! ## The sweep (R171) -/

/-- A sweep is completed: the count rises, and the next one begins at the first word (R171). -/
def completeSweep (s : State) : State :=
  let s := readAll [.report 3] s
  wrote (.report 3) { s with store := { s.store with
    report := { s.store.report with sweeps := countUp 65535 s.store.report.sweeps }, sweepPos := 0
    sweepStart := s.store.sweepBase } }

/-- The word at the sweep's position is read, and the position moves on (R171). -/
def sweepWord (s : State) : State :=
  let s := readWord s.store.sweepPos s
  if s.store.sweepPos + 1 < Config.storeWords then { s with store := { s.store with sweepPos := s.store.sweepPos + 1 } }
  else completeSweep s

/-- SCRUB_READ (R171). -/
def execScrubRead (s : State) : Out := if s.power.running then .next (settle (sweepWord s)) else .next s

/-! ## Decay (R165) -/

/-- STORE_WORD_ERROR: the word gains a bit in error, to be found by a later read (R165, R171). -/
def execStoreWordError (w : Fin 16384) (s : State) : Out := .next (setErrors (addError w s.store.errors) s)

/-! ## The values after cold start, and the loss of the store -/

/-- The store with every region at its value after cold start, every word written but the signature's (R173). -/
def initialiseStore (s : State) : State :=
  { s with
    metering := coldMetering
    supervisor := { s.supervisor with
      consumers := Vector.ofFn fun c => { consumer s c with nomination := 0, damageMark := false } }
    exports := { schedule := [], latch := none }
    contracts := { coldContracts with base := s.contracts.base, baseMillis := s.contracts.baseMillis }
    settlement := coldSettlement
    store := { s.store with
      errors := s.store.errors.filter fun e =>
        match thingAt s.store.layout e.1 with | some (.signature _) => true | _ => false
      report := coldReport, knownDamaged := Vector.replicate 96 false } }

/-- The four signature words are written with the pattern (R172, R173). -/
def writeSignature (s : State) : State :=
  wroteAll ((List.finRange 4).map .signature) { s with store := { s.store with signature := Vector.replicate 4 true } }

/-- The error that a word of the lost store reads with, if any (log 24). -/
def lostError (free w : Nat) : Option WordError :=
  match Config.lostBits free w with
  | 0 => none
  | 1 => some .oneBit
  | _ => some .uncorrectable

/-- The words of the lost store that read with an error, in ascending order of position. -/
def lostErrors (free : Nat) : List (Nat × WordError) :=
  (List.range Config.storeWords).filterMap fun w => (lostError free w).map fun e => (w, e)

/-- Neither supply is present: the store and the device clock are lost, and the signature with them (R165, R175). Of what
the store then holds, the cold start that follows reads the signature, which does not hold the pattern, and the report's
counts, and any word may read with an error (log 24). -/
def loseStore (s : State) : State :=
  useFree { initialiseStore s with store := { (initialiseStore s).store with
    signature := Vector.replicate 4 false, errors := lostErrors s.freeIndex } }

/-- The store is lost when neither supply keeps it (R165, R175). -/
def keepOrLose (s : State) : State := if s.power.mainSupply || s.power.backupSupply then s else loseStore s

/-- BACKUP_SUPPLY_LOSS (R175). -/
def execBackupSupplyLoss (s : State) : Out := .next (keepOrLose { s with power := { s.power with backupSupply := false } })

end Sys2Proof.Machine
end

