-- ==== Sys2Proof/Machine/Power.lean ====
section
/-! DEFINITION. The start-up operation (R174) with the choice of the restart kind (R172), the blocks' states after it, and
the resolution of an outage (R158 to R160); the fall of the main supply (R175) and the assertion of RESET (R194). -/

namespace Sys2Proof.Machine

/-! ## Stopping (R175, R193, R194) -/

/-- The part stops taking events: every line is driven low or released, and a response in transmission is cut off
(R175, R178, R193). -/
def stopPart (s : State) : State :=
  { s with
    power := { s.power with running := false }, lines := lowLines
    links := { s.links with ports := Vector.replicate 3 none } }

/-- SUPPLY_FALL (R175, R193). -/
def execSupplyFall (s : State) : Out :=
  .next (keepOrLose { stopPart s with power := { (stopPart s).power with mainSupply := false } })

/-- RESET is held: the part is stopped (R194). -/
def holdReset (s : State) : State := { stopPart s with power := { (stopPart s).power with resetHeld := true } }

/-- RESET_ASSERTION: a low pulse of 1 ms is taken, one shorter than 100 µs is ignored, and between the two it may or may
not be taken (R194). -/
def execResetAssertion (low : Nat) (s : State) : Out :=
  if 1000 ≤ low then .next (holdReset s)
  else if low < 100 then .next s
  else if Config.resetTaken s.freeIndex then .next (holdReset (useFree s))
  else .next (useFree s)

/-! ## The choice of the restart kind (R172) -/

/-- The strap as sampled (R194). -/
def strapHigh (s : State) : Strap → Bool
  | .low => false
  | .high => true
  | .unstable => Config.strapReadsHigh s.freeIndex

/-- A strap that changes within its window has used an open value (log 6). -/
def sampled (strap : Strap) (s : State) : State := if strap = .unstable then useFree s else s

/-- A word of a thing reads uncorrectable. -/
def readsDamaged (s : State) (t : Thing) : Bool :=
  (wordsInError t s).any fun w => errorAt s.store.errors w == some .uncorrectable

/-- A signature word reads uncorrectable (R172). -/
def signatureDamaged (s : State) (k : Fin 4) : Bool := readsDamaged s (.signature k)

/-- A signature word reads without an uncorrectable error and holds the pattern (R172). -/
def signatureWordValid (s : State) (k : Fin 4) : Bool := s.store.signature[k] && !signatureDamaged s k

/-- The signature is valid (R172). -/
def signatureValid (s : State) : Bool := (List.finRange 4).all (signatureWordValid s)

/-- The table of R172. -/
def restartKind (s : State) (strap : Strap) : RestartKind :=
  if signatureValid s then (if strapHigh s strap then .unlock else .restart) else .cold

/-! ## The blocks after each restart kind -/

/-- The Consumer Supervisor after every restart kind, with the nominations and damage marks that the store holds
(R101). -/
def freshSupervisor (s : State) : Supervisor :=
  { base := 0, consumers := Vector.ofFn fun c => freshConsumer (consumer s c).nomination (consumer s c).damageMark }

/-- The state of the blocks outside the store after every restart kind (R19, R48, R71, R101, R130, R171, R190), with
the part not yet taking events. DESIGN CHOICE (log 31): no command is the main supply's rise, which is counted here, at the
start-up that follows it, so a BACKUP_SUPPLY_LOSS before that start-up, RESET still being held, loses the store (R165, R194). -/
def freshBlocks (kind : RestartKind) (s : State) : State :=
  { s with
    power := { s.power with running := false, mainSupply := true, resetHeld := false, lastKind := kind }
    field := freshField
    band := .low
    allocator := freshAllocator (itemNat s .allocationPeriod)
    supervisor := freshSupervisor s
    contracts := { s.contracts with base := 0, baseMillis := 0 }
    store := { s.store with sweepPos := 0, sweepBase := 0, sweepStart := 0 }
    links := restartLinks kind
    lines := lowLines }

/-- The words that every start-up reads: the signature, the table, the commissioning state, the period. -/
def startUpReads (s : State) : List Thing :=
  List.flatten
    [(List.finRange 4).map .signature,
     tableReads s,
     [.commissioning, .contract .allocationPeriod]]

/-- The OPEN entries are discarded without a notice (R140). -/
def discardOpen (s : State) : State := setProposals (s.contracts.proposals.filter (·.staged)) s

/-- An unlock restart sets COMMISSIONING (R122, R140). -/
def unlock (kind : RestartKind) (s : State) : State := if kind = .unlock then setLocked false s else s

/-! ## The resolution of an outage (R158 to R160) -/

/-- The clock lies at or past the open record's end. -/
def pastEnd (s : State) : Bool := boundaryDue s

/-- The open record is continued with its OUTAGE mark set (R158). -/
def continueRecord (s : State) : State := onOpen 43 (fun o => { o with outage := true }) s

/-- Outage boundaries are taken until the open record contains the present time (R159). The record opened starts at the
current regular start, so a second one falls only after application has shortened the interval length; each takes an
entry of the table, which bounds their number. DEDUCED (log 39): where the reads of a boundary replace the record's start
or end and the new end lies past the present time, no boundary falls and the record is continued (R158, R162). -/
def outageBoundaries : Nat → State → State
  | 0, s => s
  | n + 1, s =>
    if pastEnd s then
      let s := readAll (boundaryReads s) s
      if pastEnd s then outageBoundaries n (boundary .outage s) else continueRecord s
    else s

/-- The outage is resolved, and an unlock restart marks the open record COMMISSIONING (R158 to R160). DEDUCED (log 41): a record
that the resolution closes does not gain the mark, although the contract is COMMISSIONING before (R149, R174). -/
def resolveOutage (kind : RestartKind) (s : State) : State :=
  let s := readAll (if s.settlement.openRecord.isSome then [.openRecord 2] else []) s
  let resolved := if pastEnd s then outageBoundaries (s.contracts.proposals.length + 2) s else continueRecord s
  if kind = .unlock then onOpen 44 (fun o => { o with commissioning := true }) resolved else resolved

/-! ## The operation (R174) -/

/-- The part begins to take events, and each output follows its owning rule (R174, R193). -/
def beginOperation (s : State) : State :=
  let s := { s with power := { s.power with running := true } }
  let s := (List.finRange 8).foldl (fun s c => refreshValves c s) s
  let s := setFlare s.allocator.result.flareDemand s
  [Party.works, .town, .grid].foldl (fun s p => refreshAttn p s) s

/-- A restart or an unlock restart, from the blocks' fresh states on (R140, R174). DESIGN CHOICE (log 25): the period timer
starts with the period in force before the outage is resolved, so a STAGED period that an outage boundary applies acts
from the next start of the timer (R51). -/
def warmStart (kind : RestartKind) (s : State) : State :=
  let s := freshBlocks kind s
  let s := startPeriod (settle (readAll (startUpReads s) s))
  beginOperation (settle (resolveOutage kind (unlock kind (discardOpen s))))

/-- A signature word as the choice of the restart kind reads it: an error of one bit is corrected, written back and counted
(R166), an uncorrectable one counted with its INTEGRITY occurrence, the word standing until the cold start writes it (R167, R172,
R173). Each count reads the report's own words first, and their damage is met before it (R170). -/
def readSignature (s : State) (k : Fin 4) : State :=
  if signatureDamaged s k then countUncorrectable ⟨10, k⟩ (readAll [.report 1] s)
  else (wordsInError (.signature k) s).foldl (fun s w => countCorrected (readAll [.report 0] (clearWord w s))) s

/-- The four signature words are read, what they raise being recorded after RESTART on the records that the cold start has
cleared (R174, R190). -/
def readSignatures (s : State) : State :=
  (List.finRange 4).foldl readSignature { s with links := restartLinks .cold }

/-- A cold start, with the occurrences that the choice of the restart kind has raised; their counts are initialised with the
rest of the store. One interrupted by a loss of supply before the signature is written leaves the part stopped with the
signature not valid (R173). -/
def coldStart (cut : Bool) (s : State) : State :=
  let r := readSignatures s
  if cut then
    keepOrLose { stopPart (initialiseStore r) with
      power := { (stopPart r).power with mainSupply := false, resetHeld := false } }
  else beginOperation { freshBlocks .cold (writeSignature (initialiseStore r)) with links := r.links }

/-- START_UP_OPERATION (R172 to R174): at power-up or at the end of RESET. A part that runs takes none. -/
def execStartUpOperation (strap : Strap) (cut : Bool) (s : State) : Out :=
  if s.power.running then .next s
  else
    match restartKind s strap with
    | .cold => .next (coldStart cut (sampled strap s))
    | kind => .next (warmStart kind (sampled strap s))

end Sys2Proof.Machine
end

