-- ==== Sys2Proof/Machine/Archives.lean ====
section
/-! DEFINITION. Reading the archive ring: ARCHIVE (R156) and the three choices of CURSOR (R157). -/

namespace Sys2Proof.Machine

def cursorOf (s : State) (p : Party) : Nat := s.settlement.cursors[partyIndex p]

def gapOf (s : State) (p : Party) : Bool := s.settlement.gapMarks[partyIndex p]

/-- The record of a number, where the ring holds it. -/
def recordNumbered (s : State) (n : Nat) : Option ArchiveRecord := s.settlement.archive.find? (·.number == n)

/-- The words that hold a party's place in the ring; the next record number stands for an empty ring (R155). -/
def cursorReads (s : State) (p : Party) : List Thing :=
  [.cursor p, .gapMark p] ++ (if s.settlement.archive.isEmpty then [.nextRecord] else [])

/-! ## ARCHIVE (R156) -/

/-- The record that ARCHIVE reads for a party: the oldest where its gap mark is set, otherwise the one at its cursor. -/
def archiveTarget (s : State) (p : Party) : Option ArchiveRecord :=
  if gapOf s p then s.settlement.archive.head? else recordNumbered s (cursorOf s p)

def archiveStatus (p : Party) (s : State) : Status :=
  match archiveTarget s p with
  | none => .none
  | some r => if knownDamaged s r.number then .damaged else .done

/-- The cursor passes the record read, and the gap mark is clear (R156). -/
def archiveBody (p : Party) (s : State) : State :=
  match archiveTarget s p with
  | none => s
  | some r => setGap p false (setCursor p (r.number + 1) s)

/-- The fields of an archive record, in the order of Table 8-5-1. -/
def recordFields (r : ArchiveRecord) : List Field :=
  List.flatten
    [[.u32 r.number, .u48 r.start, .u32 r.length, .u8 r.band, .u32 r.revision,
       .u32 (markBits r.outage r.clockStep r.short r.commissioning r.contractChanged r.contractDamaged r.estimatedGas
       r.estimatedHeat false)],
     [12, 13, 14, 4, 5, 6, 7, 8, 9, 10, 11, 0, 1, 2, 3, 15].map (fun ch : Fin 16 => .u64 r.energies[ch]),
     [.s32 r.latch.kw, .u8 (latchSourceCode r.latch.source), .u64 r.scheduled, .s64 r.deviation],
     r.reverse.toList.map .u32,
     [.u64 r.flare, .s32 r.heatPrice, .s32 r.gasPrice, .u64 r.townHeat, .u64 r.townHeatAmount, .u64 r.townGas,
       .u64 r.townGasAmount, .u64 r.heatAccount.amount, .u64 r.heatAccount.remainder, .u64 r.gasAccount.amount,
       .u64 r.gasAccount.remainder],
     r.closing.toList.map .u64]

/-- DONE carries the GAP byte and the record, DAMAGED the GAP byte and the record number (R192). -/
def archiveAnswer (p : Party) (before _ : State) : Status × List Field :=
  match archiveTarget before p with
  | none => (.none, [])
  | some r =>
    if knownDamaged before r.number then (.damaged, [flagField (gapOf before p), .u32 r.number])
    else (.done, flagField (gapOf before p) :: recordFields r)

/-- The words of the record that ARCHIVE reads. -/
def targetReads (s : State) (p : Party) : List Thing :=
  match archiveTarget s p with
  | none => []
  | some r => [.archive (placeOf r.number)]

/-- ARCHIVE: the cursor is read first, then the record. -/
def execArchive (f : Frame) (s : State) : Out :=
  request f codeArchive lenBare true
    (fun s =>
      let s := settle (readAll (cursorReads s f.party) s)
      serve f.party codeArchive (targetReads s f.party) (judged (archiveStatus f.party) (archiveBody f.party))
        (archiveAnswer f.party) s) s

/-! ## CURSOR (R157) -/

/-- The cursor goes to a number, and the gap mark is clear. -/
def placeCursor (p : Party) (n : Nat) (s : State) : State := setGap p false (setCursor p n s)

/-- The newest record number, or the next record number where the ring is empty (R157). -/
def newestNumber (s : State) : Nat :=
  match s.settlement.archive.getLast? with
  | some r => r.number
  | none => s.settlement.nextRecord

/-- A number of a record in the ring. -/
def cursorStatus (n : Nat) (s : State) : Status :=
  if !s.settlement.archive.isEmpty && oldestNumber s ≤ n && n ≤ newestNumber s then .done else .notFound

/-- The status and the cursor after the request (R157, R192). -/
def cursorAnswer (p : Party) (status : State → Status) (before after : State) : Status × List Field :=
  (status before, [.u32 (cursorOf after p)])

def execCursorOldest (f : Frame) (s : State) : Out :=
  request f codeCursor lenCursor true
    (fun s => serve f.party codeCursor (cursorReads s f.party) (fun s => placeCursor f.party (oldestNumber s) s)
      (cursorAnswer f.party fun _ => .done) s) s

def execCursorNewest (f : Frame) (s : State) : Out :=
  request f codeCursor lenCursor true
    (fun s => serve f.party codeCursor (cursorReads s f.party) (fun s => placeCursor f.party (newestNumber s) s)
      (cursorAnswer f.party fun _ => .done) s) s

def execCursorNumber (f : Frame) (n : Nat) (s : State) : Out :=
  request f codeCursor lenCursor true
    (fun s => serve f.party codeCursor (cursorReads s f.party) (judged (cursorStatus n) (placeCursor f.party n))
      (cursorAnswer f.party (cursorStatus n)) s) s

end Sys2Proof.Machine
end

