-- ==== Sys2Proof/Machine/Pulse.lean ====
section
/-! DEFINITION. The pulse channels of the Field Input Unit: an edge on a pulse input, its acceptance or rejection, its
delivery to the Metering Engine, and the zero-flow expiry (1-3). -/

namespace Sys2Proof.Machine

/-- The sample channels in NEVER among some, whose substitutes are then read (R15). -/
def substituteReads (s : State) (ks : List (Fin 22)) : List Thing :=
  (ks.filter fun k => (sample s k).state == .never).map fun k => .contract (substituteItem k)

/-- The words that an accepted pulse reads: its items, its total, the substitutes it meters with, the reverse-ΔT count
of a heat point, and what the evaluation of its consumer reads (R8, R22). DESIGN CHOICE (log 35): the count's word is read
at every heat pulse, also where ΔT is not below 0 or no record is open. -/
def pulseReads (s : State) (ch : Fin 16) : List Thing :=
  [.contract (pulseWeightItem ch), .contract (zeroFlowItem ch), .totals ch] ++ substituteReads s (pulseInputs ch) ++
  (match heatPointOf ch with | some n => [.openRecord ⟨38 + n, by omega⟩] | none => []) ++
  (match channelConsumer ch with | some c => supervisionReads c | none => [])

/-- The elapsed time from the last accepted pulse of a channel to now, in ms (R5). -/
def sinceLast (s : State) (ch : Fin 16) : Nat :=
  match (channel s ch).lastArrival with
  | some t => sinceArrival s t
  | none => 0

/-- A pulse that arrives now passes the spacing check: always in NO_FLOW, and otherwise at least one minimum spacing
after the last accepted pulse (R4, R5). -/
def passesSpacing (s : State) (ch : Fin 16) : Bool :=
  (channel s ch).state == .noFlow || itemNat s (minSpacingItem ch) ≤ sinceLast s ch

/-- The record of a channel that accepts a pulse now (R4, R5, R9). -/
def acceptedRecord (s : State) (ch : Fin 16) : PulseChannel :=
  match (channel s ch).state with
  | .noFlow =>
    { state := .first, lastArrival := some s.field.arrivalBase, period := none
      lastEnergy := some (recordedEnergy s ch), rate := 0, noise := (channel s ch).noise }
  | _ =>
    { state := .flowing, lastArrival := some s.field.arrivalBase, period := some (sinceLast s ch)
      lastEnergy := some (recordedEnergy s ch), rate := rateOf ch (recordedEnergy s ch) (sinceLast s ch)
      noise := (channel s ch).noise }

/-- An accepted pulse: the record, the Metering Engine, the Consumer Supervisor (R8). -/
def acceptPulse (ch : Fin 16) (s : State) : State :=
  evaluateSome (channelConsumer ch) (meterPulse ch (setChannel ch (acceptedRecord s ch) s))

/-- A rejected pulse counts as noise and does nothing else (R6). -/
def rejectPulse (ch : Fin 16) (s : State) : State :=
  setChannel ch { channel s ch with noise := countUp 65535 (channel s ch).noise } s

/-- An edge counts as an arrival after 200 µs high and 200 µs low, while the part takes events (R2). -/
def edgeCounts (s : State) (high low : Nat) : Bool := s.power.running && 200 ≤ high && 200 ≤ low

/-- PULSE_ARRIVAL (R2, R4 to R6, R8). -/
def execPulseArrival (ch : Fin 16) (high low : Nat) (s : State) : Out :=
  if edgeCounts s high low then
    let s := settle (readAll [.contract (minSpacingItem ch)] s)
    if passesSpacing s ch then .next (operation (pulseReads s ch) (acceptPulse ch) s) else .next (rejectPulse ch s)
  else .next s

/-- The words that a zero-flow expiry reads (R7). -/
def zeroFlowReads (ch : Fin 16) : List Thing :=
  .contract (zeroFlowItem ch) :: (match channelConsumer ch with | some c => supervisionReads c | none => [])

/-- A zero-flow expiry that still falls is taken (R7). -/
def takeZeroFlow (ch : Fin 16) (s : State) : State := if zeroFlowDue s ch then expireFlow ch s else s

/-- ZERO_FLOW_EXPIRY (R7): without effect while the elapsed time is below the timeout. -/
def execZeroFlowExpiry (ch : Fin 16) (s : State) : Out :=
  if s.power.running && zeroFlowDue s ch then .next (operation (zeroFlowReads ch) (takeZeroFlow ch) s) else .next s

end Sys2Proof.Machine
end

