-- ==== Sys2Proof/Machine/Consumers.lean ====
section
/-! DEFINITION. The owner's requests to a consumer: START, STOP, NOMINATE, FUEL BACKUP, FUEL GAS (5-4) and CLEAR (5-7). -/

namespace Sys2Proof.Machine

/-- The words that most owner requests read: the nomination and the damage mark, and what the evaluation of the consumer
reads. -/
def ownerReads (c : Fin 8) : List Thing := [.nomination c, .damageMark c] ++ supervisionReads c

/-- The consumer's state, then nothing or the causes of STILL_FAULTED (R76, R192). -/
def consumerAnswer (status : State → Status) (causes : State → CauseSet) (c : Fin 8) (before after : State) :
    Status × List Field :=
  match status before with
  | .stillFaulted => (.stillFaulted, [stateField after c, .u16 (causeBits (causes before))])
  | st => (st, [stateField after c])

/-- A request that names a consumer and nothing else (10-6). -/
def consumerRequest (f : Frame) (code c : Nat) (reads : State → Fin 8 → List Thing) (body : Fin 8 → State → State)
    (answer : Fin 8 → State → State → Status × List Field) (s : State) : Out :=
  request f code lenConsumer (c < 8)
    (fun s => ownerRequest f code (slotOf c) (reads s (slotOf c)) (body (slotOf c)) (answer (slotOf c)) s) s

/-! ## START (R77) -/

def startStatus (c : Fin 8) (s : State) : Status :=
  if (consumer s c).state ≠ .off then .wrongState else if (consumer s c).damageMark then .stillFaulted else .done

def startBody (c : Fin 8) (s : State) : State := trigger (evaluate c (beginPurge c .active .awaiting s))

/-- The purge target, present in PURGING only (Table 5-1-2). -/
def targetField (s : State) (c : Fin 8) : List Field := optional ((consumer s c).target.map fun t => [.u8 (targetCode t)])

/-- DONE reports the state and the target as they stand after the event that the trigger takes (R77). -/
def startAnswer (c : Fin 8) (before after : State) : Status × List Field :=
  match startStatus c before with
  | .done => (.done, stateField after c :: targetField after c)
  | _ => consumerAnswer (startStatus c) (fun _ => { noCauses with contractDamaged := true }) c before after

def execStart (f : Frame) (c : Nat) (s : State) : Out :=
  consumerRequest f codeStart c (fun _ c => ownerReads c ++ [.contract (.consumer c cPurgeTime)])
    (fun c => judged (startStatus c) (startBody c)) startAnswer s

/-! ## STOP (R78) -/

/-- The record of a consumer that STOP takes to OFF: no shed flag, no cause, no recovery delay (R78). -/
def stoppedRecord (s : State) (c : Fin 8) : Consumer :=
  { settled (consumer s c) .off with shedFlag := false, causes := noCauses, recoveryTimer := none }

/-- The record of a consumer that STOP finds purging: the purge runs on toward OFF (R78). -/
def stoppingRecord (s : State) (c : Fin 8) : Consumer :=
  { consumer s c with target := some .off, reservation := .none, shedFlag := false }

def stopBody (c : Fin 8) (s : State) : State :=
  match (consumer s c).state with
  | .off => s
  | .purging => setConsumer c (stoppingRecord s c) (releaseReservation c s)
  | .active => trigger (evaluate c (putConsumer c (stoppedRecord s c) (releaseGrant c s)))
  | .backup => evaluate c (putConsumer c (stoppedRecord s c) s)
  | .shed => evaluate c (putConsumer c (stoppedRecord s c) s)
  | .tripped => evaluate c (putConsumer c (stoppedRecord s c) s)

def stopStatus (_ : State) : Status := .done

def execStop (f : Frame) (c : Nat) (s : State) : Out :=
  consumerRequest f codeStop c (fun _ c => ownerReads c) (fun c => judged stopStatus (stopBody c))
    (consumerAnswer stopStatus fun _ => noCauses) s

/-! ## NOMINATE (R79) -/

def nominateStatus (c : Fin 8) (rate : Nat) (s : State) : Status := if effectiveCeiling s c < rate then .clamped else .done

def nominateBody (c : Fin 8) (rate : Nat) (s : State) : State :=
  cutGrant c (setNomination c (min rate (effectiveCeiling s c)) s)

def execNominate (f : Frame) (c rate : Nat) (s : State) : Out :=
  request f codeNominate lenNominate (c < 8)
    (fun s => ownerRequest f codeNominate (slotOf c) (demandReads (slotOf c) ++ ownerReads (slotOf c))
      (judged (nominateStatus (slotOf c) rate) (nominateBody (slotOf c) rate))
      (consumerAnswer (nominateStatus (slotOf c) rate) (fun _ => noCauses) (slotOf c)) s) s

/-! ## FUEL BACKUP (R80) -/

def fuelBackupStatus (c : Fin 8) (s : State) : Status := if hasBackup s c && lit s c then .done else .wrongState

def fuelBackupBody (c : Fin 8) (s : State) : State :=
  trigger (evaluate c (putConsumer c { purging s c .backup .none with shedFlag := false } (releaseGrant c s)))

def execFuelBackup (f : Frame) (c : Nat) (s : State) : Out :=
  consumerRequest f codeFuelBackup c
    (fun _ c => ownerReads c ++ [.contract (.consumer c cBackupPresent), .contract (.consumer c cPurgeTime)])
    (fun c => judged (fuelBackupStatus c) (fuelBackupBody c))
    (fun c => consumerAnswer (fuelBackupStatus c) (fun _ => noCauses) c) s

/-! ## FUEL GAS (R81) -/

def fuelGasStatus (c : Fin 8) (s : State) : Status := if (consumer s c).state = .backup then .done else .wrongState

def fuelGasBody (c : Fin 8) (s : State) : State := trigger (evaluate c (beginPurge c .active .awaiting s))

def execFuelGas (f : Frame) (c : Nat) (s : State) : Out :=
  consumerRequest f codeFuelGas c (fun _ c => ownerReads c ++ [.contract (.consumer c cPurgeTime)])
    (fun c => judged (fuelGasStatus c) (fuelGasBody c))
    (fun c => consumerAnswer (fuelGasStatus c) (fun _ => noCauses) c) s

/-! ## CLEAR (R96) -/

def clearStatus (c : Fin 8) (s : State) : Status :=
  if (consumer s c).state ≠ .tripped then .wrongState else if recheckPasses s c then .done else .stillFaulted

def clearBody (c : Fin 8) (s : State) : State :=
  evaluate c (putConsumer c { settled (consumer s c) .off with causes := noCauses, recoveryTimer := none } s)

/-- The words that a recheck reads (R95), with those of the consumer's evaluation. -/
def recheckReads (s : State) (c : Fin 8) : List Thing := substituteReads s [4] ++ ownerReads c

def execClear (f : Frame) (c : Nat) (s : State) : Out :=
  consumerRequest f codeClear c recheckReads (fun c => judged (clearStatus c) (clearBody c))
    (fun c => consumerAnswer (clearStatus c) (fun s => failedTests s c) c) s

end Sys2Proof.Machine
end

