-- ==== Sys2Proof/Machine/Exports.lean ====
section
/-! DEFINITION. The SCHEDULE request of the Export Account Unit (6-3). -/

namespace Sys2Proof.Machine

/-- The current regular start: the regular start of the open record's start (R103). -/
def currentRegularStart (s : State) : Nat :=
  match s.settlement.openRecord with
  | some o => regularStart (intervalLength s) o.start
  | none => 0

/-- The earliest interval start that SCHEDULE accepts (R105). -/
def earliestStart (s : State) : Nat := currentRegularStart s + itemNat s (.exportItem xGate) * intervalLength s

/-- The latest interval start that SCHEDULE accepts (R105). -/
def latestStart (s : State) : Nat := currentRegularStart s + 8 * intervalLength s

/-- An entry for an interval start is listed. -/
def isListed (s : State) (start : Nat) : Bool := s.exports.schedule.any (·.start == start)

/-- The checks of the Export Account Unit on a SCHEDULE, in their order (R104). -/
def scheduleStatus (start kw : Nat) (s : State) : Status :=
  if s.settlement.clock = none then .clockUnset
  else if 2000000 < kw then .outOfRange
  else if start % intervalLength s ≠ 0 then .outOfRange
  else if start < earliestStart s then .gateClosed
  else if latestStart s < start then .outOfRange
  else if isListed s start || s.exports.schedule.length < 8 then .done
  else .tableFull

/-- An entry replaces the one with its start or joins the list at its place (R106). -/
def insertEntry (e : ScheduleEntry) : List ScheduleEntry → List ScheduleEntry
  | [] => [e]
  | x :: rest =>
    if e.start < x.start then e :: x :: rest
    else if e.start = x.start then e :: rest
    else x :: insertEntry e rest

def scheduleBody (start kw : Nat) (s : State) : State :=
  setSchedule (insertEntry { start := start, kw := kw } s.exports.schedule) s

/-- The status and the number of entries after the request (R104). -/
def scheduleAnswer (start kw : Nat) (before after : State) : Status × List Field :=
  (scheduleStatus start kw before, [.u32 after.exports.schedule.length])

/-- The words that the checks of SCHEDULE read. -/
def scheduleCheckReads (s : State) : List Thing :=
  scheduleReads s ++ [.contract .intervalLength, .contract (.exportItem xGate), .openRecord 1]

/-- SCHEDULE (R104 to R107). The Link Unit refuses it to WORKS and TOWN before anything is handed on (R104, R180, log 36). -/
def execSchedule (f : Frame) (start kw : Nat) (s : State) : Out :=
  request f codeSchedule lenSchedule true
    (fun s =>
      if f.party = .grid then
        serve f.party codeSchedule (scheduleCheckReads s) (judged (scheduleStatus start kw) (scheduleBody start kw))
          (scheduleAnswer start kw) s
      else refuse f.party codeSchedule .notParty s) s

end Sys2Proof.Machine
end

