-- ==== Sys2Proof/Machine/Proposals.lean ====
section
/-! DEFINITION. The requests of the Contract Unit: WRITE (R123), WRITE IDENTITY (R124), PROPOSE (R127), CONCUR (R128),
REJECT and WITHDRAW (R129), and the expiry of a proposal entry (R130). -/

namespace Sys2Proof.Machine

/-! ## WRITE (R123) -/

/-- Checks 3 to 6 of WRITE, for an item held in force. -/
def writeItemStatus (i : Item) (v : Int) (s : State) : Status :=
  if (entryNaming s (.item i)).isSome then .conflict
  else if !itemInRange i v then .outOfRange
  else if mustWait s (if isStructural i then [(i, v)] else []) ∨ (i = .intervalLength ∧ s.settlement.clock ≠ none) then
    .wrongState
  else if !consistent (projected s) [(i, v)] then .inconsistent
  else .done

/-- The checks of WRITE in their order (R123). -/
def writeStatus (r : ItemRef) (v : Int) (s : State) : Status :=
  if s.contracts.locked then .locked
  else
    match r with
    | .item i => writeItemStatus i v s
    | .offset => .outOfRange
    | .lock => .outOfRange

/-- An accepted WRITE: the value comes into force, the consumer's damage mark is cleared, the revision increases, and
the open record is marked (R99, R123). -/
def writeBody (r : ItemRef) (v : Int) (s : State) : State :=
  match r with
  | .item i => markContractChanged (bumpRevision (clearDamageMarks [(i, v)] (putInForce [(i, v)] s)))
  | .offset => s
  | .lock => s

/-- The words that WRITE reads. -/
def writeReads (r : ItemRef) (s : State) : List Thing :=
  [.commissioning, .revision] ++ tableReads s ++
  match r with
  | .item i => changeReads i
  | .offset => []
  | .lock => []

/-- WRITE: a name that names nothing is refused at decoding (R179, R182). -/
def execWrite (f : Frame) (name : ItemName) (v : Int) (s : State) : Out :=
  match resolveName name with
  | none => request f codeWrite lenWrite false id s
  | some r =>
    request f codeWrite lenWrite true
      (fun s => serve f.party codeWrite (writeReads r s) (judged (writeStatus r v) (writeBody r v))
        (fun before _ => (writeStatus r v before, [])) s) s

/-! ## WRITE IDENTITY (R124) -/

def writeIdentityStatus (name : List Byte) (s : State) : Status :=
  if s.contracts.locked then .locked else if nameAllowed name then .done else .outOfRange

/-- WRITE IDENTITY. A code beyond 4,294,967,295 is one that no frame carries. -/
def execWriteIdentity (f : Frame) (code : Nat) (name : List Byte) (s : State) : Out :=
  request f codeWriteIdentity (lenWriteIdentity name.length) (code < 4294967296)
    (fun s => serve f.party codeWriteIdentity [.commissioning]
      (judged (writeIdentityStatus name) (setIdentity code name)) (fun before _ => (writeIdentityStatus name before, [])) s) s

/-! ## The completion of an entry (R128, R136, R137) -/

/-- The device time that a clock-step entry leads to, before the check that it is not below 0 (R137). -/
def steppedTime (d : Int) (s : State) : Int := (deviceTime s : Int) + d

/-- A completed clock-step entry: discarded where the new time would be below 0, taken otherwise (R137). -/
def completeStep (e : Proposal) (d : Int) (s : State) : State :=
  if s.settlement.clock = none ∨ steppedTime d s < 0 then endEntry e .discarded s
  else stepClock (steppedTime d s).toNat (endEntry e .applied s)

/-- An entry whose concurrence is complete: a lock or a clock step is applied at once, an ordinary entry becomes STAGED
(R128). -/
def completeEntry (e : Proposal) (s : State) : State :=
  match e.items with
  | [(.lock, _)] => lockContract e s
  | [(.offset, d)] => completeStep e d s
  | _ => noticeProposal e .staged (changeEntry e.number stagedEntry s)

/-- The words that the completion of an entry reads. -/
def completionReads (items : List (ItemRef × Int)) (s : State) : List Thing :=
  match items with
  | [(.lock, _)] => lockReads
  | [(.offset, _)] => boundaryReads s
  | _ => []

/-- The codes of the entry states that responses report: OPEN, STAGED, APPLIED, DISCARDED (R127). -/
def entryStateCode (number : Nat) (items : List (ItemRef × Int)) (before after : State) : Nat :=
  match entryOf after number with
  | some e => if e.staged then 1 else 0
  | none =>
    match items with
    | [(.offset, d)] => if before.settlement.clock = none ∨ steppedTime d before < 0 then 3 else 2
    | _ => 2

/-! ## PROPOSE (R127) -/

/-- The references that the names of a list name, where each names one. -/
def resolveItems (items : List (ItemName × Int)) : Option (List (ItemRef × Int)) :=
  items.mapM fun e => (resolveName e.1).map fun r => (r, e.2)

/-- A lock or offset item. -/
def isProposalItem : ItemRef → Bool
  | .item _ => false
  | .offset => true
  | .lock => true

def isWriteOnlyRef : ItemRef → Bool
  | .item i => isWriteOnly i
  | .offset => false
  | .lock => false

/-- Check 1 of PROPOSE on the list: 1 to 6 items, distinct, a lock or offset item alone. -/
def listAllowed (items : List (ItemRef × Int)) : Bool :=
  1 ≤ items.length && items.length ≤ 6 && decide (items.map (·.1)).Nodup &&
    (items.length == 1 || items.all fun e => !isProposalItem e.1)

/-- The checks of PROPOSE in their order, for a list whose names all exist (R127). Concurrence sets are formed from the
projected contract (R119). -/
def proposeStatus (p : Party) (items : List (ItemRef × Int)) (s : State) : Status :=
  if !listAllowed items then .outOfRange
  else if !items.all (fun e => isWriteOnlyRef e.1 || hasParty (refSet (projected s) e.1) p) then .notParty
  else if items.any (·.1 == .offset) ∧ s.settlement.clock = none then .clockUnset
  else if items.any (fun e => (entryNaming s e.1).isSome) then .conflict
  else if 8 ≤ s.contracts.proposals.length then .tableFull
  else if !items.all (fun e => refInRange e.1 e.2) then .outOfRange
  else if !consistent (projected s) (heldItems items) then .inconsistent
  else if items.any (fun e => isWriteOnlyRef e.1) ∧ s.contracts.locked = true then .locked
  else if items.any (fun e => isWriteOnlyRef e.1) ∨ (items.any (·.1 == .lock) ∧ s.contracts.locked = true) then .wrongState
  else .done

/-- The entry that PROPOSE opens (R127). -/
def newEntry (p : Party) (items : List (ItemRef × Int)) (s : State) : Proposal :=
  { number := numberToGive s, proposer := p, items := items, parties := entrySet (projected s) items
    concurred := onlyParty p, staged := false, expiry := some (s.contracts.base + Config.proposalLife)
    deferred := false }

/-- The entry joins the table at its end with OPENED, and completes where its proposer alone makes up its set (R126,
R127). -/
def proposeBody (p : Party) (items : List (ItemRef × Int)) (s : State) : State :=
  let e := newEntry p items s
  let opened := noticeProposal e .opened
    (setNextProposal (nextNumber e.number) (setProposals (s.contracts.proposals ++ [e]) s))
  if e.parties = e.concurred then completeEntry e opened else opened

/-- DONE carries the proposal number and the entry state reached (R127). -/
def proposeAnswer (p : Party) (items : List (ItemRef × Int)) (before after : State) : Status × List Field :=
  match proposeStatus p items before with
  | .done => (.done, [.u16 (numberToGive before), .u8 (entryStateCode (numberToGive before) items before after)])
  | st => (st, [])

/-- The words that PROPOSE reads. -/
def proposeReads (items : List (ItemRef × Int)) (s : State) : List Thing :=
  tableReads s ++ [.nextProposal, .commissioning] ++
  (heldItems items).flatMap fun e => ruleReads e.1 ++
    match itemConsumer e.1 with
    | some c => [.contract (.consumer c cOwner), .contract (.consumer c cLinked)]
    | none => []

/-- PROPOSE: a name that names nothing is refused (R127, check 1; R182). -/
def execPropose (f : Frame) (items : List (ItemName × Int)) (s : State) : Out :=
  match resolveItems items with
  | none => request f codePropose (lenPropose items.length) false id s
  | some items =>
    request f codePropose (lenPropose items.length) true
      (fun s => serve f.party codePropose (proposeReads items s)
        (judged (proposeStatus f.party items) (proposeBody f.party items)) (proposeAnswer f.party items) s) s

/-! ## CONCUR (R128) -/

/-- The checks of CONCUR in their order. -/
def concurStatus (p : Party) (number : Nat) (s : State) : Status :=
  match entryOf s number with
  | none => .notFound
  | some e => if hasParty e.parties p then .done else .notParty

/-- The entry with a party's concurrence. -/
def concurredEntry (p : Party) (e : Proposal) : Proposal := { e with concurred := addParty e.concurred p }

/-- A party that has concurred changes nothing; otherwise it joins the set, which may complete the entry (R128). -/
def concurBody (p : Party) (number : Nat) (s : State) : State :=
  match entryOf s number with
  | none => s
  | some e =>
    if hasParty e.concurred p then s
    else if (concurredEntry p e).concurred = e.parties then
      completeEntry (concurredEntry p e) (changeEntry number (concurredEntry p) s)
    else changeEntry number (concurredEntry p) s

/-- DONE carries the entry state reached (R128). -/
def concurAnswer (p : Party) (number : Nat) (before after : State) : Status × List Field :=
  match concurStatus p number before, entryOf before number with
  | .done, some e => (.done, [.u8 (entryStateCode number e.items before after)])
  | st, _ => (st, [])

/-- The words that the completion of an entry by this CONCUR reads. -/
def concurReads (p : Party) (number : Nat) (s : State) : List Thing :=
  match entryOf s number with
  | none => []
  | some e =>
    if hasParty e.parties p && !hasParty e.concurred p && (concurredEntry p e).concurred = e.parties then
      completionReads e.items s
    else []

/-- CONCUR: its read of the table comes first. -/
def execConcur (f : Frame) (number : Nat) (s : State) : Out :=
  request f codeConcur lenProposal true
    (fun s =>
      let s := settle (readAll (tableReads s) s)
      serve f.party codeConcur (concurReads f.party number s)
        (judged (concurStatus f.party number) (concurBody f.party number)) (concurAnswer f.party number) s) s

/-! ## REJECT and WITHDRAW (R129) -/

def rejectStatus (p : Party) (number : Nat) (s : State) : Status :=
  match entryOf s number with
  | none => .notFound
  | some e => if !hasParty e.parties p then .notParty else if e.staged then .wrongState else .done

def withdrawStatus (p : Party) (number : Nat) (s : State) : Status :=
  match entryOf s number with
  | none => .notFound
  | some e => if e.proposer ≠ p then .notParty else if e.staged then .wrongState else .done

/-- The entry of a number leaves the table with a notice. -/
def dropEntry (number : Nat) (o : Outcome) (s : State) : State :=
  match entryOf s number with
  | none => s
  | some e => endEntry e o s

def execReject (f : Frame) (number : Nat) (s : State) : Out :=
  request f codeReject lenProposal true
    (fun s => serve f.party codeReject (tableReads s)
      (judged (rejectStatus f.party number) (dropEntry number .rejected))
      (fun before _ => (rejectStatus f.party number before, [])) s) s

def execWithdraw (f : Frame) (number : Nat) (s : State) : Out :=
  request f codeWithdraw lenProposal true
    (fun s => serve f.party codeWithdraw (tableReads s)
      (judged (withdrawStatus f.party number) (dropEntry number .withdrawn))
      (fun before _ => (withdrawStatus f.party number before, [])) s) s

/-! ## Expiry (R130) -/

/-- The entry of a number is OPEN and the proposal time base has reached its expiry time (R130). DESIGN CHOICE (log 35): finding
so takes the entry as it stands, without a checked read. -/
def proposalDue (s : State) (number : Nat) : Bool :=
  match entryOf s number with
  | none => false
  | some e =>
    match e.expiry with
    | none => false
    | some t => !e.staged && t ≤ s.contracts.base

/-- An expiry that still falls is taken. -/
def takeExpiry (number : Nat) (s : State) : State := if proposalDue s number then dropEntry number .expired s else s

/-- PROPOSAL_EXPIRY: without effect for an entry that is gone, STAGED or not yet at its expiry time. -/
def execProposalExpiry (number : Nat) (s : State) : Out :=
  if s.power.running && proposalDue s number then .next (operation (tableReads s) (takeExpiry number) s) else .next s

end Sys2Proof.Machine
end

