-- ==== Sys2Proof/Machine/Query.lean ====
section
/-! DEFINITION. The twelve targets of QUERY (R183): what each reads, and the fields of its response in the order in which
its rule lists them, in the forms of Table 10-6-3. A QUERY has no effect of its own. -/

namespace Sys2Proof.Machine

/-- A QUERY of a target with so many instances: an index outside them is refused at decoding (R183). Its fields are those
of the state that the reads leave. -/
def queryRequest (f : Frame) (index instances : Nat) (reads : State → List Thing) (fields : State → List Field) (s : State) :
    Out :=
  request f codeQuery lenQuery (index < instances)
    (fun s => serve f.party codeQuery (reads s) id (fun _ after => (.done, fields after)) s) s

/-- A number of kW, Pa, m³, cents/MWh or a contract value. -/
def amount (n : Nat) : Field := .s32 n

/-- The in-force value of an item as a field. -/
def itemField (s : State) (i : Item) : Field := .s32 (item s i)

/-! ## Sample channel and pulse channel (R20) -/

/-- The whole seconds left on a freshness timer. DESIGN CHOICE (log 4): a part of a second is left off. -/
def freshnessLeft (s : State) (t : Timer) : Nat := (t.length - sinceArrival s t.start) / 1000

def sampleFields (k : Fin 22) (s : State) : List Field :=
  [.s32 (valueInUse s k)] ++ optional ((sample s k).lastValid.map fun v => [.s32 v]) ++
  [.u8 (sampleStateCode (sample s k).state), flagField (sample s k).uncertain] ++
  optional ((sample s k).timer.map fun t => [.u32 (freshnessLeft s t)]) ++
  [itemField s (.rangeLow k), itemField s (.rangeHigh k), itemField s (.freshness k), itemField s (substituteItem k)]

def execQuerySampleChannel (f : Frame) (index : Nat) (s : State) : Out :=
  let k : Fin 22 := ⟨index % 22, by omega⟩
  queryRequest f index 22
    (fun _ => [.rangeLow k, .rangeHigh k, .freshness k, substituteItem k].map .contract) (sampleFields k) s

def channelFields (ch : Fin 16) (s : State) : List Field :=
  [.u8 (channelStateCode (channel s ch).state)] ++
  optional ((channel s ch).lastArrival.map fun t => [.u48 (sinceArrival s t)]) ++
  optional ((channel s ch).period.map fun t => [.u48 t]) ++
  optional ((channel s ch).lastEnergy.map fun e => [.u64 e]) ++
  [amount (takeRate s ch), amount (channel s ch).rate, .u32 (channel s ch).noise, itemField s (pulseWeightItem ch),
   itemField s (minSpacingItem ch), itemField s (zeroFlowItem ch)]

def execQueryPulseChannel (f : Frame) (index : Nat) (s : State) : Out :=
  let ch : Fin 16 := ⟨index % 16, by omega⟩
  queryRequest f index 16
    (fun _ => [pulseWeightItem ch, minSpacingItem ch, zeroFlowItem ch].map .contract) (channelFields ch) s

/-! ## Consumer (R102) -/

/-- Whether a timer runs, and the whole seconds left. -/
def timerFields (s : State) (t : Option Timer) : List Field :=
  [flagField t.isSome, .u32 (match t with | some t => secondsLeft s.supervisor.base t | none => 0)]

/-- The reservation status, present in PURGING only. -/
def reservationField (s : State) (c : Fin 8) : List Field :=
  optional (if (consumer s c).state = .purging then some [.u8 (reservationCode (consumer s c).reservation)] else none)

def lastTripFields (l : LastTrip) : List Field := optional (l.time.map fun t => [.u48 t]) ++ [.u16 (causeBits l.causes)]

/-- QUERY of a consumer (R102). DESIGN CHOICE (log 4): R102 gives its items in force no order, and they are sent in the order of
their item numbers (R182), the effective ceiling last. -/
def consumerFields (c : Fin 8) (s : State) : List Field :=
  let r := consumer s c
  [stateField s c] ++ targetField s c ++ reservationField s c ++
  [flagField r.shedFlag, amount r.nomination, amount (grant s c), amount (reservation s c), amount (draw s c),
   amount (overdrawLimit s c), .u16 (causeBits r.causes), flagField r.damageMark] ++
  optional (r.lastTrip.map lastTripFields) ++ [.u32 r.recoveryCount] ++
  [r.purgeTimer, r.overdrawTimer, r.lineLowTimer, r.passingTimer, r.lowDrawTimer, r.recoveryTimer].flatMap (timerFields s) ++
  [.s32 (valueInUse s (lineChannel c)), .u8 (sampleStateCode (sample s (lineChannel c)).state),
   flagField s.lines.gasEn[c], flagField s.lines.backupEn[c]] ++
  (List.finRange 23).map (fun k => itemField s (.consumer c k)) ++ [amount (effectiveCeiling s c)]

def execQueryConsumer (f : Frame) (index : Nat) (s : State) : Out :=
  let c := slotOf index
  queryRequest f index 8
    (fun s => List.flatten
      [[.nomination c, .damageMark c],
       (List.finRange 23).map (fun k => .contract (.consumer c k)),
       substituteReads s [lineChannel c]]) (consumerFields c) s

/-! ## Holder (R49) -/

def holderFields (s : State) : List Field :=
  let b := bandSetInUse s
  [.u8 (bandCode s.band), .s32 (valueInUse s 6), .u8 (sampleStateCode (sample s 6).state), flagField (sample s 6).uncertain,
   .u8 (if bandSetInForce s then 0 else 1), .s32 b.tLL, .s32 b.tL, .s32 b.tH, .s32 b.tHH, .s32 b.hysteresis,
   itemField s (.holder hFillLL), itemField s (.holder hFillL), itemField s (.holder hDrawH), .s32 (holderTerm s),
   .s32 s.allocator.result.holderTerm, amount s.allocator.result.sourceSum, amount s.allocator.result.flareDemand,
   flagField s.lines.flareEn]

def execQueryHolder (f : Frame) (index : Nat) (s : State) : Out :=
  queryRequest f index 1
    (fun s => [hTLL, hTL, hTH, hTHH, hHysteresis, hFillLL, hFillL, hDrawH].map (fun k => .contract (.holder k)) ++
      substituteReads s [6]) holderFields s

/-! ## Allocation (R73) -/

def allocationFields (s : State) : List Field :=
  let r := s.allocator.result
  optional (r.time.map fun t => [.u48 t]) ++
  optional (r.timeBase.map fun t => [.u32 ((s.allocator.base - t) / 1000)]) ++
  [.u32 (secondsLeft s.allocator.base s.allocator.timer), amount r.sourceSum, .s32 r.holderTerm, .u8 (bandCode r.band),
   amount r.available] ++
  (List.finRange 8).flatMap (fun c => [amount (grant s c), amount (reservation s c)]) ++
  [amount r.surplus, amount r.flareDemand, .u32 ((s.allocator.base - r.creditPoint) / 1000), itemField s .allocationPeriod]

def execQueryAllocation (f : Frame) (index : Nat) (s : State) : Out :=
  queryRequest f index 1 (fun _ => [.contract .allocationPeriod]) allocationFields s

/-! ## Totals (R21) -/

def totalsFields (s : State) : List Field :=
  (List.finRange 16).flatMap fun ch =>
    .u64 s.metering.totals[ch] :: (if ch.val < 15 then [.u64 (remainderOf s ch)] else [])

def execQueryTotals (f : Frame) (index : Nat) (s : State) : Out :=
  queryRequest f index 1 (fun _ => (List.finRange 16).map .totals) totalsFields s

/-! ## Export schedule (R116) -/

/-- The export-linked consumer, if any. -/
def linkedConsumer (s : State) : Option (Fin 8) := (List.finRange 8).find? (isLinked s)

/-- The seconds elapsed since the open interval's start (R116). DESIGN CHOICE (log 40): they are a free value where damage has
put the start past the present time. -/
def elapsedInterval (s : State) (o : OpenRecord) : Nat := spanOf o.start (deviceTime s)

/-- The starts of R105, present while a record is open. -/
def startFields (s : State) : List Field :=
  optionalEach 3 (s.settlement.openRecord.map fun _ =>
    [.u48 (currentRegularStart s), .u48 (earliestStart s), .u48 (latestStart s)])

/-- The export figures of the open interval so far: metered, scheduled, and their difference. -/
def accountFields (s : State) : List Field :=
  optionalEach 3 (s.settlement.openRecord.map fun o =>
    let metered := intervalEnergy s o 15
    let scheduled := scheduledEnergy (scheduledExport s) (elapsedInterval s o)
    [.u64 metered, .u64 scheduled, .s64 ((metered : Int) - scheduled)])

/-- QUERY of the export schedule (R116). DESIGN CHOICE (log 4): Table 10-6-3 gives a consumer's slot a U8 in requests and
no form in a response; the slot of the export-linked consumer is sent as a U8. -/
def exportFields (s : State) : List Field :=
  counted (s.exports.schedule.map fun e => [.u48 e.start, amount e.kw]) ++
  [amount (scheduledExport s), .u8 (latchSourceCode (scheduledSource s))] ++ startFields s ++
  [xDefaultExport, xHeatRate, xGate, xPulseWeight].map (fun k => itemField s (.exportItem k)) ++
  optionalEach 3 ((linkedConsumer s).map fun c => [.u8 c.val, amount (consumer s c).nomination, amount (derivedRate s)]) ++
  accountFields s

def execQueryExportSchedule (f : Frame) (index : Nat) (s : State) : Out :=
  queryRequest f index 1
    (fun s => List.flatten
      [scheduleReads s,
       [.latch, .contract .intervalLength, .totals 15],
       [xDefaultExport, xHeatRate, xGate, xPulseWeight].map (fun k => .contract (.exportItem k)),
       (List.finRange 8).flatMap (fun c => [.contract (.consumer c cLinked), .nomination c]),
       if s.settlement.openRecord.isSome then [.openRecord 1, .openRecord 22] else []]) exportFields s

/-! ## Contract item (R141) -/

/-- The in-force value and the value after cold start of an item; the two proposal items have neither. -/
def valueOfRef (s : State) : ItemRef → List Field
  | .item i => [itemField s i]
  | .offset => []
  | .lock => []

def defaultOfRef : ItemRef → List Field
  | .item i => [.s32 (itemDefault i)]
  | .offset => []
  | .lock => []

/-- In-force value, range, value after cold start, concurrence set, the structural and the write-only flag, and the number
of the entry that names the item (R141). The set of the hard ceiling, which has none, is sent empty (log 4). -/
def itemFields (r : ItemRef) (s : State) : List Field :=
  valueOfRef s r ++ counted ((refRanges r).map fun b => [.s32 b.1, .s32 b.2]) ++ defaultOfRef r ++
  [.u16 (partyBits (refSet (projected s) r)),
   flagField (match r with | .item i => isStructural i | _ => false), flagField (isWriteOnlyRef r)] ++
  optional ((entryNaming s r).map fun e => [.u16 e.number])

/-- The words that the concurrence set of an item is formed from (R119). -/
def setReads : ItemRef → List Thing
  | .item (.consumer c k) => [cOwner, cLinked, k].map fun k => .contract (.consumer c k)
  | .item i => [.contract i]
  | .offset => []
  | .lock => []

def execQueryContractItem (f : Frame) (name : ItemName) (s : State) : Out :=
  match resolveName name with
  | none => request f codeQuery lenQueryItem false id s
  | some r =>
    request f codeQuery lenQueryItem true
      (fun s => serve f.party codeQuery (setReads r ++ tableReads s) id (fun _ after => (.done, itemFields r after)) s) s

/-! ## Proposal table (R141) -/

def entryFields (s : State) (e : Proposal) : List Field :=
  List.flatten
    [[.u16 e.number, .u8 (partyCode e.proposer)],
     counted (e.items.map fun i => nameFields (nameOf i.1) ++ [.s32 i.2]),
     [.u16 (partyBits e.parties), .u16 (partyBits e.concurred), .u8 (natOfBool e.staged)],
     optional (e.expiry.map fun t => [.u32 t]),
     optional (if e.staged then some [flagField e.deferred] else none),
     optional (e.expiry.map fun t => [.u32 (t - s.contracts.base)])]

def proposalFields (s : State) : List Field :=
  counted (s.contracts.proposals.map (entryFields s)) ++
  [.u8 (natOfBool s.contracts.locked), .u32 s.contracts.revision, .u16 s.contracts.nextProposal]

def execQueryProposalTable (f : Frame) (index : Nat) (s : State) : Out :=
  queryRequest f index 1 (fun s => tableReads s ++ [.commissioning, .revision, .nextProposal]) proposalFields s

/-! ## Clock (R164) -/

/-- Every field of Table 8-3-1 in its order, the marks as one field, then the regular start, the seconds to the end and the
interval energies so far: 48 fields. The regular start is the open record's (R103, log 4). DESIGN CHOICE (log 40): the seconds
to an end that lies before the present time are a free value (R164). -/
def openFields (s : State) (o : OpenRecord) : List Field :=
  List.flatten
    [[.u32 o.number, .u48 o.start, .u48 o.stop, .u8 o.band, amount o.heatPrice, amount o.gasPrice,
       amount (scheduledExport s), .u8 (latchSourceCode (scheduledSource s)), .u32 o.revision],
     o.opening.toList.map .u64,
     [.u32 (markBits o.outage o.clockStep o.short o.commissioning o.contractChanged o.contractDamaged o.estimatedGas
       o.estimatedHeat o.trimmed)],
     o.reverse.toList.map .u32,
     [.u64 o.flare],
     [.u48 (currentRegularStart s), .u32 (spanOf (deviceTime s) o.stop)],
     (List.finRange 16).map (fun ch => .u64 (intervalEnergy s o ch))]

/-- The device time, its hour and its band in the band table in force, while RUNNING; an hour is a U8 (log 4). -/
def timeFields (s : State) (t : Nat) : List Field := [.u48 t, .u8 (hourOf t), .u8 (bandAt s t)]

/-- The oldest and newest record numbers, absent in an empty ring, and the next record number, present in an empty ring
alone (R164, R192). -/
def ringFields (s : State) : List Field :=
  optionalEach 2 (if s.settlement.archive.isEmpty then none else some [.u32 (oldestNumber s), .u32 (newestNumber s)]) ++
  optionalEach 1 (if s.settlement.archive.isEmpty then some [.u32 s.settlement.nextRecord] else none)

def clockFields (p : Party) (s : State) : List Field :=
  List.flatten
    [[.u8 (natOfBool s.settlement.clock.isSome)],
     optionalEach 3 (s.settlement.clock.map (timeFields s)),
     [itemField s .intervalLength],
     optionalEach 48 (s.settlement.openRecord.map (openFields s)),
     [.u64 s.settlement.heatAccount.amount, .u64 s.settlement.heatAccount.remainder, .u64 s.settlement.gasAccount.amount,
       .u64 s.settlement.gasAccount.remainder],
     ringFields s,
     [.u32 (cursorOf s p)],
     optional (s.settlement.clock.map fun _ => [flagField (gapOf s p)])]

/-- The words that QUERY of the clock reads. -/
def clockReads (s : State) (p : Party) : List Thing :=
  List.flatten
    [[.contract .intervalLength, .heatAccount, .gasAccount],
     cursorReads s p,
     (match s.settlement.clock with | some t => [.contract (.bandEntry (hourOf t))] | none => []),
     (if s.settlement.openRecord.isSome then
       (List.finRange 49).map .openRecord ++ [.latch] ++ (List.finRange 16).map .totals
       else [])]

def execQueryClock (f : Frame) (index : Nat) (s : State) : Out :=
  queryRequest f index 1 (fun s => clockReads s f.party) (clockFields f.party) s

/-! ## Integrity report (R176) -/

/-- QUERY of the integrity report (R176). DESIGN CHOICE (log 4): R176 gives the record numbers of the known-damaged places no
order, and they are sent as the records stand in the ring, the oldest first. -/
def reportFields (s : State) : List Field :=
  List.flatten
    [[.u32 s.store.report.corrected, .u32 s.store.report.uncorrectable],
     optional (s.store.report.last.map regionFields),
     [.u32 s.store.report.sweeps, .u32 s.store.sweepPos, .u32 ((s.store.sweepBase - s.store.sweepStart) / 1000)],
     counted ((s.settlement.archive.filter fun r => knownDamaged s r.number).map fun r => [.u32 r.number]),
     [.u8 (restartKindCode s.power.lastKind)]]

/-- QUERY of the integrity report checks the report's own words alone (R176). -/
def execQueryIntegrityReport (f : Frame) (index : Nat) (s : State) : Out :=
  queryRequest f index 1 (fun _ => [.report 0, .report 1, .report 2, .report 3, .marks]) reportFields s

/-! ## Identity (R195) -/

/-- The part name "NETRAGO 340" (Table 11-4-1). -/
def partName : List Byte := [0x4E, 0x45, 0x54, 0x52, 0x41, 0x47, 0x4F, 0x20, 0x33, 0x34, 0x30]

def identityFields (s : State) : List Field :=
  [.text partName, .u8 3, .u32 Config.storeWords, .u8 Config.archiveCapacity, .u8 (restartKindCode s.power.lastKind),
   .u8 (natOfBool s.contracts.locked), .u32 s.contracts.siteCode, .text s.contracts.siteName]

def execQueryIdentity (f : Frame) (index : Nat) (s : State) : Out :=
  queryRequest f index 1 (fun _ => [.commissioning, .identity]) identityFields s

end Sys2Proof.Machine
end

