-- ==== Sys2Proof/Machine/Sample.lean ====
section
/-! DEFINITION. The sample table of the Field Input Unit: valid and invalid frames and the freshness expiry (1-5). -/

namespace Sys2Proof.Machine

/-- A frame's value and status make it valid: GOOD or UNCERTAIN, and in the channel's range (R12). -/
def frameValid (s : State) (k : Fin 22) (status : SampleStatus) (value : Int) : Bool :=
  status != .bad && item s (.rangeLow k) ≤ value && value ≤ item s (.rangeHigh k)

/-- The record of a channel after a valid frame (R12). -/
def validRecord (s : State) (k : Fin 22) (status : SampleStatus) (value : Int) : SampleRecord :=
  { state := .valid, lastValid := some value, uncertain := status == .uncertain
    timer := some { start := s.field.arrivalBase, length := 1000 * itemNat s (.freshness k) } }

/-- A FIELD notice for every party (Table 10-5-1). -/
def noticeField (k : Fin 22) (st : SampleState) (s : State) : State := raiseNotice allParties clsField (.field k st) s

/-- A valid frame is taken (R12). -/
def takeValid (k : Fin 22) (status : SampleStatus) (value : Int) (s : State) : State :=
  let stored := setSample k (validRecord s k status value) s
  let told := if (sample s k).state = .valid then stored else noticeField k .valid stored
  evaluateSome (sampleConsumer k) (if k = 6 then evaluateBand value told else told)

/-- A VALID record becomes HELD; any other stays as it is (R13, R14). -/
def holdSample (k : Fin 22) (s : State) : State :=
  if (sample s k).state = .valid then
    evaluateSome (sampleConsumer k)
      (noticeField k .held (setSample k { sample s k with state := .held, timer := none } s))
  else s

/-- The words that taking a frame reads after its range: the freshness time, the band set for A6, and what the
evaluation of a consumer reads (R11 to R13). DESIGN CHOICE (log 35): every A6 frame, valid or not, reads the five band-set
words and the flare accumulator, whether or not it moves the band (R40). -/
def frameReads (k : Fin 22) : List Thing :=
  [.contract (.freshness k)] ++ (if k = 6 then bandReads else []) ++
  (match sampleConsumer k with | some c => supervisionReads c | none => [])

/-- SAMPLE_FRAME (R11 to R13). -/
def execSampleFrame (raw : RawFrame) (s : State) : Out :=
  match parseSample raw with
  | none => .next s
  | some (k, status, value) =>
    if s.power.running then
      let s := settle (readAll [.contract (.rangeLow k), .contract (.rangeHigh k)] s)
      .next (operation (frameReads k)
        (if frameValid s k status value then takeValid k status value else holdSample k) s)
    else .next s

/-- The freshness timer of a record has run out (R14). -/
def freshnessDue (s : State) (k : Fin 22) : Bool :=
  match (sample s k).timer with
  | some t => t.length ≤ sinceArrival s t.start
  | none => false

/-- FRESHNESS_EXPIRY (R14): without effect while the timer is stopped or still runs. -/
def execFreshnessExpiry (k : Fin 22) (s : State) : Out :=
  if s.power.running && freshnessDue s k then
    .next (operation (match sampleConsumer k with | some c => supervisionReads c | none => []) (holdSample k) s)
  else .next s

end Sys2Proof.Machine
end

