-- ==== Sys2Proof/Machine/Timers.lean ====
section
/-! DEFINITION. The expiries of the allocation period (R52) and of the six timers of a consumer: purge (R84), the three
masks (R89), low-draw (R94) and recovery (R97). An expiry whose timer is stopped or still runs does not fall. -/

namespace Sys2Proof.Machine

/-- ALLOCATION_PERIOD_EXPIRY (R52). -/
def execAllocationPeriodExpiry (s : State) : Out :=
  if s.power.running && timerDue s.allocator.base s.allocator.timer then .next (settle (allocationEvent s)) else .next s

/-- A consumer timer has run its length (R87). -/
def consumerDue (s : State) (t : Option Timer) : Bool :=
  match t with
  | some t => s.power.running && timerDue s.supervisor.base t
  | none => false

/-- The words that the expiry of a consumer's timer reads, with those of a trip and its notices. -/
def expiryReads (c : Fin 8) : List Thing :=
  ownerReads c ++ [cOwner, cPurgeThreshold, cPurgeTime, cRecoveryMode, cRecoveryDelay].map (fun k => .contract (.consumer c k))

/-! ## Purge (R84) -/

/-- The confirmation at the end of a purge: the line pressure record is VALID and at or below the threshold (R84). -/
def purgeConfirmed (s : State) (c : Fin 8) : Bool :=
  (sample s (lineChannel c)).state == .valid && valueInUse s (lineChannel c) ≤ item s (.consumer c cPurgeThreshold)

/-- A confirmed purge enters the target that stands (R84). -/
def enterTarget (c : Fin 8) (s : State) : State :=
  match (consumer s c).target with
  | some .active => trigger (enter c .active (releaseReservation c s))
  | some .backup => enter c .backup s
  | some .shed => enter c .shed s
  | some .off => enter c .off s
  | none => enter c .off s

def purgeBody (c : Fin 8) (s : State) : State :=
  if consumerDue s (consumer s c).purgeTimer then
    if purgeConfirmed s c then enterTarget c s else trip c .purgeFail s
  else s

def execPurgeExpiry (c : Fin 8) (s : State) : Out :=
  if consumerDue s (consumer s c).purgeTimer then .next (operation (expiryReads c) (purgeBody c) s) else .next s

/-! ## Masks (R89 to R92) -/

def overdrawBody (c : Fin 8) (s : State) : State :=
  if consumerDue s (consumer s c).overdrawTimer then
    if lit s c && overdrawHolds s c then trip c .overdraw s
    else setConsumer c { consumer s c with overdrawTimer := none } s
  else s

def execOverdrawMaskExpiry (c : Fin 8) (s : State) : Out :=
  if consumerDue s (consumer s c).overdrawTimer then .next (operation (expiryReads c) (overdrawBody c) s) else .next s

def lineLowBody (c : Fin 8) (s : State) : State :=
  if consumerDue s (consumer s c).lineLowTimer then
    if lit s c && lineLowHolds s c then trip c .lineLow s
    else setConsumer c { consumer s c with lineLowTimer := none } s
  else s

def execLineLowMaskExpiry (c : Fin 8) (s : State) : Out :=
  if consumerDue s (consumer s c).lineLowTimer then .next (operation (expiryReads c) (lineLowBody c) s) else .next s

def passingBody (c : Fin 8) (s : State) : State :=
  if consumerDue s (consumer s c).passingTimer then
    if passingApplies s c && passingHolds s c then trip c .valvePassing s
    else setConsumer c { consumer s c with passingTimer := none } s
  else s

def execPassingMaskExpiry (c : Fin 8) (s : State) : Out :=
  if consumerDue s (consumer s c).passingTimer then .next (operation (expiryReads c) (passingBody c) s) else .next s

/-! ## Low draw (R94) -/

def lowDrawBody (c : Fin 8) (s : State) : State :=
  if consumerDue s (consumer s c).lowDrawTimer then
    if lit s c && lowDrawHolds s c then
      raiseNotice (onlyParty (ownerOf s c)) clsLowDraw (.lowDraw c)
        (setConsumer c { consumer s c with lowDrawTimer := some (startTimer s c cLowDrawTime) } s)
    else setConsumer c { consumer s c with lowDrawTimer := none } s
  else s

def execLowDrawTimerExpiry (c : Fin 8) (s : State) : Out :=
  if consumerDue s (consumer s c).lowDrawTimer then .next (operation (expiryReads c) (lowDrawBody c) s) else .next s

/-! ## Recovery (R97) -/

/-- The record of a consumer that automatic recovery purges toward ACTIVE (R97). -/
def recoveringRecord (s : State) (c : Fin 8) : Consumer :=
  { purging s c .active .awaiting with
    causes := noCauses, recoveryCount := (consumer s c).recoveryCount + 1, recoveryTimer := none }

/-- Automatic recovery still applies: TRIPPED, AUTO in force, count below 3 (R97). -/
def recoveryApplies (s : State) (c : Fin 8) : Bool :=
  (consumer s c).state == .tripped && isAuto s c && (consumer s c).recoveryCount < 3

def recoveryBody (c : Fin 8) (s : State) : State :=
  if consumerDue s (consumer s c).recoveryTimer then
    if recoveryApplies s c then
      if recheckPasses s c then trigger (evaluate c (putConsumer c (recoveringRecord s c) s))
      else setConsumer c { consumer s c with recoveryTimer := some (startTimer s c cRecoveryDelay) } s
    else setConsumer c { consumer s c with recoveryTimer := none } s
  else s

def execRecoveryDelayExpiry (c : Fin 8) (s : State) : Out :=
  if consumerDue s (consumer s c).recoveryTimer then
    .next (operation (substituteReads s [4] ++ expiryReads c) (recoveryBody c) s)
  else .next s

end Sys2Proof.Machine
end

