-- ==== Sys2Proof/Machine/Dispatch.lean ====
section
/-! DEFINITION. One arm for each command, each one call of its meaning. -/

namespace Sys2Proof.Machine

def exec (i : Instr) (s : State) : Host.Outcome State Fault Refusal :=
  match i with
  | .pulseArrival ch high low => Sys2Proof.Machine.execPulseArrival ch high low s
  | .zeroFlowExpiry ch => Sys2Proof.Machine.execZeroFlowExpiry ch s
  | .sampleFrame raw => Sys2Proof.Machine.execSampleFrame raw s
  | .freshnessExpiry k => Sys2Proof.Machine.execFreshnessExpiry k s
  | .allocationPeriodExpiry => Sys2Proof.Machine.execAllocationPeriodExpiry s
  | .start f c => Sys2Proof.Machine.execStart f c s
  | .stop f c => Sys2Proof.Machine.execStop f c s
  | .nominate f c rate => Sys2Proof.Machine.execNominate f c rate s
  | .clear f c => Sys2Proof.Machine.execClear f c s
  | .fuelBackup f c => Sys2Proof.Machine.execFuelBackup f c s
  | .fuelGas f c => Sys2Proof.Machine.execFuelGas f c s
  | .purgeExpiry c => Sys2Proof.Machine.execPurgeExpiry c s
  | .overdrawMaskExpiry c => Sys2Proof.Machine.execOverdrawMaskExpiry c s
  | .lineLowMaskExpiry c => Sys2Proof.Machine.execLineLowMaskExpiry c s
  | .passingMaskExpiry c => Sys2Proof.Machine.execPassingMaskExpiry c s
  | .lowDrawTimerExpiry c => Sys2Proof.Machine.execLowDrawTimerExpiry c s
  | .recoveryDelayExpiry c => Sys2Proof.Machine.execRecoveryDelayExpiry c s
  | .schedule f start kw => Sys2Proof.Machine.execSchedule f start kw s
  | .write f name value => Sys2Proof.Machine.execWrite f name value s
  | .writeIdentity f code name => Sys2Proof.Machine.execWriteIdentity f code name s
  | .propose f items => Sys2Proof.Machine.execPropose f items s
  | .concur f number => Sys2Proof.Machine.execConcur f number s
  | .reject f number => Sys2Proof.Machine.execReject f number s
  | .withdraw f number => Sys2Proof.Machine.execWithdraw f number s
  | .proposalExpiry number => Sys2Proof.Machine.execProposalExpiry number s
  | .writeClock f time => Sys2Proof.Machine.execWriteClock f time s
  | .trim f d => Sys2Proof.Machine.execTrim f d s
  | .regularBoundary => Sys2Proof.Machine.execRegularBoundary s
  | .archive f => Sys2Proof.Machine.execArchive f s
  | .cursorOldest f => Sys2Proof.Machine.execCursorOldest f s
  | .cursorNewest f => Sys2Proof.Machine.execCursorNewest f s
  | .cursorNumber f number => Sys2Proof.Machine.execCursorNumber f number s
  | .scrubRead => Sys2Proof.Machine.execScrubRead s
  | .startUpOperation strap cut => Sys2Proof.Machine.execStartUpOperation strap cut s
  | .supplyFall => Sys2Proof.Machine.execSupplyFall s
  | .resetAssertion low => Sys2Proof.Machine.execResetAssertion low s
  | .querySampleChannel f index => Sys2Proof.Machine.execQuerySampleChannel f index s
  | .queryPulseChannel f index => Sys2Proof.Machine.execQueryPulseChannel f index s
  | .queryConsumer f index => Sys2Proof.Machine.execQueryConsumer f index s
  | .queryHolder f index => Sys2Proof.Machine.execQueryHolder f index s
  | .queryAllocation f index => Sys2Proof.Machine.execQueryAllocation f index s
  | .queryTotals f index => Sys2Proof.Machine.execQueryTotals f index s
  | .queryExportSchedule f index => Sys2Proof.Machine.execQueryExportSchedule f index s
  | .queryContractItem f name => Sys2Proof.Machine.execQueryContractItem f name s
  | .queryProposalTable f index => Sys2Proof.Machine.execQueryProposalTable f index s
  | .queryClock f index => Sys2Proof.Machine.execQueryClock f index s
  | .queryIntegrityReport f index => Sys2Proof.Machine.execQueryIntegrityReport f index s
  | .queryIdentity f index => Sys2Proof.Machine.execQueryIdentity f index s
  | .mask f classes => Sys2Proof.Machine.execMask f classes s
  | .notice f => Sys2Proof.Machine.execNotice f s
  | .unknownRequest f code selector => Sys2Proof.Machine.execUnknownRequest f code selector s
  | .badFrame p raw => Sys2Proof.Machine.execBadFrame p raw s
  | .busyPortFrame p raw => Sys2Proof.Machine.execBusyPortFrame p raw s
  | .responseSent p => Sys2Proof.Machine.execResponseSent p s
  | .storeWordError word => Sys2Proof.Machine.execStoreWordError word s
  | .backupSupplyLoss => Sys2Proof.Machine.execBackupSupplyLoss s

end Sys2Proof.Machine
end

