-- ==== Sys2Proof/Machine/Tick.lean ====
section
/-! DEFINITION. What time alone does, taken by a step on an empty queue: one millisecond passes on every time base, and the
events that have then come due are put in the queue (log 2). The manual's timed events are commands of the table. -/

namespace Sys2Proof.Machine

/-! ## The time bases -/

/-- The device clock one millisecond on: it counts seconds, whether or not the part takes events (R142). -/
def tickClock (s : State) : State :=
  match s.settlement.clock with
  | none => s
  | some t =>
    if s.settlement.clockMillis + 1 < 1000 then
      { s with settlement := { s.settlement with clockMillis := s.settlement.clockMillis + 1 } }
    else setClock (t + 1) { s with settlement := { s.settlement with clockMillis := 0 } }

/-- The time bases of the part one millisecond on (R1, R51, R87, R130, R171). -/
def tickBases (s : State) : State :=
  { s with
    field := { s.field with arrivalBase := (s.field.arrivalBase + 1) % Config.arrivalModulus }
    allocator := { s.allocator with base := s.allocator.base + 1 }
    supervisor := { s.supervisor with base := s.supervisor.base + 1 }
    contracts := { s.contracts with
      base := s.contracts.base + (s.contracts.baseMillis + 1) / 1000
      baseMillis := (s.contracts.baseMillis + 1) % 1000 }
    store := { s.store with sweepBase := s.store.sweepBase + 1 } }

/-! ## The events that have come due -/

/-- The sweep's next word falls due: its words are spread evenly over 600 s (R171). DESIGN CHOICE (log 42): each is read at the
end of its share of them, so that the last is read 600 s after the sweep began. -/
def scrubDue (s : State) : Bool :=
  (s.store.sweepPos + 1) * Config.sweepMillis ≤ (s.store.sweepBase - s.store.sweepStart) * Config.storeWords

/-- The timer expiries of a consumer that have come due (R87). -/
def consumerEvents (s : State) (c : Fin 8) : List Instr :=
  List.flatten
    [(if consumerDue s (consumer s c).purgeTimer then [.purgeExpiry c] else []),
     (if consumerDue s (consumer s c).overdrawTimer then [.overdrawMaskExpiry c] else []),
     (if consumerDue s (consumer s c).lineLowTimer then [.lineLowMaskExpiry c] else []),
     (if consumerDue s (consumer s c).passingTimer then [.passingMaskExpiry c] else []),
     (if consumerDue s (consumer s c).lowDrawTimer then [.lowDrawTimerExpiry c] else []),
     (if consumerDue s (consumer s c).recoveryTimer then [.recoveryDelayExpiry c] else [])]

/-- Every event that has come due. -/
def dueEvents (s : State) : List Instr :=
  List.flatten
    [((List.finRange 16).filter (zeroFlowDue s)).map .zeroFlowExpiry,
     ((List.finRange 22).filter (freshnessDue s)).map .freshnessExpiry,
     (if timerDue s.allocator.base s.allocator.timer then [.allocationPeriodExpiry] else []),
     (List.finRange 8).flatMap (consumerEvents s),
     ((s.contracts.proposals.map (·.number)).filter (proposalDue s)).map .proposalExpiry,
     (if boundaryDue s then [.regularBoundary] else []),
     (if scrubDue s then [.scrubRead] else [])]

/-! ## Their order -/

/-- An event goes to a place of a queue. -/
def insertAt : Nat → Instr → List Instr → List Instr
  | _, e, [] => [e]
  | 0, e, x :: rest => e :: x :: rest
  | n + 1, e, x :: rest => x :: insertAt n e rest

/-- Events due at one moment are taken in an order that the manual leaves open (0-5): each goes to an open place of the
queue (log 11). -/
def arrange (s : State) (e : Instr) : State :=
  if s.pending.isEmpty then { s with pending := [e] }
  else useFree { s with pending := insertAt (Config.tieBreak s.freeIndex % (s.pending.length + 1)) e s.pending }

/-- One millisecond, and the events that are then due. A part that takes no events has none; its clock runs on. -/
def tick (s : State) : State :=
  if s.power.running then (dueEvents (tickBases (tickClock s))).foldl arrange (tickBases (tickClock s)) else tickClock s

end Sys2Proof.Machine
end

