-- ==== Sys2Proof/Safety.lean ====
section
/-! DEFINITION. What a safe state of the part is, in the terms that the claims use: one condition for each promise that the
manual makes about its state as a whole. -/

namespace Sys2Proof.Machine

/-! ## When commands are taken without a reaction to damage -/

/-- The part runs, no word of its store is in error, and no reallocation trigger waits. -/
abbrev Calm (s : State) : Prop :=
  s.power.running = true ∧ s.store.errors = [] ∧ s.allocator.triggers = 0

/-- A request frame of the length that its command calls for, on a free port (R178, R179). -/
abbrev Taken (s : State) (f : Frame) (length : Nat) : Prop := portBusy s f.party = false ∧ f.length = length

/-! ## What a command leaves as it was -/

/-- A record with the four supervision timers of another. -/
def withTimers (r r' : Consumer) : Consumer :=
  { r with
    overdrawTimer := r'.overdrawTimer, lineLowTimer := r'.lineLowTimer, passingTimer := r'.passingTimer
    lowDrawTimer := r'.lowDrawTimer }

/-- A record with the purge target, reservation status and shed flag of another. -/
def withPurge (r r' : Consumer) : Consumer :=
  { r with target := r'.target, reservation := r'.reservation, shedFlag := r'.shedFlag }

/-- Every consumer keeps all but its four supervision timers, and every one but `c` these too. -/
abbrev ConsumersKept (s t : State) (c : Option (Fin 8)) : Prop :=
  t.supervisor.base = s.supervisor.base ∧
  ∀ d : Fin 8, consumer t d = withTimers (consumer s d) (consumer t d) ∧ (c ≠ some d → consumer t d = consumer s d)

/-- A consumer is left as an evaluation point at the state `s` makes it (R88, R89). -/
abbrev EvaluatedAt (s t : State) (c : Option (Fin 8)) : Prop := ∀ d : Fin 8, c = some d → consumer t d = evaluated s d

/-- An open record without the marks and counts that a pulse may change. -/
def withoutMarks (o : OpenRecord) : OpenRecord :=
  { o with
    estimatedGas := Vector.replicate 12 false, estimatedHeat := Vector.replicate 3 false, reverse := Vector.replicate 3 0 }

/-- An input of a pulse is doubtful: HELD, NEVER, or VALID with its uncertain mark set (R31). -/
abbrev InputDoubtful (s : State) (k : Fin 22) : Prop := (sample s k).state ≠ .valid ∨ (sample s k).uncertain = true

/-- The open record after a pulse on the channel: the ESTIMATED mark of the channel is set where one of the pulse's inputs is
doubtful, the reverse-ΔT count of its heat point rises where the return lies above the supply, and nothing else of the record
moves (R26, R31, R149). -/
abbrev MarkedByPulse (s t : State) (ch : Fin 16) : Prop :=
  t.settlement.openRecord.map withoutMarks = s.settlement.openRecord.map withoutMarks ∧
  ∀ o o' : OpenRecord, s.settlement.openRecord = some o → t.settlement.openRecord = some o' →
    (∀ g : Fin 12, o'.estimatedGas[g] = (o.estimatedGas[g] || decide (g.val = ch.val ∧
      (InputDoubtful s 4 ∨ InputDoubtful s 5 ∨ InputDoubtful s (if h : g.val < 4 then ⟨g, by omega⟩ else 21))))) ∧
    (∀ n : Fin 3, o'.estimatedHeat[n] = (o.estimatedHeat[n] || decide (12 + n.val = ch.val ∧
      (InputDoubtful s ⟨15 + 2 * n, by omega⟩ ∨ InputDoubtful s ⟨16 + 2 * n, by omega⟩)))) ∧
    ∀ n : Fin 3, o'.reverse[n] =
      if 12 + n.val = ch.val ∧ max 0 (min 18000 (valueInUse s ⟨15 + 2 * n, by omega⟩)) <
        max 0 (min 18000 (valueInUse s ⟨16 + 2 * n, by omega⟩)) then min 65535 (o.reverse[n] + 1) else o.reverse[n]

/-- Settlement as it was, but for the open record. -/
abbrev SettlementKept (s t : State) : Prop :=
  { t.settlement with openRecord := none } = { s.settlement with openRecord := none }

/-- No notice of another class is touched, no mask and no port. -/
abbrev OtherNoticesKept (s t : State) (k : Fin 10) : Prop :=
  t.links.ports = s.links.ports ∧ t.links.masks = s.links.masks ∧
  ∀ p : Fin 3, ∀ j : Fin 10, j ≠ k → t.links.notices[p][j] = s.links.notices[p][j]

/-- The permissive lines stand; only attention lines may move. -/
abbrev PermissivesKept (s t : State) : Prop :=
  t.lines.gasEn = s.lines.gasEn ∧ t.lines.backupEn = s.lines.backupEn ∧ t.lines.flareEn = s.lines.flareEn

/-- What neither an allocation event nor the commands that hand one over touch: pins, channels, totals, band, exports,
contract, store and queue, and of settlement all but the open record's flare accumulator (R54, R65). -/
abbrev OutsideAllocationKept (s t : State) : Prop :=
  t.power = s.power ∧ t.freeIndex = s.freeIndex ∧ t.field = s.field ∧ t.metering = s.metering ∧ t.band = s.band ∧
  t.exports = s.exports ∧ t.contracts = s.contracts ∧ t.store = s.store ∧ t.pending = s.pending ∧
  t.links.masks = s.links.masks ∧ SettlementKept s t ∧
  t.settlement.openRecord.map (fun o => { o with flare := 0 }) =
    s.settlement.openRecord.map (fun o => { o with flare := 0 })

/-- A response on the port of a party, the others as they were (R178). -/
abbrev Answered (s t : State) (p : Party) (r : Response) : Prop :=
  t.links.ports = s.links.ports.set (partyIndex p) (some r)

/-- Where stage 1 leaves a consumer that purges toward ACTIVE: a HOLDING reservation with its shed flag clear, or a lost one
with its shed flag set and the target BACKUP or SHED (R58). -/
abbrev Reserved (s : State) (c : Fin 8) : Prop :=
  ((consumer s c).reservation = .holding ∧ (consumer s c).target = some .active ∧ (consumer s c).shedFlag = false) ∨
  ((consumer s c).reservation = .none ∧ (consumer s c).shedFlag = true ∧
    (consumer s c).target = some (if hasBackup s c then .backup else .shed))

/-- One TRIP occurrence for the owner of a consumer and for WORKS, with its causes and the device time (R93). -/
abbrev TripNoticed (s t : State) (c : Fin 8) (causes : CauseSet) : Prop :=
  ∀ p : Party, t.links.notices[partyIndex p][clsTrip] =
    if p = ownerOf s c ∨ p = .works then
      addOccurrence (.trip c causes s.settlement.clock) s.links.notices[partyIndex p][clsTrip]
    else s.links.notices[partyIndex p][clsTrip]

/-- A timer is running and has run its length (R87). -/
abbrev Ran (base : Nat) (t : Option Timer) : Prop := ∃ tm : Timer, t = some tm ∧ tm.start + tm.length ≤ base

/-- The command's timed event has fallen due at the time bases as they stand: zero flow (R7), freshness (R14), the allocation
period (R52), a consumer's timer (R87), the expiry time of an OPEN entry (R130), the end of the open record (R147), and the
sweep's next word, the words being spread evenly over 600 s (R171) and each read at the end of its share (log 42). No other
command is an event of time. -/
def Falls (t : State) : Instr → Prop
  | .zeroFlowExpiry ch => (channel t ch).state ≠ .noFlow ∧
      ∃ last, (channel t ch).lastArrival = some last ∧ 1000 * itemNat t (zeroFlowItem ch) ≤ sinceArrival t last
  | .freshnessExpiry k => ∃ tm : Timer, (sample t k).timer = some tm ∧ tm.length ≤ sinceArrival t tm.start
  | .allocationPeriodExpiry => t.allocator.timer.start + t.allocator.timer.length ≤ t.allocator.base
  | .purgeExpiry c => Ran t.supervisor.base (consumer t c).purgeTimer
  | .overdrawMaskExpiry c => Ran t.supervisor.base (consumer t c).overdrawTimer
  | .lineLowMaskExpiry c => Ran t.supervisor.base (consumer t c).lineLowTimer
  | .passingMaskExpiry c => Ran t.supervisor.base (consumer t c).passingTimer
  | .lowDrawTimerExpiry c => Ran t.supervisor.base (consumer t c).lowDrawTimer
  | .recoveryDelayExpiry c => Ran t.supervisor.base (consumer t c).recoveryTimer
  | .proposalExpiry number => ∃ (e : Proposal) (due : Nat),
      entryOf t number = some e ∧ e.staged = false ∧ e.expiry = some due ∧ due ≤ t.contracts.base
  | .regularBoundary => ∃ (k : Nat) (o : OpenRecord),
      t.settlement.clock = some k ∧ t.settlement.openRecord = some o ∧ o.stop ≤ k
  | .scrubRead => (t.store.sweepPos + 1) * 600000 ≤ (t.store.sweepBase - t.store.sweepStart) * 16384
  | _ => False

/-- The recovery delay that a consumer starts on entering TRIPPED: in AUTO with its count below 3, with the delay in force;
otherwise none runs (R93, R97). -/
def recoveryStarted (s : State) (c : Fin 8) : Option Timer :=
  if isAuto s c = true ∧ (consumer s c).recoveryCount < 3 then
    some { start := s.supervisor.base, length := 1000 * consumerItem s c cRecoveryDelay }
  else none

/-- A consumer that has entered TRIPPED carries the present device time and its causes as the last trip, and its recovery delay
is started where it applies (R93, R97). -/
abbrev TripTimed (s t : State) (c : Fin 8) : Prop :=
  (consumer t c).lastTrip = some { time := s.settlement.clock, causes := (consumer t c).causes } ∧
  (consumer t c).recoveryTimer = recoveryStarted s c

/-- A change of the item can lower the demand of consumer `d`: its ceilings, its export link, and for the export-linked
consumer the heat rate and, while the clock is UNSET, the default export (R69, R109, R110), which is deduced (log 18). -/
abbrev LowersDemand (s : State) (d : Fin 8) (i : Item) : Prop :=
  i = .consumer d cCeiling ∨ i = .consumer d cHardCeiling ∨ i = .consumer d cLinked ∨
  (isLinked s d = true ∧ (i = .exportItem xHeatRate ∨ (i = .exportItem xDefaultExport ∧ s.settlement.clock = none)))

/-- What a change of one item in force does to the block that reads it: the allocation event after a source's in-service item
(R53), a zero-flow expiry already passed (R3), the cut of a grant (R69), the recovery delay (R97), and the evaluation point of a
consumer (R100); every other item acts at its reader's next event (R117). That the value already in force acts as a change is
deduced (log 18). -/
abbrev ActedOn (s t : State) (i : Item) (v : Int) : Prop :=
  ((∃ n, i = .source n sInService) → t.allocator.result.timeBase = some s.allocator.base ∧
    t.allocator.timer = { start := s.allocator.base, length := 1000 * itemNat t .allocationPeriod }) ∧
  ((∀ n, i ≠ .source n sInService) →
    t.allocator = { s.allocator with result := { s.allocator.result with
      grants := t.allocator.result.grants, surplus := t.allocator.result.surplus } } ∧
    ∀ d : Fin 8,
      (LowersDemand s d i → grant t d = min (grant s d) (demand t d)) ∧
      (¬ LowersDemand s d i → grant t d = grant s d) ∧
      ((∃ k, i = .consumer d k) → consumer t d = evaluated (setConsumer d
        { consumer s d with damageMark := false, recoveryTimer := (consumer t d).recoveryTimer }
        { t with supervisor := s.supervisor }) d) ∧
      ((∀ k, i ≠ .consumer d k) → consumer t d =
        if grant t d = grant s d then consumer s d else evaluated { t with supervisor := s.supervisor } d)) ∧
  (∀ c : Fin 8, (consumer t c).recoveryTimer =
    if i ≠ .consumer c cRecoveryMode then (consumer s c).recoveryTimer
    else if v ≠ 1 then none
    else if (consumer s c).state = .tripped ∧ (consumer s c).recoveryCount < 3 then
      some ((consumer s c).recoveryTimer.getD
        { start := s.supervisor.base, length := 1000 * consumerItem s c cRecoveryDelay })
    else (consumer s c).recoveryTimer) ∧
  ((∃ ch last, zeroFlowChannel i = some ch ∧ (channel s ch).state ≠ .noFlow ∧ (channel s ch).lastArrival = some last ∧
      1000 * v.toNat ≤ sinceArrival s last ∧ t.field = (setChannel ch
        { state := .noFlow, lastArrival := none, period := none, lastEnergy := none, rate := 0,
          noise := (channel s ch).noise } s).field) ∨
    (t.field = s.field ∧ ∀ ch last, zeroFlowChannel i = some ch → (channel s ch).state ≠ .noFlow →
      (channel s ch).lastArrival = some last → sinceArrival s last < 1000 * v.toNat))

/-- What a boundary does to recovery: every count returns to 0, and a TRIPPED consumer in AUTO has its delay running, which was
started where none ran; a mode that an application changes to MANUAL stops it (R97, R98). -/
abbrev RecoveryAtBoundary (s t : State) : Prop :=
  ∀ c : Fin 8, (consumer t c).recoveryCount = 0 ∧
    ((consumer s c).state = .tripped → isAuto t c = true → (consumer t c).recoveryTimer.isSome = true) ∧
    (isAuto s c = true → isAuto t c = false → (consumer t c).recoveryTimer = none) ∧
    ((∀ e ∈ s.contracts.proposals, e.staged = true → ∀ x ∈ e.items, x.1 ≠ .item (.consumer c cRecoveryMode)) →
      (consumer t c).recoveryTimer =
        if (consumer s c).state = .tripped ∧ isAuto t c = true then
          some ((consumer s c).recoveryTimer.getD
            { start := s.supervisor.base, length := 1000 * consumerItem t c cRecoveryDelay })
        else (consumer s c).recoveryTimer)

/-! ## The order of an allocation event (4-4) -/

/-- The sum of `f` over the slots that a condition picks. -/
def sumOver (p : Fin 8 → Bool) (f : Fin 8 → Nat) : Nat := (((List.finRange 8).filter p).map f).sum

/-- Slot `d` comes before slot `c` in order of class from 0 to 3, and within a class in ascending slot order (R57). -/
def comesBefore (s : State) (d c : Fin 8) : Bool :=
  classOf s d < classOf s c || (classOf s d == classOf s c && d < c)

/-- A slot's part of `amount` shared in proportion to weights over the slots that a condition picks: rounded down, and one
of the leftover kW where fewer slots of weight above 0 lie below it than are left over (R60, R62). -/
def partOf (p : Fin 8 → Bool) (w : Fin 8 → Nat) (amount : Nat) (c : Fin 8) : Nat :=
  w c * amount / sumOver p w +
  if 0 < w c ∧ sumOver (fun d => p d && 0 < w d && d < c) (fun _ => 1) <
      amount - sumOver p (fun d => w d * amount / sumOver p w) then 1
  else 0

/-- Stage 1: a candidate holds a reservation of its lit floor while Φ and the floors of the candidates up to it fit in A, and
loses it otherwise (R58). -/
abbrev ReservationsDecided (s t : State) : Prop :=
  ∀ c : Fin 8, isCandidate s c = true →
    if floorSum s + sumOver (fun d => isCandidate s d && !comesBefore s c d) (litFloor s) ≤ availableRate s then
      (consumer t c).reservation = .holding ∧ (consumer t c).target = some .active ∧ reservation t c = litFloor s c ∧
      (consumer t c).shedFlag = ((consumer s c).shedFlag && (consumer s c).reservation != .awaiting)
    else
      (consumer t c).reservation = .none ∧ (consumer t c).target = some (if hasBackup s c then .backup else .shed) ∧
      reservation t c = 0 ∧ (consumer t c).shedFlag = true

/-- Stage 2: an ACTIVE consumer of class 1 to 3 is shed exactly where the lit floors of those not shed before it still exceed
A; a shed one has its flag set and goes toward BACKUP through a purge, or to SHED (R59). -/
abbrev ShedInOrder (s t : State) : Prop :=
  ∀ c : Fin 8, lit s c = true →
    (lit t c = false ↔
      classOf s c ≠ 0 ∧ availableRate s < sumOver (fun d => lit s d && !comesBefore s c d) (litFloor s)) ∧
    (lit t c = false → grant t c = 0 ∧ (consumer t c).shedFlag = true ∧
      if hasBackup s c then (consumer t c).state = .purging ∧ (consumer t c).target = some .backup
      else (consumer t c).state = .shed)

/-- Stage 4: of the consumers in BACKUP or SHED with the shed flag set the first is restored, where the event sheds no one,
the band is NORMAL or above, and the rate left covers its floor and the restore margin; no other is (R61). -/
abbrev FirstWaitingRestored (s t : State) : Prop :=
  ∀ c : Fin 8, isWaiting s c = true →
    ((consumer t c).state = .purging ↔
      (∀ d : Fin 8, isWaiting s d = true → comesBefore s d c = false) ∧
      (s.band = .normal ∨ s.band = .high ∨ s.band = .highHigh) ∧ floorSum s ≤ availableRate s ∧
      litFloor s c + itemNat s (.holder hRestoreMargin) ≤
        availableRate s - floorSum s - sumOver (isCandidate s) (reservation t)) ∧
    ((consumer t c).state = .purging → (consumer t c).target = some .active ∧ (consumer t c).reservation = .holding ∧
      reservation t c = litFloor s c ∧ (consumer t c).shedFlag = false) ∧
    ((consumer t c).state ≠ .purging → (consumer t c).state = (consumer s c).state ∧ (consumer t c).shedFlag = true)

/-- What an ACTIVE consumer wants above its lit floor (R62). -/
def wantOf (s : State) (c : Fin 8) : Nat := demand s c - litFloor s c

/-- The rate left for a class in the nomination pass (R62). -/
def leftFor (s t : State) (k : Nat) : Nat :=
  availableRate s - sumOver (lit t) (litFloor s) - sumOver (fun _ => true) (reservation t) -
    sumOver (fun d => lit t d && classOf s d < k) (wantOf s)

/-- Stages 3 and 5: where the floors of those still ACTIVE exceed A, A is shared in proportion to them; otherwise each has its
floor, and the classes in turn have their wants, the class that cannot have all of them in proportion (R60, R62). -/
abbrev GrantsShared (s t : State) : Prop :=
  ∀ c : Fin 8, lit t c = true → grant t c =
    if availableRate s < sumOver (lit t) (litFloor s) then partOf (lit t) (litFloor s) (availableRate s) c
    else
      let peers := fun d => lit t d && classOf s d == classOf s c
      litFloor s c +
        if sumOver peers (wantOf s) ≤ leftFor s t (classOf s c) then wantOf s c
        else partOf peers (wantOf s) (leftFor s t (classOf s c)) c

/-- The notices of an event: SHED for each slot shed or bereft of its reservation and for the one restored, to its owner and
WORKS, and GRANT for each slot whose grant changed, to its owner, both in ascending slot order (R66, R86, R186). -/
abbrev EventTold (s t : State) : Prop :=
  ∀ p : Party,
    t.links.notices[partyIndex p][clsShed] = (List.finRange 8).foldl (fun n c =>
      if p ≠ ownerOf s c ∧ p ≠ .works then n
      else if (lit s c = true ∧ lit t c = false) ∨ (isCandidate s c = true ∧ isCandidate t c = false) then
        addOccurrence (.shed c false) n
      else if isWaiting s c = true ∧ isWaiting t c = false then addOccurrence (.shed c true) n
      else n) s.links.notices[partyIndex p][clsShed] ∧
    t.links.notices[partyIndex p][clsGrant] = (List.finRange 8).foldl (fun n c =>
      if p = ownerOf s c ∧ grant t c ≠ grant s c then addOccurrence (.grant c (grant t c)) n else n)
      s.links.notices[partyIndex p][clsGrant]

/-! ## Output lines -/

/-- Each valve line follows its consumer's state (R75), FLARE_EN the flare demand (R45) and each attention line the pending,
unmasked classes of its party (R189); in a stopped part every line is low (R193). -/
abbrev LinesFollow (s : State) : Prop :=
  (∀ c : Fin 8, s.lines.gasEn[c] = (s.power.running && (consumer s c).state == .active)) ∧
  (∀ c : Fin 8, s.lines.backupEn[c] = (s.power.running && (consumer s c).state == .backup)) ∧
  (s.lines.flareEn = (s.power.running && decide (0 < s.allocator.result.flareDemand))) ∧
  (∀ p : Fin 3, s.lines.attn[p] = (s.power.running && attnCalled s.links.notices[p] s.links.masks[p]))

/-! ## Consumers -/

/-- One consumer's record is consistent: a purge target and a purge timer in PURGING only, a reservation status with target
ACTIVE only (Table 5-1-2); the ACTIVE conditions timed in ACTIVE only, the passing condition outside it (Table 5-6-1); a
cause in TRIPPED only (R93); the recovery delay in TRIPPED only and at most three recoveries (R97). -/
abbrev RecordConsistent (r : Consumer) : Prop :=
  (r.target.isSome = (r.state == .purging)) ∧
  (r.purgeTimer.isSome = (r.state == .purging)) ∧
  ((r.reservation != .none) = (r.target == some .active)) ∧
  (r.state ≠ .active → r.overdrawTimer = none ∧ r.lineLowTimer = none ∧ r.lowDrawTimer = none) ∧
  (r.state = .active → r.passingTimer = none) ∧
  ((r.causes != noCauses) = (r.state == .tripped)) ∧
  (r.state ≠ .tripped → r.recoveryTimer = none) ∧
  r.recoveryCount ≤ 3

abbrev ConsumersConsistent (s : State) : Prop := ∀ c : Fin 8, RecordConsistent (consumer s c)

/-! ## The standing allocation result -/

/-- The grants, the reservations and the surplus make up the available rate (R50). -/
abbrev Balanced (a : Allocation) : Prop := sumVec a.grants + sumVec a.reservations + a.surplus = a.available

/-- The result balances; a grant is nonzero in ACTIVE only (R67), and a reservation in PURGING toward ACTIVE only (R58). -/
abbrev AllocationSound (s : State) : Prop :=
  Balanced s.allocator.result ∧
  (∀ c : Fin 8, grant s c ≠ 0 → (consumer s c).state = .active) ∧
  (∀ c : Fin 8, reservation s c ≠ 0 → (consumer s c).state = .purging ∧ (consumer s c).target = some .active)

/-- A running part has its main supply (R175), and grants no consumer more than its nomination or its ceilings (R67). -/
abbrev GrantsWithinLimits (s : State) : Prop :=
  s.power.running = true → s.power.mainSupply = true ∧
    ∀ c : Fin 8, grant s c ≤ min (consumer s c).nomination (effectiveCeiling s c)

/-! ## Settlement -/

/-- A record is open, and an export latched, exactly while the clock is RUNNING; the open record's number is one less than
the next, which is 1 until the first record opens (R108, R149, R150, R160). -/
abbrev OneOpenRecord (s : State) : Prop :=
  (s.settlement.openRecord.isSome = s.settlement.clock.isSome) ∧
  (s.exports.latch.isSome = s.settlement.clock.isSome) ∧
  (∀ o, s.settlement.openRecord = some o → s.settlement.nextRecord = o.number + 1) ∧
  (s.settlement.clock = none → s.settlement.nextRecord = 1)

/-- The record that a boundary opens at a start, in the contract that the boundary leaves (R147, R148, R150). -/
abbrev OpenedAt (s t : State) (start : Nat) (o : OpenRecord) : Prop :=
  t.settlement.openRecord = some o ∧ o.number = s.settlement.nextRecord ∧ t.settlement.nextRecord = o.number + 1 ∧
  o.start = start ∧ o.stop = start - start % itemNat t .intervalLength + itemNat t .intervalLength ∧
  o.band = bandAt t start ∧ o.heatPrice = heatPriceOf t (bandAt t start) ∧ o.gasPrice = gasPriceOf t (bandAt t start) ∧
  o.revision = t.contracts.revision ∧ o.opening = s.metering.totals ∧
  o.short = decide (start % itemNat t .intervalLength ≠ 0) ∧ o.commissioning = !t.contracts.locked ∧
  o.contractChanged = decide (t.contracts.revision ≠ s.contracts.revision) ∧ o.contractDamaged = false ∧
  o.estimatedGas = Vector.replicate 12 false ∧ o.estimatedHeat = Vector.replicate 3 false ∧
  o.reverse = Vector.replicate 3 0 ∧ o.flare = 0 ∧ o.trimmed = false

/-- The latch that a boundary makes for the regular start `r`, and the entries that it leaves listed (R108, R109). -/
abbrev LatchedAt (s t : State) (r : Nat) : Prop :=
  (∀ e ∈ s.exports.schedule, e.start = r → t.exports.latch = some ⟨e.kw, .entry⟩) ∧
  ((∀ e ∈ s.exports.schedule, e.start ≠ r) →
    t.exports.latch = some ⟨itemNat t (.exportItem xDefaultExport), .default⟩) ∧
  ∀ e : ScheduleEntry, e ∈ t.exports.schedule ↔ e ∈ s.exports.schedule ∧ r < e.start ∧
    (itemNat t .intervalLength = itemNat s .intervalLength ∨ e.start % itemNat t .intervalLength = 0)

/-- The archive record that a boundary forms from the open record `o`, closed at the device time `stop`, with its flare energy
and the marks that the closing sets, and the two TOWN accounts after it (R112, R113, R152 to R154). Where the start lies past
`stop` the length is left open, and the scheduled energy is formed from the value it has (log 40). -/
abbrev RecordedAs (s t : State) (o : OpenRecord) (r : ArchiveRecord) (stop flare : Nat) (step outage : Bool) : Prop :=
  r.number = o.number ∧ r.start = o.start ∧ (o.start ≤ stop → r.length = stop - o.start) ∧ r.band = o.band ∧ r.revision = o.revision ∧
  r.outage = (o.outage || outage) ∧ r.clockStep = (o.clockStep || step) ∧ r.short = o.short ∧
  r.commissioning = o.commissioning ∧ r.contractChanged = o.contractChanged ∧ r.contractDamaged = o.contractDamaged ∧
  r.estimatedGas = o.estimatedGas ∧ r.estimatedHeat = o.estimatedHeat ∧ r.reverse = o.reverse ∧ r.flare = flare ∧
  r.heatPrice = o.heatPrice ∧ r.gasPrice = o.gasPrice ∧ r.closing = s.metering.totals ∧
  (∀ ch : Fin 16, r.energies[ch] =
    (s.metering.totals[ch] + 10000000000000 - o.opening[ch] % 10000000000000) % 10000000000000) ∧
  r.latch = ⟨scheduledExport s, scheduledSource s⟩ ∧ r.scheduled = scheduledExport s * r.length * 10 / 36 ∧
  r.deviation = (r.energies[15] : Int) - r.scheduled ∧
  r.townHeat = r.energies[12] + r.energies[13] + r.energies[14] ∧
  r.townGas = ((List.finRange 8).map fun c => if ownerOf s c = .town then r.energies[drawChannel c] else 0).sum ∧
  r.heatAccount = t.settlement.heatAccount ∧ r.gasAccount = t.settlement.gasAccount ∧
  t.settlement.heatAccount.amount = s.settlement.heatAccount.amount + r.townHeatAmount ∧
  1000000 * r.townHeatAmount + t.settlement.heatAccount.remainder =
    s.settlement.heatAccount.remainder + r.townHeat * o.heatPrice ∧
  t.settlement.heatAccount.remainder < 1000000 ∧
  t.settlement.gasAccount.amount = s.settlement.gasAccount.amount + r.townGasAmount ∧
  1000000 * r.townGasAmount + t.settlement.gasAccount.remainder =
    s.settlement.gasAccount.remainder + r.townGas * o.gasPrice ∧
  t.settlement.gasAccount.remainder < 1000000

/-- The cursors once the next record number is `n`: in an empty ring every one stands there (R155). -/
def cursorsAt (s : State) (n : Nat) : Vector Nat 3 :=
  if s.settlement.archive.isEmpty then Vector.replicate 3 n else s.settlement.cursors

/-- The ring after a record joins it: the oldest record of a full ring gives way, a cursor below the new oldest moves to it
with its gap mark set, and the place is no longer known damaged (R155, R169). In a ring that was empty every cursor finds the
record that joins, its gap mark as it was, which is deduced (log 22). -/
abbrev Joined (s t : State) (r : ArchiveRecord) : Prop :=
  t.settlement.archive = (if s.settlement.archive.length < 96 then s.settlement.archive else s.settlement.archive.drop 1) ++ [r] ∧
  (∀ p : Fin 3,
    t.settlement.cursors[p] =
      (if s.settlement.archive.isEmpty then r.number else max s.settlement.cursors[p] (oldestNumber t)) ∧
    t.settlement.gapMarks[p] = (s.settlement.gapMarks[p] ||
      (!s.settlement.archive.isEmpty && decide (s.settlement.cursors[p] < oldestNumber t)))) ∧
  t.store.knownDamaged = s.store.knownDamaged.set (placeOf r.number) false

/-- The flare accumulator of the open record with the flare standing since its credit point credited (R65). -/
abbrev creditedFlare (s : State) (o : OpenRecord) : Nat :=
  flareSum o.flare (s.allocator.result.flareDemand * ((s.allocator.base - s.allocator.result.creditPoint) / 1000))

/-- What no boundary touches: pins, sample records, totals, band, time bases, masks and queue. -/
abbrev OutsideBoundaryKept (s t : State) : Prop :=
  t.power = s.power ∧ t.field.samples = s.field.samples ∧ t.field.arrivalBase = s.field.arrivalBase ∧
  t.metering = s.metering ∧ t.band = s.band ∧ t.allocator.base = s.allocator.base ∧
  t.supervisor.base = s.supervisor.base ∧ t.contracts.base = s.contracts.base ∧ t.links.masks = s.links.masks ∧
  t.pending = s.pending

/-- Record numbers that follow one another. -/
def consecutive : List Nat → Bool
  | [] => true
  | [_] => true
  | a :: b :: rest => b == a + 1 && consecutive (b :: rest)

/-- The ring holds at most 96 records with consecutive numbers, which the open record's number continues, and every cursor
lies from the oldest to one past the newest, both of which are the next record number in an empty ring (R155). -/
abbrev ArchiveOrdered (s : State) : Prop :=
  s.settlement.archive.length ≤ Config.archiveCapacity ∧
  consecutive (s.settlement.archive.map (·.number)) = true ∧
  (s.settlement.archive ≠ [] → s.settlement.clock.isSome = true) ∧
  (∀ o, s.settlement.openRecord = some o → s.settlement.archive ≠ [] → o.number = newestPlusOne s) ∧
  (∀ p : Fin 3, oldestNumber s ≤ s.settlement.cursors[p] ∧ s.settlement.cursors[p] ≤ newestPlusOne s)

/-! ## The contract and the two lists -/

/-- Every item in force lies in its range (R118). -/
def ContractInRange (s : State) : Prop := ∀ i : Item, itemInRange i (item s i) = true

/-- At most 8 entries with different numbers; no item in two entries; a STAGED entry and no other is without an expiry
time; every value in its range (R118, R126, R128). -/
abbrev ProposalsSound (s : State) : Prop :=
  s.contracts.proposals.length ≤ 8 ∧
  (s.contracts.proposals.map (·.number)).Nodup ∧
  (s.contracts.proposals.flatMap fun e => e.items.map (·.1)).Nodup ∧
  (∀ e ∈ s.contracts.proposals, e.expiry.isNone = e.staged ∧ (1 ≤ e.number ∧ e.number ≤ 65535) ∧
    ∀ i ∈ e.items, refInRange i.1 i.2 = true) ∧
  (1 ≤ s.contracts.nextProposal ∧ s.contracts.nextProposal ≤ 65535)

/-- At most 8 schedule entries with rising starts, none while the clock is UNSET (R103). -/
abbrev ScheduleOrdered (s : State) : Prop :=
  s.exports.schedule.length ≤ 8 ∧ s.exports.schedule.Pairwise (fun a b => a.start < b.start) ∧
  (s.settlement.clock = none → s.exports.schedule = [])

/-- Whether a PROPOSE passes each of the nine checks, in their order (R127). -/
def passesCheck (p : Party) (items : List (ItemRef × Int)) (s : State) : Fin 9 → Bool
  | 0 => decide (1 ≤ items.length ∧ items.length ≤ 6 ∧ (items.map (·.1)).Nodup ∧
      (items.length = 1 ∨ ∀ e ∈ items, e.1 ≠ .offset ∧ e.1 ≠ .lock))
  | 1 => items.all fun e => isWriteOnlyRef e.1 || hasParty (refSet (projected s) e.1) p
  | 2 => decide ((∃ e ∈ items, e.1 = .offset) → s.settlement.clock ≠ none)
  | 3 => items.all fun e => entryNaming s e.1 == none
  | 4 => decide (s.contracts.proposals.length < 8)
  | 5 => items.all fun e => refInRange e.1 e.2
  | 6 => consistent (projected s) (heldItems items)
  | 7 => decide (s.contracts.locked = true → ∀ e ∈ items, isWriteOnlyRef e.1 = false)
  | 8 => decide ((∀ e ∈ items, isWriteOnlyRef e.1 = false) ∧ (s.contracts.locked = true → ∀ e ∈ items, e.1 ≠ .lock))

/-- The status of the refusal at each of the nine checks (R127). -/
def proposeRefusal : Fin 9 → Status
  | 0 => .outOfRange
  | 1 => .notParty
  | 2 => .clockUnset
  | 3 => .conflict
  | 4 => .tableFull
  | 5 => .outOfRange
  | 6 => .inconsistent
  | 7 => .locked
  | 8 => .wrongState

/-- What a boundary does with an entry of the table (R134): an OPEN one stays. -/
inductive Fate where
  | kept
  | deferred
  | discarded
  | applied
  deriving DecidableEq, Repr

/-- The fate of an entry against the running base, where some consumers are not OFF (R134). -/
def fateOf (busy : Fin 8 → Bool) (base : Contract) (e : Proposal) : Fate :=
  if !e.staged then .kept
  else if (List.finRange 8).any fun c =>
      busy c && (heldItems e.items).any fun i => isStructural i.1 && itemConsumer i.1 == some c then .deferred
  else if consistent base (heldItems e.items) then .applied
  else .discarded

/-- The entries of a list with their fates, taken one at a time; the running base takes the values of those applied
(R134). -/
def fates (busy : Fin 8 → Bool) : Contract → List Proposal → List (Proposal × Fate)
  | _, [] => []
  | base, e :: rest =>
    (e, fateOf busy base e) ::
      fates busy (if fateOf busy base e = .applied then withChanges base (heldItems e.items) else base) rest

/-- The items that the applied entries of a list carry, in their order. -/
def appliedItems (fs : List (Proposal × Fate)) : List (Item × Int) :=
  fs.flatMap fun x => if x.2 = .applied then heldItems x.1.items else []

/-- The contract and the table after the STAGED entries of `fs` have been taken, the rest of the Contract Unit being as in `s`;
the revision rises once where one was applied, and the damage marks of the consumers whose items it carries are cleared
(R99, R134, R135). -/
abbrev EntriesTaken (s t : State) (fs : List (Proposal × Fate)) : Prop :=
  t.contracts = { s.contracts with
    contract := withChanges s.contracts.contract (appliedItems fs)
    proposals := fs.filterMap fun x =>
      match x.2 with
      | .kept => some x.1
      | .deferred => some { x.1 with deferred := true }
      | .discarded => none
      | .applied => none
    revision := if ∃ x ∈ fs, x.2 = .applied then (s.contracts.revision + 1) % 4294967296 else s.contracts.revision } ∧
  ∀ c : Fin 8, (consumer t c).damageMark =
    ((consumer s c).damageMark && !(appliedItems fs).any fun i => itemConsumer i.1 == some c)

/-- A party's PROPOSAL record after the APPLIED and DISCARDED notices of a boundary, in list order (R132, R134, R186). -/
def toldOf (p : Party) (fs : List (Proposal × Fate)) (n : NoticeRecord) : NoticeRecord :=
  fs.foldl (fun n x =>
    if hasParty (addParty x.1.parties x.1.proposer) p then
      match x.2 with
      | .applied => addOccurrence (.proposal x.1.number .applied) n
      | .discarded => addOccurrence (.proposal x.1.number .discarded) n
      | .kept => n
      | .deferred => n
    else n) n

/-! ## Channels, totals, notices, store -/

/-- One channel's record: what is present in which state (Table 1-2-1), and the rate limit (R9). -/
abbrev ChannelConsistent (r : PulseChannel) : Prop :=
  (r.lastArrival.isSome = (r.state != .noFlow)) ∧ (r.lastEnergy.isSome = (r.state != .noFlow)) ∧
  (r.period.isSome = (r.state == .flowing)) ∧ (r.state ≠ .flowing → r.rate = 0) ∧ r.rate ≤ Config.maxRate ∧
  r.noise ≤ 65535

/-- One sample record: a last valid value from the first valid frame on, the freshness timer in VALID only, the uncertain
mark clear in NEVER (R12 to R17). -/
abbrev SampleConsistent (r : SampleRecord) : Prop :=
  (r.lastValid.isSome = (r.state != .never)) ∧ (r.timer.isSome = (r.state == .valid)) ∧
  (r.state = .never → r.uncertain = false)

abbrev FieldConsistent (s : State) : Prop :=
  (∀ ch : Fin 16, ChannelConsistent (channel s ch)) ∧ (∀ k : Fin 22, SampleConsistent (sample s k))

/-- Every total, standing or archived, is below 10^13, and every remainder below one Wh (R21, R25, R28). -/
abbrev TotalsInRange (s : State) : Prop :=
  (∀ ch : Fin 16, s.metering.totals[ch] < Config.totalModulus) ∧
  (∀ ch : Fin 15, s.metering.remainders[ch] < unitsPerWh ⟨ch, by omega⟩) ∧
  (∀ r ∈ s.settlement.archive, ∀ ch : Fin 16, r.closing[ch] < Config.totalModulus)

/-- A pending class has a count from 1 to 255 and a detail, one that is not pending neither (R184); no party masks an ALARM
class (R187). -/
abbrev NoticesSound (s : State) : Prop :=
  (∀ p : Fin 3, ∀ k : Fin 10,
    (s.links.notices[p][k].pending = decide (1 ≤ s.links.notices[p][k].count)) ∧
    (s.links.notices[p][k].detail.isSome = s.links.notices[p][k].pending) ∧ s.links.notices[p][k].count ≤ 255) ∧
  (∀ p : Fin 3, s.links.masks[p][clsTrip] = false ∧ s.links.masks[p][clsIntegrity] = false)

/-- The words in error stand in rising order, and the counts of the report and the sweep's position in their ranges
(R166, R167, R171). -/
abbrev StoreSound (s : State) : Prop :=
  errorsInOrder s.store.errors = true ∧ s.store.sweepPos < Config.storeWords ∧
  s.store.report.corrected ≤ 65535 ∧ s.store.report.uncorrectable ≤ 65535 ∧ s.store.report.sweeps ≤ 65535

/-! ## Damage that the sweep finds -/

/-- The newest archive record whose place is not known damaged (R34, R163). -/
def newestGood (s : State) : Option ArchiveRecord :=
  s.settlement.archive.reverse.find? fun r => !s.store.knownDamaged[placeOf r.number]

/-- The archive record before the open record `o`: the newest, where it is not known damaged and its number is one less
(R162). -/
def recordBefore (s : State) (o : OpenRecord) : Option ArchiveRecord :=
  match s.settlement.archive.getLast? with
  | some r => if s.store.knownDamaged[placeOf r.number] = false ∧ o.number = r.number + 1 then some r else none
  | none => none

/-- A field of the open record replaced, by its index of Table 9-1-1 (R162). -/
def replacedField (s : State) (o : OpenRecord) (k : Fin 49) : OpenRecord :=
  let l := itemNat s .intervalLength
  let band := bandAt s o.start
  if k = 0 then { o with number := newestPlusOne s }
  else if k = 1 then
    match recordBefore s o with
    | some r => { o with
        start := r.start + r.length, stop := r.start + r.length - (r.start + r.length) % l + l }
    | none => { o with
        start := deviceTime s - deviceTime s % l, stop := deviceTime s - deviceTime s % l -
          (deviceTime s - deviceTime s % l) % l + l, clockStep := true }
  else if k = 2 then { o with stop := o.start - o.start % l + l }
  else if k = 3 then { o with band := band }
  else if k = 4 then { o with heatPrice := heatPriceOf s band }
  else if k = 5 then { o with gasPrice := gasPriceOf s band }
  else if k = 6 then { o with revision := s.contracts.revision }
  else if h : 7 ≤ k.val ∧ k.val < 23 then
    let v := match recordBefore s o with | some r => r.closing[k.val - 7] | none => s.metering.totals[k.val - 7]
    { o with
      opening := o.opening.set (k.val - 7) v
      estimatedGas := Vector.ofFn fun g => o.estimatedGas[g] || g.val + 7 == k.val
      estimatedHeat := Vector.ofFn fun n => o.estimatedHeat[n] || n.val + 19 == k.val }
  else if k.val < 35 then { o with estimatedGas := Vector.ofFn fun g => o.estimatedGas[g] || g.val + 23 == k.val }
  else if k.val < 38 then { o with estimatedHeat := Vector.ofFn fun n => o.estimatedHeat[n] || n.val + 35 == k.val }
  else if k.val < 41 then { o with
      reverse := Vector.ofFn fun n => if n.val + 38 = k.val then 0 else o.reverse[n]
      estimatedHeat := Vector.ofFn fun n => o.estimatedHeat[n] || n.val + 38 == k.val }
  else if k = 41 then { o with short := decide (o.start % l ≠ 0) }
  else if k = 42 then { o with
      clockStep := match recordBefore s o with | some r => decide (o.start ≠ r.start + r.length) | none => true }
  else if k = 43 then { o with outage := false }
  else if k = 44 then { o with commissioning := !s.contracts.locked }
  else if k = 45 then { o with contractChanged := true }
  else if k = 46 then { o with contractDamaged := true }
  else if k = 47 then { o with flare := 0 }
  else { o with trimmed := true }

/-- The replacement of a damaged next record number (R163, R168). -/
def repairedNext (s : State) : Nat :=
  match s.settlement.openRecord, s.settlement.archive.getLast? with
  | some o, _ => o.number + 1
  | none, some r => r.number + 1
  | none, none => 1

/-- The store after the sweep has found and counted uncorrectable damage of a thing, whose words are written (R167, R171). -/
def countedStore (s : State) (x : Thing) : Store :=
  { s.store with
    errors := [], sweepPos := s.store.sweepPos + 1
    report := { s.store.report with
      uncorrectable := min 65535 (s.store.report.uncorrectable + 1), last := some (regionOf s x) } }

/-- The owner's replacement of a damaged thing, everything outside the thing as it was (Table 9-2-1). A consumer that trips,
and the cut of a grant, move the allocation as well; of those only the consumer is told here. -/
def Replaced (s t : State) : Thing → Prop
  | .totals ch =>
    let v := match newestGood s with | some r => r.closing[ch] | none => 0
    t.store = countedStore s (.totals ch) ∧ t.supervisor = s.supervisor ∧ t.allocator = s.allocator ∧
    t.contracts = s.contracts ∧ t.exports = s.exports ∧ t.metering.totals = s.metering.totals.set ch v ∧
    (∀ d : Fin 16, remainderOf t d = if d = ch then 0 else remainderOf s d) ∧
    t.settlement = { s.settlement with openRecord := s.settlement.openRecord.map fun o => { o with
      opening := o.opening.set ch v
      estimatedGas := Vector.ofFn fun g => o.estimatedGas[g] || g.val == ch.val
      estimatedHeat := Vector.ofFn fun n => o.estimatedHeat[n] || n.val + 12 == ch.val } }
  | .contract i => item t i = itemDefault i ∧ ∀ j, j ≠ i → item t j = item s j
  | .nomination c | .damageMark c =>
    t.store = countedStore s (.nomination c) ∧ t.contracts = s.contracts ∧ t.exports = s.exports ∧
    (consumer t c).nomination = 0 ∧ (consumer t c).damageMark = true ∧ (consumer t c).state = .tripped ∧
    (consumer t c).causes.contractDamaged = true ∧ grant t c = 0 ∧ t.lines.gasEn[c] = false ∧ t.lines.backupEn[c] = false ∧
    (consumer t c).recoveryTimer =
      (if (consumer s c).state = .tripped then (consumer s c).recoveryTimer else recoveryStarted s c)
  | .proposal k =>
    t.store = countedStore s (.proposal k) ∧ t.supervisor = s.supervisor ∧ t.allocator = s.allocator ∧
    t.settlement = s.settlement ∧ t.exports = s.exports ∧
    t.contracts = { s.contracts with proposals := s.contracts.proposals.eraseIdx k } ∧
    ∀ e : Proposal, s.contracts.proposals[k.val]? = some e → ∃ (number : Nat) (parties : PartySet),
      (number = e.number ∨ number = 0) ∧ (parties = addParty e.parties e.proposer ∨ parties = allParties) ∧
      ∀ p : Party, t.links.notices[partyIndex p][clsProposal] =
        if hasParty parties p then
          addOccurrence (.proposal number .discarded) s.links.notices[partyIndex p][clsProposal]
        else s.links.notices[partyIndex p][clsProposal]
  | .commissioning =>
    t.store = countedStore s .commissioning ∧ t.contracts = { s.contracts with locked := true } ∧
    t.settlement = s.settlement ∧ t.exports = s.exports ∧ t.supervisor = s.supervisor ∧ t.allocator = s.allocator
  | .revision =>
    t.store = countedStore s .revision ∧
    t.contracts = { s.contracts with revision := match newestGood s with
      | some r => (r.revision + 1) % 4294967296
      | none => 1 } ∧
    t.settlement = { s.settlement with
      openRecord := s.settlement.openRecord.map fun o => { o with contractDamaged := true } } ∧
    t.exports = s.exports ∧ t.supervisor = s.supervisor ∧ t.allocator = s.allocator
  | .nextProposal =>
    t.store = countedStore s .nextProposal ∧
    t.contracts = { s.contracts with
      nextProposal := (s.contracts.proposals.map (·.number)).foldl max 0 % 65535 + 1 } ∧
    t.settlement = s.settlement ∧ t.exports = s.exports ∧ t.supervisor = s.supervisor ∧ t.allocator = s.allocator
  | .identity =>
    t.store = countedStore s .identity ∧ t.contracts = { s.contracts with siteCode := 0, siteName := [] } ∧
    t.settlement = s.settlement ∧ t.exports = s.exports ∧ t.supervisor = s.supervisor ∧ t.allocator = s.allocator
  | .schedule k =>
    t.store = countedStore s (.schedule k) ∧ t.contracts = s.contracts ∧ t.settlement = s.settlement ∧
    t.exports = { s.exports with schedule := s.exports.schedule.eraseIdx k } ∧ t.supervisor = s.supervisor ∧
    t.allocator = s.allocator
  | .latch =>
    t.store = countedStore s .latch ∧ t.contracts = s.contracts ∧ t.settlement = s.settlement ∧
    t.exports = { s.exports with
      latch := s.exports.latch.map fun _ => ⟨itemNat s (.exportItem xDefaultExport), .default⟩ } ∧
    ∀ c : Fin 8, grant t c = if isLinked s c ∧ s.exports.latch.isSome then min (grant s c) (demand t c) else grant s c
  | .openRecord k =>
    t.store = countedStore s (.openRecord k) ∧ t.contracts = s.contracts ∧ t.exports = s.exports ∧
    t.supervisor = s.supervisor ∧ t.allocator = s.allocator ∧ t.metering = s.metering ∧
    t.settlement = { s.settlement with
      openRecord := s.settlement.openRecord.map fun o => replacedField s o k
      nextRecord := if k = 0 ∧ s.settlement.openRecord.isSome then newestPlusOne s + 1 else s.settlement.nextRecord
      cursors := if k = 0 ∧ s.settlement.openRecord.isSome then cursorsAt s (newestPlusOne s + 1)
        else s.settlement.cursors }
  | .archive k =>
    t.settlement = s.settlement ∧ t.contracts = s.contracts ∧ t.exports = s.exports ∧
    (s.store.knownDamaged[k] = true → t.store = { s.store with sweepPos := s.store.sweepPos + 1 }) ∧
    (s.store.knownDamaged[k] = false → (recordAt s k).isSome = true → t.store = { countedStore s (.archive k) with
      errors := s.store.errors, knownDamaged := s.store.knownDamaged.set k true })
  | .heatAccount =>
    t.store = countedStore s .heatAccount ∧ t.contracts = s.contracts ∧ t.exports = s.exports ∧
    t.settlement = { s.settlement with heatAccount := match newestGood s with | some r => r.heatAccount | none => ⟨0, 0⟩ }
  | .gasAccount =>
    t.store = countedStore s .gasAccount ∧ t.contracts = s.contracts ∧ t.exports = s.exports ∧
    t.settlement = { s.settlement with gasAccount := match newestGood s with | some r => r.gasAccount | none => ⟨0, 0⟩ }
  | .cursor p =>
    t.store = countedStore s (.cursor p) ∧ t.contracts = s.contracts ∧ t.exports = s.exports ∧
    t.settlement = { s.settlement with
      cursors := s.settlement.cursors.set (partyIndex p) (oldestNumber s)
      gapMarks := s.settlement.gapMarks.set (partyIndex p) true }
  | .gapMark p =>
    t.store = countedStore s (.gapMark p) ∧ t.contracts = s.contracts ∧ t.exports = s.exports ∧
    t.settlement = { s.settlement with gapMarks := s.settlement.gapMarks.set (partyIndex p) true }
  | .nextRecord =>
    t.store = countedStore s .nextRecord ∧ t.contracts = s.contracts ∧ t.exports = s.exports ∧
    t.settlement = { s.settlement with nextRecord := repairedNext s, cursors := cursorsAt s (repairedNext s) }
  | .report k =>
    t.settlement = s.settlement ∧ t.contracts = s.contracts ∧ t.exports = s.exports ∧
    t.store = { countedStore s (.report k) with report :=
      { corrected := if k = 0 then 0 else s.store.report.corrected
        uncorrectable := if k = 1 then 1 else min 65535 (s.store.report.uncorrectable + 1)
        last := some ⟨9, k⟩
        sweeps := if k = 3 then 0 else s.store.report.sweeps } }
  | .marks =>
    t.settlement = s.settlement ∧ t.contracts = s.contracts ∧ t.exports = s.exports ∧
    t.store = { countedStore s .marks with knownDamaged := Vector.replicate 96 false }
  | .signature k =>
    t.settlement = s.settlement ∧ t.contracts = s.contracts ∧ t.exports = s.exports ∧
    t.store = { countedStore s (.signature k) with signature := s.store.signature.set k true }

end Sys2Proof.Machine
end

