-- ==== Sys2Proof/WellFormed.lean ====
section
/-! DEFINITION. The checks of a command as syntax: every field of a request fits its form of Table 10-6-2, and a frame
command is the kind of frame it says it is. What a command does is not a check of this file. -/

namespace Sys2Proof

open Sys2Proof.Machine

/-- A number that fits `k` bytes (Table 10-6-2). -/
def fits (k n : Nat) : Bool := n < 2 ^ (8 * k)

/-- An integer that fits `k` bytes in two's complement (R192). -/
def fitsSigned (k : Nat) (i : Int) : Bool := -((2 ^ (8 * k - 1) : Nat) : Int) ≤ i && i < ((2 ^ (8 * k - 1) : Nat) : Int)

/-- A request body has 1 to 64 bytes (Table 10-6-1). -/
def frameFits (f : Frame) : Bool := 1 ≤ f.length && f.length ≤ 64

/-- The three bytes of an item name (R182). -/
def nameFits (n : ItemName) : Bool := fits 1 n.group && fits 1 n.index && fits 1 n.item

/-- A request that names no command: an unknown code, or a known one whose selecting field holds no member (R179). -/
def isUnknown (code selector : Nat) : Bool :=
  !knownCodes.contains code || (code == codeQuery && 12 ≤ selector) || (code == codeCursor && 3 ≤ selector)

/-- A command is well formed. -/
def Instr.wellFormed : Instr → Bool
  | .pulseArrival _ _ _ => true
  | .zeroFlowExpiry _ => true
  | .sampleFrame _ => true
  | .freshnessExpiry _ => true
  | .allocationPeriodExpiry => true
  | .start f c => frameFits f && fits 1 c
  | .stop f c => frameFits f && fits 1 c
  | .nominate f c rate => frameFits f && fits 1 c && fits 4 rate
  | .clear f c => frameFits f && fits 1 c
  | .fuelBackup f c => frameFits f && fits 1 c
  | .fuelGas f c => frameFits f && fits 1 c
  | .purgeExpiry _ => true
  | .overdrawMaskExpiry _ => true
  | .lineLowMaskExpiry _ => true
  | .passingMaskExpiry _ => true
  | .lowDrawTimerExpiry _ => true
  | .recoveryDelayExpiry _ => true
  | .schedule f t kw => frameFits f && fits 6 t && fits 4 kw
  | .write f name v => frameFits f && nameFits name && fitsSigned 4 v
  | .writeIdentity f code name => frameFits f && fits 4 code && fits 1 name.length
  | .propose f items => frameFits f && fits 1 items.length && items.all fun e => nameFits e.1 && fitsSigned 4 e.2
  | .concur f number => frameFits f && fits 2 number
  | .reject f number => frameFits f && fits 2 number
  | .withdraw f number => frameFits f && fits 2 number
  | .proposalExpiry number => 1 ≤ number && fits 2 number
  | .writeClock f time => frameFits f && fits 4 time
  | .trim f d => frameFits f && fitsSigned 1 d
  | .regularBoundary => true
  | .archive f => frameFits f
  | .cursorOldest f => frameFits f
  | .cursorNewest f => frameFits f
  | .cursorNumber f number => frameFits f && fits 4 number
  | .scrubRead => true
  | .startUpOperation _ _ => true
  | .supplyFall => true
  | .resetAssertion _ => true
  | .querySampleChannel f index => frameFits f && fits 1 index
  | .queryPulseChannel f index => frameFits f && fits 1 index
  | .queryConsumer f index => frameFits f && fits 1 index
  | .queryHolder f index => frameFits f && fits 1 index
  | .queryAllocation f index => frameFits f && fits 1 index
  | .queryTotals f index => frameFits f && fits 1 index
  | .queryExportSchedule f index => frameFits f && fits 1 index
  | .queryContractItem f name => frameFits f && nameFits name
  | .queryProposalTable f index => frameFits f && fits 1 index
  | .queryClock f index => frameFits f && fits 1 index
  | .queryIntegrityReport f index => frameFits f && fits 1 index
  | .queryIdentity f index => frameFits f && fits 1 index
  | .mask f classes => frameFits f && fits 2 classes
  | .notice f => frameFits f
  | .unknownRequest f code selector => frameFits f && fits 1 code && fits 1 selector && isUnknown code selector
  | .badFrame _ raw => !goodRequest raw
  | .busyPortFrame _ _ => true
  | .responseSent _ => true
  | .storeWordError _ => true
  | .backupSupplyLoss => true

end Sys2Proof
end

