-- ==== Sys2Proof/Certificates/Slice0/Obligations.lean ====
section
/-! DEFINITION. The statements for the provers. Each says what the manual's rules say about one command, one operation or
the part as a whole; OBLIGATIONS.json gives the rule or the section behind each. -/

open Sys2Proof Sys2Proof.Machine

/-! ## The part as a machine -/

/-- A step executes the command at the front of the queue with the rest of the queue. -/
def Obligations.StepExecutesTheFrontCommand : Prop :=
  ∀ (c : Instr) (rest : List Instr) (s : State), step { s with pending := c :: rest } = exec c { s with pending := rest }

/-- The model's choice (log 2): on an empty queue a step is one millisecond, on every time base of a running part and on the
clock, which carries into a second after its 1,000th and runs on in a stopped part (R1, R51, R87, R130, R142, R171). The queue
of a running part then holds each timed event that has fallen due at the new time bases, and no other command: zero flow (R7),
freshness (R14), the allocation period (R52), the consumers' timers (R87), the expiry of OPEN entries (R130), the regular
boundary (R147) and the sweep's next word (R171), at the end of its share of the 600 s (log 42); each once, entries having
different numbers, in an order that is left open (log 11). What is due is found from the values held, without a checked read
(log 35). -/
def Obligations.EmptyQueueLetsOneMillisecondPass : Prop :=
  ∀ s : State, s.pending = [] → ∃ t : State, step s = .next t ∧
    (s.power.running = true →
      t.field = { s.field with arrivalBase := (s.field.arrivalBase + 1) % 1000000000000 } ∧
      t.allocator = { s.allocator with base := s.allocator.base + 1 } ∧
      t.supervisor = { s.supervisor with base := s.supervisor.base + 1 } ∧
      t.store = { s.store with sweepBase := s.store.sweepBase + 1 } ∧
      { t.contracts with base := 0, baseMillis := 0 } = { s.contracts with base := 0, baseMillis := 0 } ∧
      1000 * t.contracts.base + t.contracts.baseMillis = 1000 * s.contracts.base + s.contracts.baseMillis + 1 ∧
      (∀ i : Instr, i ∈ t.pending ↔ Falls t i) ∧
      ((s.contracts.proposals.map (·.number)).Nodup → t.pending.Nodup)) ∧
    (s.power.running = false → t.field = s.field ∧ t.allocator = s.allocator ∧ t.supervisor = s.supervisor ∧
      t.contracts = s.contracts ∧ t.store = s.store ∧ t.pending = []) ∧
    (s.settlement.clock = none → t.settlement = s.settlement) ∧
    (∀ k, s.settlement.clock = some k → s.settlement.clockMillis < 999 →
      t.settlement = { s.settlement with clockMillis := s.settlement.clockMillis + 1 }) ∧
    (∀ k, s.settlement.clock = some k → s.settlement.clockMillis = 999 → k < 281474976710655 →
      t.settlement = { s.settlement with clock := some (k + 1), clockMillis := 0 }) ∧
    t.power = s.power ∧ t.metering = s.metering ∧ t.band = s.band ∧ t.exports = s.exports ∧ t.links = s.links ∧
    t.lines = s.lines

/-- Every command is answered with a next state, whatever the state it finds, and touches no waiting command. -/
def Obligations.EveryCommandAnswersNext : Prop :=
  ∀ (i : Instr) (s : State), ∃ t : State, exec i s = .next t ∧ t.pending = s.pending

/-! ## Frames -/

/-- Decode and encode agree: the frame of a well-formed request, made by Table 10-6-1 and Table 10-6-2, decodes to that
request with every field at its value, on the link it comes on; a sample frame of Table 10-6-4 is read back with its channel,
its status and its value, a status code that is none of the three counting as BAD (R11). -/
def Obligations.FramesDecodeToWhatTheyCarry : Prop :=
  (∀ (i : Instr) (f : Frame) (body : List Byte), i.wellFormed = true → encodeBody i = some (f, body) →
    f.length = body.length → decodeRequest f.party (frameOfBody body) = i) ∧
  (∀ (k : Fin 22) (code : Fin 256) (v : Int), -2147483648 ≤ v → v ≤ 2147483647 →
    parseSample { chars := sampleChars k code v, stopError := false } =
      some (k, if code.val = 0 then .good else if code.val = 1 then .uncertain else .bad, v))

/-- Some frames written out byte by byte decode to the requests they stand for (R191, Table 10-6-2). -/
def Obligations.WrittenOutFramesDecode : Prop :=
  decodeRequest .town { chars := [0x00, 0x02, 0x10, 0x03, 0xD9, 0xB0], stopError := false } = .start ⟨.town, 2⟩ 3 ∧
  decodeRequest .grid { chars := [0x00, 0x02, 0x43, 0xEC, 0x8E, 0x9D], stopError := false } = .trim ⟨.grid, 2⟩ (-20) ∧
  decodeRequest .works { chars := [0x00, 0x03, 0x01, 0x09, 0x00, 0x07, 0x78], stopError := false } =
    .queryClock ⟨.works, 3⟩ 0 ∧
  decodeRequest .works { chars := [0x00, 0x02, 0x10, 0x03, 0xD9, 0xB1], stopError := false } =
    .badFrame .works { chars := [0x00, 0x02, 0x10, 0x03, 0xD9, 0xB1], stopError := false }

/-- A request that decoding refuses, for its length, a consumer number, an index, an item name, a mask bit or a value that its
field cannot carry, is answered OUT_OF_RANGE whatever the store holds (R179), SCHEDULE with its entry count and CURSOR with the
cursor, where no word of the store is in error (R104, R192), and a consumer's request from a party that does not own it NOT_OWNER
(R180); neither changes anything else. A SCHEDULE of WORKS or TOWN is answered NOT_PARTY (R180). That NOT_OWNER carries the
consumer's state is the model's choice (log 4), from R192: "Refusals carry only the fields their rule names: the state after the
request for consumer requests". That these refusals carry the count and the cursor is deduced (log 36); that a command may carry
a value beyond its field is the model's choice (log 20). -/
def Obligations.RequestsRefusedBeforeTheirBlock : Prop :=
  (∀ (f : Frame) (c rate index classes : Nat) (name : ItemName) (v : Int) (s : State), s.power.running = true →
    portBusy s f.party = false →
    (f.length ≠ 2 ∨ 8 ≤ c → ∀ e ∈ [(Instr.start f c, 0x10), (.stop f c, 0x11), (.clear f c, 0x13), (.fuelBackup f c, 0x14),
      (.fuelGas f c, 0x15)], exec e.1 s = .next (respond f.party e.2 .outOfRange [] s)) ∧
    (f.length ≠ 6 ∨ 8 ≤ c → exec (.nominate f c rate) s = .next (respond f.party 0x12 .outOfRange [] s)) ∧
    (f.length ≠ 3 ∨ 1 ≤ index → ∀ i ∈ [Instr.queryHolder f index, .queryAllocation f index, .queryTotals f index,
      .queryExportSchedule f index, .queryProposalTable f index, .queryClock f index, .queryIntegrityReport f index,
      .queryIdentity f index], exec i s = .next (respond f.party 0x01 .outOfRange [] s)) ∧
    (f.length ≠ 3 ∨ 22 ≤ index → exec (.querySampleChannel f index) s = .next (respond f.party 0x01 .outOfRange [] s)) ∧
    (f.length ≠ 3 ∨ 16 ≤ index → exec (.queryPulseChannel f index) s = .next (respond f.party 0x01 .outOfRange [] s)) ∧
    (f.length ≠ 3 ∨ 8 ≤ index → exec (.queryConsumer f index) s = .next (respond f.party 0x01 .outOfRange [] s)) ∧
    (f.length ≠ 8 ∨ resolveName name = none → exec (.write f name v) s = .next (respond f.party 0x40 .outOfRange [] s)) ∧
    (f.length ≠ 5 ∨ resolveName name = none →
      exec (.queryContractItem f name) s = .next (respond f.party 0x01 .outOfRange [] s)) ∧
    (f.length ≠ 3 ∨ 1024 ≤ classes → exec (.mask f classes) s = .next (respond f.party 0x50 .outOfRange [] s))) ∧
  (∀ (f : Frame) (items : List (ItemName × Int)) (chars : List Byte) (d : Int) (start kw time number : Nat) (s : State),
    s.power.running = true → portBusy s f.party = false →
    (Calm s → f.length ≠ 11 → exec (.schedule f start kw) s =
      .next (respond f.party 0x20 .outOfRange [.u32 s.exports.schedule.length] s)) ∧
    (Calm s → f.length = 11 → f.party ≠ .grid → exec (.schedule f start kw) s =
      .next (respond f.party 0x20 .notParty [.u32 s.exports.schedule.length] s)) ∧
    (f.length ≠ 2 + 7 * items.length ∨ (∃ e ∈ items, resolveName e.1 = none) →
      exec (.propose f items) s = .next (respond f.party 0x30 .outOfRange [] s)) ∧
    (f.length ≠ 3 → ∀ e ∈ [(Instr.concur f number, 0x31), (.reject f number, 0x32), (.withdraw f number, 0x33)],
      exec e.1 s = .next (respond f.party e.2 .outOfRange [] s)) ∧
    (f.length ≠ 6 + chars.length ∨ 4294967296 ≤ number →
      exec (.writeIdentity f number chars) s = .next (respond f.party 0x42 .outOfRange [] s)) ∧
    (f.length ≠ 5 ∨ 4294967296 ≤ time →
      exec (.writeClock f time) s = .next (respond f.party 0x41 .outOfRange [] s)) ∧
    (f.length ≠ 2 → exec (.trim f d) s = .next (respond f.party 0x43 .outOfRange [] s)) ∧
    (f.length ≠ 1 → exec (.archive f) s = .next (respond f.party 0x60 .outOfRange [] s) ∧
      exec (.notice f) s = .next (respond f.party 0x51 .outOfRange [] s)) ∧
    (Calm s → f.length ≠ 6 → ∀ i ∈ [Instr.cursorOldest f, .cursorNewest f, .cursorNumber f number],
      exec i s = .next (respond f.party 0x61 .outOfRange [.u32 s.settlement.cursors[partyIndex f.party]] s))) ∧
  (∀ (s : State) (f : Frame) (c : Fin 8) (rate : Nat), Calm s → portBusy s f.party = false → ownerOf s c ≠ f.party →
    (f.length = 2 → ∀ e ∈ [(Instr.start f c, 0x10), (.stop f c, 0x11), (.clear f c, 0x13), (.fuelBackup f c, 0x14),
      (.fuelGas f c, 0x15)], exec e.1 s = .next (respond f.party e.2 .notOwner [stateField s c] s)) ∧
    (f.length = 6 → exec (.nominate f c rate) s = .next (respond f.party 0x12 .notOwner [stateField s c] s)))

/-- Frames that reach no block: on a busy port or in a stopped part no request is taken (R175, R178); an unknown request is
answered UNKNOWN, or OUT_OF_RANGE where its code is known (R179), with the entry count for SCHEDULE and the cursor for CURSOR,
where no word of the store is in error (R192, deduced in log 36); a bad frame, a frame on a busy port and a sample frame that fails its checks change nothing (R11, R177, R178);
the end of a response frees its port (R178). The model's choices: UNKNOWN_REQUEST stands for every known code whose selecting
field names nothing (log 32), and a bad or busy-port frame is one because its sender says so, whatever its characters and the
port (log 33). -/
def Obligations.FramesThatReachNoBlock : Prop :=
  (∀ (i : Instr) (f : Frame) (body : List Byte) (s : State), encodeBody i = some (f, body) →
    (s.power.running = false ∨ s.links.ports[partyIndex f.party] ≠ none) → exec i s = .next s) ∧
  (∀ (f : Frame) (code selector : Nat) (s : State), s.power.running = true → portBusy s f.party = false →
    Calm s ∨ (code ≠ 0x20 ∧ code ≠ 0x61) → exec (.unknownRequest f code selector) s =
      .next (respond f.party code (if code ∈ knownCodes then .outOfRange else .unknown)
        (if code = 0x20 then [.u32 s.exports.schedule.length]
          else if code = 0x61 then [.u32 s.settlement.cursors[partyIndex f.party]] else []) s)) ∧
  (∀ (p : Party) (raw : RawFrame) (s : State), exec (.badFrame p raw) s = .next s ∧ exec (.busyPortFrame p raw) s = .next s) ∧
  (∀ (raw : RawFrame) (s : State), parseSample raw = none → exec (.sampleFrame raw) s = .next s) ∧
  (∀ (p : Party) (s : State), exec (.responseSent p) s =
    .next { s with links := { s.links with ports := s.links.ports.set (partyIndex p) none } })

/-! ## Pulse and sample channels (chapters 1 and 2) -/

/-- A pulse on a NO_FLOW channel is accepted without a spacing check: the channel becomes FIRST with its stamp and its
energy and a rate of 0, the energy is counted into the total, the channel's ESTIMATED mark is set where an input is doubtful,
its consumer is evaluated, and nothing else moves (R4, R8, R25, R26, R28, R29, R31, R88). -/
def Obligations.FirstPulseIsAccepted : Prop :=
  ∀ (s : State) (ch : Fin 16) (high low : Nat), Calm s → 200 ≤ high → 200 ≤ low → (channel s ch).state = .noFlow →
    ∃ t : State, exec (.pulseArrival ch high low) s = .next t ∧
      t.field = (setChannel ch
        { state := .first, lastArrival := some s.field.arrivalBase, period := none,
          lastEnergy := some (recordedEnergy s ch), rate := 0, noise := (channel s ch).noise } s).field ∧
      t.metering.totals = s.metering.totals.set ch
        ((s.metering.totals[ch] + (remainderOf s ch + pulseQuantity s ch) / unitsPerWh ch) % 10000000000000) ∧
      remainderOf t ch = (remainderOf s ch + pulseQuantity s ch) % unitsPerWh ch ∧
      (∀ d : Fin 16, d ≠ ch → remainderOf t d = remainderOf s d) ∧
      ConsumersKept s t (channelConsumer ch) ∧ EvaluatedAt { s with field := t.field } t (channelConsumer ch) ∧
      SettlementKept s t ∧ MarkedByPulse s t ch ∧
      t.power = s.power ∧ t.freeIndex = s.freeIndex ∧ t.band = s.band ∧ t.allocator = s.allocator ∧
      t.exports = s.exports ∧ t.contracts = s.contracts ∧ t.store = s.store ∧ t.links = s.links ∧ t.lines = s.lines

/-- A later pulse that comes at least one minimum spacing after the last accepted one is accepted: the channel is FLOWING,
the period is the elapsed time, and the rate is the energy divided by it, at most 4,000,000; total, marks and evaluation are
those of every accepted pulse (R5, R8, R9, R26, R30, R31, R88). -/
def Obligations.LaterPulseFormsARate : Prop :=
  ∀ (s : State) (ch : Fin 16) (high low last : Nat), Calm s → 200 ≤ high → 200 ≤ low → (channel s ch).state ≠ .noFlow →
    (channel s ch).lastArrival = some last → itemNat s (minSpacingItem ch) ≤ sinceArrival s last →
    ∃ t : State, exec (.pulseArrival ch high low) s = .next t ∧
      t.field = (setChannel ch
        { state := .flowing, lastArrival := some s.field.arrivalBase, period := some (sinceArrival s last),
          lastEnergy := some (recordedEnergy s ch),
          rate := min 4000000 ((if ch = 15 then 3600 * recordedEnergy s ch else recordedEnergy s ch) / sinceArrival s last),
          noise := (channel s ch).noise } s).field ∧
      t.metering.totals = s.metering.totals.set ch
        ((s.metering.totals[ch] + (remainderOf s ch + pulseQuantity s ch) / unitsPerWh ch) % 10000000000000) ∧
      remainderOf t ch = (remainderOf s ch + pulseQuantity s ch) % unitsPerWh ch ∧
      (∀ d : Fin 16, d ≠ ch → remainderOf t d = remainderOf s d) ∧
      ConsumersKept s t (channelConsumer ch) ∧ EvaluatedAt { s with field := t.field } t (channelConsumer ch) ∧
      SettlementKept s t ∧ MarkedByPulse s t ch ∧
      t.power = s.power ∧ t.freeIndex = s.freeIndex ∧ t.band = s.band ∧ t.allocator = s.allocator ∧
      t.exports = s.exports ∧ t.contracts = s.contracts ∧ t.store = s.store ∧ t.links = s.links ∧ t.lines = s.lines

/-- A pulse within the minimum spacing only raises the noise count, which stays at 65,535 (R6), and an edge after less than
200 µs high or low changes nothing (R2). -/
def Obligations.EarlyPulseIsNoise : Prop :=
  ∀ (s : State) (ch : Fin 16) (high low : Nat),
    (∀ last, Calm s → 200 ≤ high → 200 ≤ low → (channel s ch).state ≠ .noFlow → (channel s ch).lastArrival = some last →
      sinceArrival s last < itemNat s (minSpacingItem ch) →
      exec (.pulseArrival ch high low) s =
        .next (setChannel ch { channel s ch with noise := min 65535 ((channel s ch).noise + 1) } s)) ∧
    (high < 200 ∨ low < 200 → exec (.pulseArrival ch high low) s = .next s)

/-- No joule is lost: over an accepted pulse the total, in units of its remainder, rises by exactly the quantity of the pulse,
modulo 10^13 Wh. For gas that is the energy formed from the weight and the clamped pressure, temperature and calorific value,
rounded to the nearest joule (R23 to R25); for heat weight × ΔT × k in units of 10 µJ with ΔT clamped to 0 to 15,000 and k read
from the anchors of its table, each step rounded down (R26 to R28); for X the weight in Wh (R29). -/
def Obligations.EnergyIsCountedExactly : Prop :=
  (∀ r : Nat, heatCoefficient r =
    if r < 3000 then 4216 - 54 * r / 3000
    else if r < 6000 then 4162 - 47 * (r - 3000) / 3000
    else if r < 9000 then 4115 - 56 * (r - 6000) / 3000
    else if r < 12000 then 4059 - 56 * (r - 9000) / 3000
    else if r < 15000 then 4003 - 51 * (r - 12000) / 3000
    else 3952) ∧
  ∀ (s t : State) (ch : Fin 16) (high low : Nat), Calm s → 200 ≤ high → 200 ≤ low → passesSpacing s ch = true →
    exec (.pulseArrival ch high low) s = .next t →
    (ch.val < 12 → (3600 * t.metering.totals[ch] + remainderOf t ch) % (3600 * 10000000000000) =
      (3600 * s.metering.totals[ch] + remainderOf s ch +
        (2 * (itemNat s (pulseWeightItem ch) * (max 80000 (min 400000 (valueInUse s 4))).toNat * 27315 *
            (max 1000 (min 40000 (valueInUse s (if h : ch.val < 4 then ⟨ch, by omega⟩ else 21)))).toNat) +
          101325 * (max (-4000) (min 10000 (valueInUse s 5)) + 27315).toNat) /
          (2 * (101325 * (max (-4000) (min 10000 (valueInUse s 5)) + 27315).toNat))) % (3600 * 10000000000000)) ∧
    (∀ n : Fin 3, ch.val = 12 + n.val →
      (360000000 * t.metering.totals[ch] + remainderOf t ch) % (360000000 * 10000000000000) =
        (360000000 * s.metering.totals[ch] + remainderOf s ch +
          itemNat s (pulseWeightItem ch) *
            (min 15000 (max 0 (min 18000 (valueInUse s ⟨15 + 2 * n, by omega⟩)) -
              max 0 (min 18000 (valueInUse s ⟨16 + 2 * n, by omega⟩)))).toNat *
            heatCoefficient (max 0 (min 18000 (valueInUse s ⟨16 + 2 * n, by omega⟩))).toNat) %
          (360000000 * 10000000000000)) ∧
    (ch = 15 → t.metering.totals[ch] % 10000000000000 =
      (s.metering.totals[ch] + itemNat s (.exportItem xPulseWeight)) % 10000000000000)

/-- A heat pulse whose return temperature lies above its supply temperature adds no heat and raises the reverse-ΔT count of
its heat point in the open record, which stays at 65,535 (R26, R28, R149). -/
def Obligations.ReverseHeatPulseAddsNothing : Prop :=
  ∀ (s : State) (n : Fin 3) (ch : Fin 16) (high low : Nat) (o : OpenRecord), Calm s → 200 ≤ high → 200 ≤ low →
    ch.val = 12 + n.val → passesSpacing s ch = true → s.settlement.openRecord = some o →
    max 0 (min 18000 (valueInUse s ⟨15 + 2 * n, by omega⟩)) < max 0 (min 18000 (valueInUse s ⟨16 + 2 * n, by omega⟩)) →
    ∃ (t : State) (o' : OpenRecord), exec (.pulseArrival ch high low) s = .next t ∧
      (360000000 * t.metering.totals[ch] + remainderOf t ch) % (360000000 * 10000000000000) =
        (360000000 * s.metering.totals[ch] + remainderOf s ch) % (360000000 * 10000000000000) ∧
      (∀ d : Fin 16, d ≠ ch → t.metering.totals[d] = s.metering.totals[d] ∧ remainderOf t d = remainderOf s d) ∧
      t.settlement.openRecord = some o' ∧ withoutMarks o' = withoutMarks o ∧
      o'.reverse = o.reverse.set n (min 65535 (o.reverse[n] + 1)) ∧ (channel t ch).lastEnergy = some 0

/-- When the elapsed time reaches the zero-flow timeout the channel becomes NO_FLOW with nothing but its noise count left,
and the consumer of P4 to P11 is evaluated with the channel so emptied (R7, R88). -/
def Obligations.ZeroFlowExpiryEmptiesTheChannel : Prop :=
  ∀ (s : State) (ch : Fin 16) (last : Nat), Calm s → (channel s ch).state ≠ .noFlow →
    (channel s ch).lastArrival = some last → 1000 * itemNat s (zeroFlowItem ch) ≤ sinceArrival s last →
    ∃ t : State, exec (.zeroFlowExpiry ch) s = .next t ∧
      t.field = (setChannel ch
        { state := .noFlow, lastArrival := none, period := none, lastEnergy := none, rate := 0,
          noise := (channel s ch).noise } s).field ∧
      ConsumersKept s t (channelConsumer ch) ∧ EvaluatedAt { s with field := t.field } t (channelConsumer ch) ∧
      t.metering = s.metering ∧ t.settlement = s.settlement ∧
      t.power = s.power ∧ t.freeIndex = s.freeIndex ∧ t.band = s.band ∧ t.allocator = s.allocator ∧
      t.exports = s.exports ∧ t.contracts = s.contracts ∧ t.store = s.store ∧ t.links = s.links ∧ t.lines = s.lines

/-- A valid frame makes its record VALID in every state, with its value, its uncertain mark and a fresh timer; FIELD is
raised for every party where the record was NEVER or HELD and not where it was VALID, and the consumer of A7 to A14 is
evaluated (R12, R88). Of A6 see the band. -/
def Obligations.ValidFrameMakesTheRecordValid : Prop :=
  ∀ (s : State) (raw : RawFrame) (k : Fin 22) (status : SampleStatus) (v : Int), Calm s →
    parseSample raw = some (k, status, v) → k ≠ 6 → status ≠ .bad → item s (.rangeLow k) ≤ v → v ≤ item s (.rangeHigh k) →
    ∃ t : State, exec (.sampleFrame raw) s = .next t ∧
      t.field = (setSample k
        { state := .valid, lastValid := some v, uncertain := status == .uncertain,
          timer := some { start := s.field.arrivalBase, length := 1000 * itemNat s (.freshness k) } } s).field ∧
      ((sample s k).state = .valid → t.links = s.links ∧ t.lines = s.lines) ∧
      ((sample s k).state ≠ .valid → OtherNoticesKept s t clsField ∧ PermissivesKept s t ∧
        ∀ p : Fin 3, t.links.notices[p][clsField] = addOccurrence (.field k .valid) s.links.notices[p][clsField]) ∧
      ConsumersKept s t (sampleConsumer k) ∧ EvaluatedAt { s with field := t.field } t (sampleConsumer k) ∧
      t.power = s.power ∧ t.freeIndex = s.freeIndex ∧ t.metering = s.metering ∧ t.band = s.band ∧
      t.allocator = s.allocator ∧ t.exports = s.exports ∧ t.contracts = s.contracts ∧ t.settlement = s.settlement ∧
      t.store = s.store

/-- An invalid frame, and the expiry of the freshness timer, make a VALID record HELD with its last valid value and its
timer stopped, raise FIELD for every party, and evaluate the consumer of A7 to A14; an invalid frame on any other record changes
nothing (R13, R14, R88). -/
def Obligations.InvalidFrameAndExpiryHoldTheRecord : Prop :=
  ∀ (s : State) (k : Fin 22), Calm s →
    (∀ i : Instr,
      (∃ raw status v, i = .sampleFrame raw ∧ parseSample raw = some (k, status, v) ∧
        (status = .bad ∨ v < item s (.rangeLow k) ∨ item s (.rangeHigh k) < v)) ∨
      (∃ tm, i = .freshnessExpiry k ∧ (sample s k).timer = some tm ∧ tm.length ≤ sinceArrival s tm.start) →
      (sample s k).state = .valid →
      ∃ t : State, exec i s = .next t ∧
        t.field = (setSample k { sample s k with state := .held, timer := none } s).field ∧
        OtherNoticesKept s t clsField ∧ PermissivesKept s t ∧
        (∀ p : Fin 3, t.links.notices[p][clsField] = addOccurrence (.field k .held) s.links.notices[p][clsField]) ∧
        ConsumersKept s t (sampleConsumer k) ∧ EvaluatedAt { s with field := t.field } t (sampleConsumer k) ∧
        t.power = s.power ∧ t.freeIndex = s.freeIndex ∧ t.metering = s.metering ∧ t.band = s.band ∧
        t.allocator = s.allocator ∧ t.exports = s.exports ∧ t.contracts = s.contracts ∧ t.settlement = s.settlement ∧
        t.store = s.store) ∧
    (∀ raw status v, parseSample raw = some (k, status, v) →
      (status = .bad ∨ v < item s (.rangeLow k) ∨ item s (.rangeHigh k) < v) → (sample s k).state ≠ .valid →
      exec (.sampleFrame raw) s = .next s)

/-! ## Holder and allocation (chapters 3 and 4) -/

/-- band(L) is LOWLOW below T_LL, LOW from T_LL, NORMAL from T_L, HIGH from T_H and HIGHHIGH from T_HH on, a level equal to
a threshold belonging to the band above it; and for a band set that satisfies the order rule it is a rising function of the
level (R38). -/
def Obligations.BandOfALevel : Prop :=
  (∀ (b : BandSet) (level : Int), b.ordered = true → 0 ≤ b.hysteresis →
    (level < b.tLL ↔ bandOf b level = .lowLow) ∧
    (b.tLL ≤ level ∧ level < b.tL ↔ bandOf b level = .low) ∧
    (b.tL ≤ level ∧ level < b.tH ↔ bandOf b level = .normal) ∧
    (b.tH ≤ level ∧ level < b.tHH ↔ bandOf b level = .high) ∧
    (b.tHH ≤ level ↔ bandOf b level = .highHigh)) ∧
  (∀ (b : BandSet) (l m : Int), b.ordered = true → 0 ≤ b.hysteresis → l ≤ m → bandCode (bandOf b l) ≤ bandCode (bandOf b m))

/-- A valid A6 frame moves the band to the rising band where that lies above, to the falling band where that lies below, and
otherwise leaves it; a move raises one HOLDER notice for every party and takes an allocation event under the new band, and a
move out of HIGHHIGH leaves the flare at 0 and FLARE_EN low; a frame that leaves the band raises no HOLDER and takes no
event; FIELD is raised where the record was not VALID (R12, R39, R42, R46). -/
def Obligations.LevelFrameMovesTheBand : Prop :=
  ∀ (s : State) (raw : RawFrame) (status : SampleStatus) (v : Int), Calm s → parseSample raw = some (6, status, v) →
    status ≠ .bad → item s (.rangeLow 6) ≤ v → v ≤ item s (.rangeHigh 6) →
    ∃ t : State, exec (.sampleFrame raw) s = .next t ∧
      t.band = (if bandCode s.band < bandCode (bandOf (bandSetInUse s) v) then bandOf (bandSetInUse s) v
        else if bandCode (bandOf (bandSetInUse s) (v + (bandSetInUse s).hysteresis)) < bandCode s.band then
          bandOf (bandSetInUse s) (v + (bandSetInUse s).hysteresis)
        else s.band) ∧
      sample t 6 = ⟨.valid, some v, status == .uncertain, some ⟨s.field.arrivalBase, 1000 * itemNat s (.freshness 6)⟩⟩ ∧
      (∀ p : Fin 3, t.links.notices[p][clsField] = if (sample s 6).state = .valid then s.links.notices[p][clsField]
        else addOccurrence (.field 6 .valid) s.links.notices[p][clsField]) ∧
      (t.band = s.band → t.allocator = s.allocator ∧ t.supervisor = s.supervisor ∧ t.settlement = s.settlement ∧
        ∀ p : Fin 3, t.links.notices[p][clsHolder] = s.links.notices[p][clsHolder]) ∧
      (t.band ≠ s.band → t.allocator.result.band = t.band ∧ t.allocator.result.timeBase = some s.allocator.base ∧
        ∀ p : Fin 3,
          t.links.notices[p][clsHolder] = addOccurrence (.holder s.band t.band) s.links.notices[p][clsHolder]) ∧
      (s.band = .highHigh → t.band ≠ .highHigh → t.allocator.result.flareDemand = 0 ∧ t.lines.flareEn = false) ∧
      t.power = s.power ∧ t.field.channels = s.field.channels ∧ t.metering = s.metering ∧ t.exports = s.exports ∧
      t.contracts = s.contracts ∧ t.store = s.store ∧ SettlementKept s t

/-- In every state in which no word of the store is in error, an allocation event distributes exactly A = max(0, Σr + HT −
margin): the grants, the reservations and the surplus sum to it; no grant exceeds its consumer's demand; a grant is nonzero in
ACTIVE only, and a reservation in PURGING toward ACTIVE only (R50, R55, R58, R60, R62, R67). Class 0 is never shed, and where the
lit floors of the ACTIVE consumers fit in A every one of them stays ACTIVE with its lit floor at least (R59, R60, R62). -/
def Obligations.AllocationEventDistributesTheAvailableRate : Prop :=
  ∀ s : State, s.store.errors = [] →
    (allocationEvent s).allocator.result.available =
      ((sourceSum s : Int) + holderTerm s - item s (.holder hMargin)).toNat ∧
    Balanced (allocationEvent s).allocator.result ∧
    (∀ c : Fin 8, grant (allocationEvent s) c ≤ demand s c ∧
      (grant (allocationEvent s) c ≠ 0 → (consumer (allocationEvent s) c).state = .active) ∧
      (reservation (allocationEvent s) c ≠ 0 → (consumer (allocationEvent s) c).state = .purging ∧
        (consumer (allocationEvent s) c).target = some .active)) ∧
    ∀ c : Fin 8, lit s c = true →
      (classOf s c = 0 → lit (allocationEvent s) c = true) ∧
      (floorSum s ≤ availableRate s → lit (allocationEvent s) c = true ∧ litFloor s c ≤ grant (allocationEvent s) c)

/-- The expiry of the allocation period timer replaces the standing result and restarts the timer; the flare standing until
then is credited for its whole seconds, the new flare demand is the surplus in HIGHHIGH and 0 in every other band, and
FLARE_EN follows (R52, R54, R63, R65). The stages act in their order: reservations in order of class and slot until one does not
fit (R58), shedding from class 3 and the highest slot on until the floors fit (R59), class-0 floors in proportion where they
still do not (R60), one restoration (R61), floors and the nomination pass by class (R62); and SHED and GRANT tell of it in slot
order (R66, R86, R186). -/
def Obligations.PeriodExpiryReplacesTheResult : Prop :=
  ∀ s : State, Calm s → s.allocator.timer.start + s.allocator.timer.length ≤ s.allocator.base →
    ∃ t : State, exec .allocationPeriodExpiry s = .next t ∧
      t.allocator.result.sourceSum = sourceSum s ∧ t.allocator.result.holderTerm = holderTerm s ∧
      t.allocator.result.band = s.band ∧ t.allocator.result.available = availableRate s ∧
      t.allocator.result.time = s.settlement.clock ∧ t.allocator.result.timeBase = some s.allocator.base ∧
      t.allocator.result.creditPoint = s.allocator.base ∧
      t.allocator.result.flareDemand = (if s.band = .highHigh then t.allocator.result.surplus else 0) ∧
      t.lines.flareEn = decide (0 < t.allocator.result.flareDemand) ∧
      t.allocator.timer = { start := s.allocator.base, length := 1000 * itemNat s .allocationPeriod } ∧
      t.allocator.base = s.allocator.base ∧
      t.settlement.openRecord = s.settlement.openRecord.map (fun o => { o with
        flare := flareSum o.flare
          (s.allocator.result.flareDemand * ((s.allocator.base - s.allocator.result.creditPoint) / 1000)) }) ∧
      ReservationsDecided s t ∧ ShedInOrder s t ∧ FirstWaitingRestored s t ∧ GrantsShared s t ∧ EventTold s t ∧
      OutsideAllocationKept s t ∧ t.links.ports = s.links.ports

/-! ## Consumers (chapter 5) -/

/-- START by the owner of an OFF consumer without a damage mark begins a purge: PURGING, both lines low, the purge timer
running for the purge time, a reservation that the event following it has given or taken away, and DONE with the state and
target as they then stand; with the damage mark set it is refused STILL_FAULTED with CONTRACT_DAMAGED, and outside OFF
WRONG_STATE, with nothing else changed (R77, R82). -/
def Obligations.StartBeginsAPurge : Prop :=
  ∀ (s : State) (f : Frame) (c : Fin 8), Calm s → Taken s f 2 → ownerOf s c = f.party →
    ((consumer s c).state = .off → (consumer s c).damageMark = false → ∃ t : State, exec (.start f c) s = .next t ∧
      consumer t c = withTimers (withPurge
        { consumer s c with
          state := .purging
          purgeTimer := some { start := s.supervisor.base, length := 1000 * consumerItem s c cPurgeTime } }
        (consumer t c)) (consumer t c) ∧
      Reserved t c ∧ t.lines.gasEn[c] = false ∧ t.lines.backupEn[c] = false ∧
      t.allocator.timer = { start := s.allocator.base, length := 1000 * itemNat s .allocationPeriod } ∧
      Answered s t f.party { code := 0x10, status := .done, fields := stateField t c :: targetField t c } ∧
      OutsideAllocationKept s t) ∧
    ((consumer s c).state = .off → (consumer s c).damageMark = true → exec (.start f c) s =
      .next (respond f.party 0x10 .stillFaulted [.u8 (consumerStateCode .off), .u16 16] s)) ∧
    ((consumer s c).state ≠ .off → exec (.start f c) s = .next (respond f.party 0x10 .wrongState [stateField s c] s))

/-- STOP by the owner is answered DONE in every state: from PURGING the purge runs on toward OFF with its reservation
released to the surplus; from every other state the consumer is OFF, from ACTIVE with its grant released; the shed flag is
clear, and recovery count, last trip, damage mark and nomination stand (R78). -/
def Obligations.StopLeadsToOff : Prop :=
  ∀ (s : State) (f : Frame) (c : Fin 8), Calm s → Taken s f 2 → ownerOf s c = f.party →
    ∃ t : State, exec (.stop f c) s = .next t ∧
      Answered s t f.party { code := 0x11, status := .done, fields := [stateField t c] } ∧
      ((consumer s c).state = .off → t = respond f.party 0x11 .done [stateField s c] s) ∧
      ((consumer s c).state ≠ .off → (consumer t c).shedFlag = false) ∧
      ((consumer s c).state = .purging →
        consumer t c = { consumer s c with target := some .off, reservation := .none, shedFlag := false } ∧
        t.allocator = { s.allocator with result := { s.allocator.result with
          reservations := s.allocator.result.reservations.set c 0,
          surplus := s.allocator.result.surplus + reservation s c } }) ∧
      ((consumer s c).state ≠ .purging → (consumer t c).state = .off ∧
        (t.lines.gasEn[c] = true ∨ t.lines.backupEn[c] = true →
          t.lines.gasEn[c] = s.lines.gasEn[c] ∧ t.lines.backupEn[c] = s.lines.backupEn[c] ∧ (consumer s c).state = .off)) ∧
      ((consumer s c).state = .active → grant t c = 0 ∧ t.allocator.result.timeBase = some s.allocator.base) ∧
      ((consumer s c).state = .tripped → (consumer t c).causes = noCauses ∧ (consumer t c).recoveryTimer = none) ∧
      ((consumer s c).state ≠ .active → (consumer s c).state ≠ .purging → t.allocator = s.allocator) ∧
      (consumer t c).recoveryCount = (consumer s c).recoveryCount ∧ (consumer t c).lastTrip = (consumer s c).lastTrip ∧
      (consumer t c).damageMark = (consumer s c).damageMark ∧ (consumer t c).nomination = (consumer s c).nomination ∧
      OutsideAllocationKept s t

/-- NOMINATE by the owner sets the nomination to the rate, or to the effective ceiling where the rate lies above it, and is
answered DONE or CLAMPED; a grant above the new demand is cut to it and the cut joins the surplus; no other consumer, grant
or reservation moves (R69, R79). -/
def Obligations.NominateClampsAndCuts : Prop :=
  ∀ (s : State) (f : Frame) (c : Fin 8) (rate : Nat), Calm s → Taken s f 6 → ownerOf s c = f.party →
    ∃ t : State, exec (.nominate f c rate) s = .next t ∧
      Answered s t f.party ⟨0x12, if effectiveCeiling s c < rate then .clamped else .done, [stateField s c]⟩ ∧
      consumer t c = withTimers { consumer s c with nomination := min rate (effectiveCeiling s c) } (consumer t c) ∧
      (∀ d : Fin 8, d ≠ c → consumer t d = consumer s d ∧ grant t d = grant s d) ∧
      grant t c = min (grant s c) (demand t c) ∧
      t.allocator.result.surplus + grant t c = s.allocator.result.surplus + grant s c ∧
      t.allocator.result.reservations = s.allocator.result.reservations ∧ t.allocator.timer = s.allocator.timer ∧
      t.settlement = s.settlement ∧ OutsideAllocationKept s t ∧ PermissivesKept s t

/-- CLEAR by the owner: in TRIPPED with the recheck passing the consumer goes to OFF, without causes or a recovery delay and
with its recovery count and last trip, its passing condition evaluated, answered DONE; with the recheck failing it is refused
STILL_FAULTED with the causes of the failed tests; outside TRIPPED it is refused WRONG_STATE; a refusal changes nothing
(R96). -/
def Obligations.ClearRechecksATrippedConsumer : Prop :=
  ∀ (s : State) (f : Frame) (c : Fin 8), Calm s → Taken s f 2 → ownerOf s c = f.party →
    ((consumer s c).state = .tripped → recheckPasses s c = true → ∃ t : State, exec (.clear f c) s = .next t ∧
      Answered s t f.party { code := 0x13, status := .done, fields := [.u8 (consumerStateCode .off)] } ∧
      (consumer t c).state = .off ∧ (consumer t c).causes = noCauses ∧ (consumer t c).recoveryTimer = none ∧
      (consumer t c).recoveryCount = (consumer s c).recoveryCount ∧ (consumer t c).lastTrip = (consumer s c).lastTrip ∧
      (consumer t c).nomination = (consumer s c).nomination ∧ (consumer t c).shedFlag = (consumer s c).shedFlag ∧
      (consumer t c).passingTimer = (if consumerItem s c cPassingThreshold < draw s c then
        some ((consumer s c).passingTimer.getD
          { start := s.supervisor.base, length := 1000 * consumerItem s c cPassingMask }) else none) ∧
      (∀ d : Fin 8, d ≠ c → consumer t d = consumer s d) ∧ t.allocator = s.allocator ∧ t.settlement = s.settlement ∧
      t.links.notices = s.links.notices ∧ OutsideAllocationKept s t) ∧
    ((consumer s c).state = .tripped → recheckPasses s c = false → exec (.clear f c) s =
      .next (respond f.party 0x13 .stillFaulted [stateField s c, .u16 (causeBits (failedTests s c))] s)) ∧
    ((consumer s c).state ≠ .tripped → exec (.clear f c) s = .next (respond f.party 0x13 .wrongState [stateField s c] s))

/-- FUEL BACKUP by the owner of an ACTIVE consumer with backup releases the grant and begins a purge toward BACKUP with the
shed flag clear, and an event follows; in any other state, or without backup, it is refused WRONG_STATE and changes nothing
(R80). -/
def Obligations.FuelBackupPurgesTowardBackup : Prop :=
  ∀ (s : State) (f : Frame) (c : Fin 8), Calm s → Taken s f 2 → ownerOf s c = f.party →
    (hasBackup s c = true → (consumer s c).state = .active → ∃ t : State, exec (.fuelBackup f c) s = .next t ∧
      Answered s t f.party { code := 0x14, status := .done, fields := [.u8 (consumerStateCode .purging)] } ∧
      consumer t c = withTimers
        { consumer s c with
          state := .purging, target := some .backup, reservation := .none, shedFlag := false
          purgeTimer := some { start := s.supervisor.base, length := 1000 * consumerItem s c cPurgeTime } }
        (consumer t c) ∧
      t.lines.gasEn[c] = false ∧ t.lines.backupEn[c] = false ∧ grant t c = 0 ∧
      t.allocator.result.timeBase = some s.allocator.base ∧ OutsideAllocationKept s t) ∧
    (hasBackup s c = false ∨ (consumer s c).state ≠ .active →
      exec (.fuelBackup f c) s = .next (respond f.party 0x14 .wrongState [stateField s c] s))

/-- FUEL GAS by the owner of a consumer in BACKUP begins a purge toward ACTIVE, BACKUP_EN_c is deasserted, and stage 1 of the
event that follows gives the reservation or takes it away; in any other state it is refused WRONG_STATE and changes nothing
(R81). -/
def Obligations.FuelGasPurgesTowardActive : Prop :=
  ∀ (s : State) (f : Frame) (c : Fin 8), Calm s → Taken s f 2 → ownerOf s c = f.party →
    ((consumer s c).state = .backup → ∃ t : State, exec (.fuelGas f c) s = .next t ∧
      Answered s t f.party { code := 0x15, status := .done, fields := [.u8 (consumerStateCode .purging)] } ∧
      consumer t c = withTimers (withPurge
        { consumer s c with
          state := .purging
          purgeTimer := some { start := s.supervisor.base, length := 1000 * consumerItem s c cPurgeTime } }
        (consumer t c)) (consumer t c) ∧
      Reserved t c ∧ t.lines.gasEn[c] = false ∧ t.lines.backupEn[c] = false ∧
      t.allocator.result.timeBase = some s.allocator.base ∧ OutsideAllocationKept s t) ∧
    ((consumer s c).state ≠ .backup →
      exec (.fuelGas f c) s = .next (respond f.party 0x15 .wrongState [stateField s c] s))

/-- At the expiry of its purge timer a consumer whose line pressure is VALID and at or below the threshold enters the target
that stands, with the valve line of that state asserted; it enters ACTIVE with its reservation released and an event
following, which leaves it there where it is of class 0 or the floors fit with its own, and where they do not may shed it at
once, toward BACKUP or to SHED (R59, R68, R84). -/
def Obligations.ConfirmedPurgeEntersItsTarget : Prop :=
  ∀ (s : State) (c : Fin 8) (tm : Timer), Calm s → (consumer s c).state = .purging → (consumer s c).purgeTimer = some tm →
    tm.start + tm.length ≤ s.supervisor.base → (sample s (lineChannel c)).state = .valid →
    valueInUse s (lineChannel c) ≤ item s (.consumer c cPurgeThreshold) →
    ∃ t : State, exec (.purgeExpiry c) s = .next t ∧ OutsideAllocationKept s t ∧ t.links.ports = s.links.ports ∧
      (∀ e ∈ [(PurgeTarget.backup, ConsumerState.backup), (.shed, .shed), (.off, .off)],
        (consumer s c).target = some e.1 →
        (consumer t c).state = e.2 ∧ (consumer t c).target = none ∧ (consumer t c).reservation = .none ∧
        (consumer t c).purgeTimer = none ∧ (consumer t c).shedFlag = (consumer s c).shedFlag ∧
        t.lines.gasEn[c] = false ∧ t.lines.backupEn[c] = decide (e.2 = .backup) ∧ t.allocator = s.allocator ∧
        ∀ d : Fin 8, d ≠ c → consumer t d = consumer s d) ∧
      ((consumer s c).target = some .active →
        (classOf s c = 0 ∨ floorSum s + litFloor s c ≤ availableRate s → (consumer t c).state = .active) ∧
        ((consumer t c).state = .active → (consumer t c).target = none ∧ (consumer t c).purgeTimer = none ∧
          (consumer t c).passingTimer = none ∧ t.lines.gasEn[c] = true) ∧
        ((consumer t c).state ≠ .active → grant t c = 0 ∧ (consumer t c).shedFlag = true ∧ t.lines.gasEn[c] = false ∧
          if hasBackup s c then (consumer t c).state = .purging ∧ (consumer t c).target = some .backup
          else (consumer t c).state = .shed) ∧
        reservation t c = 0 ∧ t.lines.backupEn[c] = false ∧ t.allocator.result.timeBase = some s.allocator.base)

/-- A purge that ends with the line pressure HELD, NEVER or above the threshold trips the consumer with PURGE_FAIL: both
lines low, its reservation released, no event following, TRIP raised for its owner and for WORKS, and the recovery delay started
in AUTO with the recovery count below 3 (R68, R84, R93, R97). -/
def Obligations.FailedPurgeTrips : Prop :=
  ∀ (s : State) (c : Fin 8) (tm : Timer), Calm s → (consumer s c).state = .purging → (consumer s c).purgeTimer = some tm →
    tm.start + tm.length ≤ s.supervisor.base →
    ((sample s (lineChannel c)).state ≠ .valid ∨ item s (.consumer c cPurgeThreshold) < valueInUse s (lineChannel c)) →
    ∃ t : State, exec (.purgeExpiry c) s = .next t ∧ OutsideAllocationKept s t ∧ OtherNoticesKept s t clsTrip ∧
      (consumer t c).state = .tripped ∧ (consumer t c).causes = { (consumer s c).causes with purgeFail := true } ∧
      (consumer t c).target = none ∧ (consumer t c).reservation = .none ∧ (consumer t c).purgeTimer = none ∧
      (consumer t c).shedFlag = false ∧
      (consumer t c).lastTrip = some { time := s.settlement.clock, causes := (consumer t c).causes } ∧
      (consumer t c).recoveryTimer = recoveryStarted s c ∧
      t.lines.gasEn[c] = false ∧ t.lines.backupEn[c] = false ∧
      t.allocator = { s.allocator with result := { s.allocator.result with
        reservations := s.allocator.result.reservations.set c 0,
        surplus := s.allocator.result.surplus + reservation s c } } ∧
      (∀ p : Party, t.links.notices[partyIndex p][clsTrip] =
        if p = ownerOf s c ∨ p = .works then
          addOccurrence (.trip c (consumer t c).causes s.settlement.clock) s.links.notices[partyIndex p][clsTrip]
        else s.links.notices[partyIndex p][clsTrip]) ∧
      ∀ d : Fin 8, d ≠ c → consumer t d = consumer s d

/-- At the expiry of a mask timer whose condition still holds, the consumer trips with the cause of Table 5-6-2, its lines
low, a TRIP for its owner and WORKS, the last trip set, the recovery delay started in AUTO with the recovery count below 3
(R97), and, from ACTIVE, its grant gone; a consumer TRIPPED already takes VALVE_PASSING into its causes and stays, its delay
running on; where the condition no longer holds or applies, the timer is stopped and nothing else follows; with a line minimum of
0 the line-low condition never holds (R89 to R93). -/
def Obligations.MaskExpiryTripsOrStops : Prop :=
  ∀ (s : State) (c : Fin 8) (tm : Timer), Calm s → tm.start + tm.length ≤ s.supervisor.base →
    ((consumer s c).overdrawTimer = some tm →
      ((consumer s c).state = .active → overdrawLimit s c < draw s c → ∃ t : State,
        exec (.overdrawMaskExpiry c) s = .next t ∧ (consumer t c).state = .tripped ∧
        (consumer t c).causes = { (consumer s c).causes with overdraw := true } ∧ grant t c = 0 ∧ TripTimed s t c ∧
        TripNoticed s t c (consumer t c).causes ∧
        t.lines.gasEn[c] = false ∧ t.lines.backupEn[c] = false ∧ OutsideAllocationKept s t) ∧
      ((consumer s c).state ≠ .active ∨ draw s c ≤ overdrawLimit s c → exec (.overdrawMaskExpiry c) s =
        .next (setConsumer c { consumer s c with overdrawTimer := none } s))) ∧
    ((consumer s c).lineLowTimer = some tm →
      ((consumer s c).state = .active → item s (.consumer c cLineMinimum) ≠ 0 →
        valueInUse s (lineChannel c) < item s (.consumer c cLineMinimum) → ∃ t : State,
        exec (.lineLowMaskExpiry c) s = .next t ∧ (consumer t c).state = .tripped ∧
        (consumer t c).causes = { (consumer s c).causes with lineLow := true } ∧ grant t c = 0 ∧ TripTimed s t c ∧
        TripNoticed s t c (consumer t c).causes ∧
        t.lines.gasEn[c] = false ∧ t.lines.backupEn[c] = false ∧ OutsideAllocationKept s t) ∧
      ((consumer s c).state ≠ .active ∨ item s (.consumer c cLineMinimum) = 0 ∨
          item s (.consumer c cLineMinimum) ≤ valueInUse s (lineChannel c) →
        exec (.lineLowMaskExpiry c) s = .next (setConsumer c { consumer s c with lineLowTimer := none } s))) ∧
    ((consumer s c).passingTimer = some tm →
      ((consumer s c).state ≠ .active → (consumer s c).state ≠ .tripped →
        consumerItem s c cPassingThreshold < draw s c → ∃ t : State,
        exec (.passingMaskExpiry c) s = .next t ∧ (consumer t c).state = .tripped ∧
        (consumer t c).causes = { (consumer s c).causes with valvePassing := true } ∧ TripTimed s t c ∧
        TripNoticed s t c (consumer t c).causes ∧
        t.lines.gasEn[c] = false ∧ t.lines.backupEn[c] = false ∧ OutsideAllocationKept s t) ∧
      ((consumer s c).state = .tripped → (consumer s c).causes.valvePassing = false →
        consumerItem s c cPassingThreshold < draw s c → ∃ t : State,
        exec (.passingMaskExpiry c) s = .next t ∧
        consumer t c = { consumer s c with
          causes := { (consumer s c).causes with valvePassing := true }, passingTimer := none
          lastTrip := some { time := s.settlement.clock, causes := { (consumer s c).causes with valvePassing := true } } } ∧
        TripNoticed s t c (consumer t c).causes ∧ OtherNoticesKept s t clsTrip ∧
        (∀ d : Fin 8, d ≠ c → consumer t d = consumer s d) ∧ t.allocator = s.allocator ∧ OutsideAllocationKept s t) ∧
      ((consumer s c).state = .active ∨ draw s c ≤ consumerItem s c cPassingThreshold ∨
          ((consumer s c).state = .tripped ∧ (consumer s c).causes.valvePassing = true) →
        exec (.passingMaskExpiry c) s = .next (setConsumer c { consumer s c with passingTimer := none } s)))

/-- At the expiry of the low-draw timer with the condition still holding, LOW_DRAW is raised for the owner alone and the
timer is started again; where it no longer holds the timer is stopped; nothing else moves (R94). -/
def Obligations.LowDrawExpiryOnlyReports : Prop :=
  ∀ (s : State) (c : Fin 8) (tm : Timer), Calm s → (consumer s c).lowDrawTimer = some tm →
    tm.start + tm.length ≤ s.supervisor.base →
    ((consumer s c).state = .active → draw s c < grant s c * consumerItem s c cLowPct / 100 →
      exec (.lowDrawTimerExpiry c) s = .next (raiseFor (ownerOf s c) clsLowDraw (.lowDraw c)
        (setConsumer c { consumer s c with
          lowDrawTimer := some { start := s.supervisor.base, length := 1000 * consumerItem s c cLowDrawTime } } s))) ∧
    ((consumer s c).state ≠ .active ∨ grant s c * consumerItem s c cLowPct / 100 ≤ draw s c →
      exec (.lowDrawTimerExpiry c) s = .next (setConsumer c { consumer s c with lowDrawTimer := none } s))

/-- At the expiry of the recovery delay a TRIPPED consumer in AUTO with its count below 3 whose recheck passes purges toward
ACTIVE with its causes cleared and its count one higher, without a TRIP; where the recheck fails only the delay is started
again (R97). -/
def Obligations.RecoveryExpiryPurgesOrWaits : Prop :=
  ∀ (s : State) (c : Fin 8) (tm : Timer), Calm s → (consumer s c).recoveryTimer = some tm →
    tm.start + tm.length ≤ s.supervisor.base → (consumer s c).state = .tripped → isAuto s c = true →
    (consumer s c).recoveryCount < 3 →
    (recheckPasses s c = true → ∃ t : State, exec (.recoveryDelayExpiry c) s = .next t ∧
      consumer t c = withTimers (withPurge
        { consumer s c with
          state := .purging, causes := noCauses, recoveryCount := (consumer s c).recoveryCount + 1, recoveryTimer := none
          purgeTimer := some { start := s.supervisor.base, length := 1000 * consumerItem s c cPurgeTime } }
        (consumer t c)) (consumer t c) ∧
      Reserved t c ∧ t.allocator.result.timeBase = some s.allocator.base ∧ t.links.ports = s.links.ports ∧
      (∀ p : Fin 3, t.links.notices[p][clsTrip] = s.links.notices[p][clsTrip]) ∧ OutsideAllocationKept s t) ∧
    (recheckPasses s c = false → exec (.recoveryDelayExpiry c) s = .next (setConsumer c { consumer s c with
      recoveryTimer := some { start := s.supervisor.base, length := 1000 * consumerItem s c cRecoveryDelay } } s))

/-! ## Export schedule and contract (chapters 6 and 7) -/

/-- SCHEDULE is GRID's and needs a RUNNING clock; it is refused at the first failing check of its table with the list as it
was; one that passes all five replaces the entry of its start or joins the list at its place, and every response carries the
number of entries (R104, R106). -/
def Obligations.ScheduleChecksAndInsertsTheEntry : Prop :=
  ∀ (s : State) (f : Frame) (start kw : Nat), Calm s → ScheduleOrdered s → Taken s f 11 →
    (∀ st, ((f.party ≠ .grid ∧ st = .notParty) ∨
        (f.party = .grid ∧ s.settlement.clock = none ∧ st = .clockUnset) ∨
        (f.party = .grid ∧ s.settlement.clock ≠ none ∧
          ((2000000 < kw ∧ st = .outOfRange) ∨
           (kw ≤ 2000000 ∧ start % itemNat s .intervalLength ≠ 0 ∧ st = .outOfRange) ∨
           (kw ≤ 2000000 ∧ start % itemNat s .intervalLength = 0 ∧
             start < currentRegularStart s + itemNat s (.exportItem xGate) * itemNat s .intervalLength ∧ st = .gateClosed) ∨
           (kw ≤ 2000000 ∧ start % itemNat s .intervalLength = 0 ∧
             currentRegularStart s + itemNat s (.exportItem xGate) * itemNat s .intervalLength ≤ start ∧
             currentRegularStart s + 8 * itemNat s .intervalLength < start ∧ st = .outOfRange) ∨
           (kw ≤ 2000000 ∧ start % itemNat s .intervalLength = 0 ∧
             currentRegularStart s + itemNat s (.exportItem xGate) * itemNat s .intervalLength ≤ start ∧
             start ≤ currentRegularStart s + 8 * itemNat s .intervalLength ∧ 8 ≤ s.exports.schedule.length ∧
             (∀ e ∈ s.exports.schedule, e.start ≠ start) ∧ st = .tableFull)))) →
      exec (.schedule f start kw) s = .next (respond f.party 0x20 st [.u32 s.exports.schedule.length] s)) ∧
    (f.party = .grid → s.settlement.clock ≠ none → kw ≤ 2000000 → start % itemNat s .intervalLength = 0 →
      currentRegularStart s + itemNat s (.exportItem xGate) * itemNat s .intervalLength ≤ start →
      start ≤ currentRegularStart s + 8 * itemNat s .intervalLength →
      s.exports.schedule.length < 8 ∨ (∃ e ∈ s.exports.schedule, e.start = start) →
      ∃ l : List ScheduleEntry,
        exec (.schedule f start kw) s = .next (respond .grid 0x20 .done [.u32 l.length]
          { s with exports := { s.exports with schedule := l } }) ∧
        (∀ e, e ∈ l ↔ e = ⟨start, kw⟩ ∨ (e ∈ s.exports.schedule ∧ e.start ≠ start)) ∧
        l.Pairwise (fun a b => a.start < b.start) ∧
        l.length = (if isListed s start then s.exports.schedule.length else s.exports.schedule.length + 1))

/-- WRITE while COMMISSIONING of an item in no entry, with a value in range, a consistent change, an OFF consumer for a
structural item and an UNSET clock for the interval length, puts that value and no other in force, clears the damage mark of
the item's consumer, raises the revision by 1 and marks the open record (R99, R117, R123, R125). The change acts on its block: a
source's in-service item is followed by an allocation event, which restarts the period, and no other item is (R53); a zero-flow
expiry already passed is taken at once (R3, R7); a grant above a demand so lowered is cut to it (R69, R109, R110); the recovery
delay starts and stops with the recovery mode (R97); and a consumer's item is an evaluation point of the consumer (R100). That a
WRITE of the value already in force acts so too, and that a default export written while the clock is UNSET cuts the grant of the
export-linked consumer, is deduced (log 18). -/
def Obligations.WritePutsTheValueInForce : Prop :=
  ∀ (s : State) (f : Frame) (name : ItemName) (i : Item) (v : Int), Calm s → Taken s f 8 →
    resolveName name = some (.item i) → s.contracts.locked = false →
    (∀ e ∈ s.contracts.proposals, ∀ x ∈ e.items, x.1 ≠ .item i) → itemInRange i v = true →
    (∀ c, isStructural i = true → itemConsumer i = some c → (consumer s c).state = .off) →
    (i = .intervalLength → s.settlement.clock = none) → consistent (projected s) [(i, v)] = true →
    ∃ t : State, exec (.write f name v) s = .next t ∧ Answered s t f.party ⟨0x40, .done, []⟩ ∧
      item t i = v ∧ (∀ j, j ≠ i → item t j = item s j) ∧
      t.contracts = { s.contracts with
        contract := t.contracts.contract, revision := (s.contracts.revision + 1) % 4294967296 } ∧
      (∀ c, itemConsumer i = some c → (consumer t c).damageMark = false) ∧
      (∀ c, itemConsumer i ≠ some c → (consumer t c).damageMark = (consumer s c).damageMark) ∧
      (∀ c, (consumer t c).nomination = (consumer s c).nomination) ∧ ActedOn s t i v ∧
      t.settlement.openRecord.map (fun o => { o with flare := 0 }) =
        s.settlement.openRecord.map (fun o => { o with flare := 0, contractChanged := true }) ∧
      SettlementKept s t ∧ t.power = s.power ∧ t.metering = s.metering ∧ t.band = s.band ∧ t.exports = s.exports ∧
      t.store = s.store ∧ t.links.masks = s.links.masks ∧ t.field.samples = s.field.samples ∧ t.pending = s.pending

/-- WRITE is refused at the first failing check of its table and then changes nothing (R123). -/
def Obligations.WriteIsRefusedAtItsFirstFailingCheck : Prop :=
  ∀ (s : State) (f : Frame) (name : ItemName) (r : ItemRef) (v : Int) (st : Status), Calm s → Taken s f 8 →
    resolveName name = some r →
    ((s.contracts.locked = true ∧ st = .locked) ∨
     (s.contracts.locked = false ∧ (r = .offset ∨ r = .lock) ∧ st = .outOfRange) ∨
     (s.contracts.locked = false ∧ ∃ i, r = .item i ∧
       ((entryNaming s r ≠ none ∧ st = .conflict) ∨
        (entryNaming s r = none ∧ itemInRange i v = false ∧ st = .outOfRange) ∨
        (entryNaming s r = none ∧ itemInRange i v = true ∧
          ((∃ c, isStructural i = true ∧ itemConsumer i = some c ∧ (consumer s c).state ≠ .off) ∨
           (i = .intervalLength ∧ s.settlement.clock ≠ none)) ∧ st = .wrongState) ∨
        (entryNaming s r = none ∧ itemInRange i v = true ∧
          (∀ c, isStructural i = true → itemConsumer i = some c → (consumer s c).state = .off) ∧
          (i = .intervalLength → s.settlement.clock = none) ∧ consistent (projected s) [(i, v)] = false ∧
          st = .inconsistent)))) →
    exec (.write f name v) s = .next (respond f.party 0x40 st [] s)

/-- WRITE IDENTITY replaces code and name at once while COMMISSIONING and leaves the revision; while LOCKED, and for a name
longer than 24 characters or with one outside 20h to 7Eh, it is refused and changes nothing (R124); that LOCKED is judged
before the name is the model's choice (log 20). -/
def Obligations.WriteIdentityReplacesBothFields : Prop :=
  ∀ (s : State) (f : Frame) (code : Nat) (name : List Byte), Calm s → Taken s f (6 + name.length) → code < 4294967296 →
    (s.contracts.locked = true → exec (.writeIdentity f code name) s = .next (respond f.party 0x42 .locked [] s)) ∧
    (s.contracts.locked = false → name.length ≤ 24 → (∀ b ∈ name, 0x20 ≤ b.toNat ∧ b.toNat ≤ 0x7E) →
      exec (.writeIdentity f code name) s = .next (respond f.party 0x42 .done []
        { s with contracts := { s.contracts with siteCode := code, siteName := name } })) ∧
    (s.contracts.locked = false → 24 < name.length ∨ (∃ b ∈ name, b.toNat < 0x20 ∨ 0x7E < b.toNat) →
      exec (.writeIdentity f code name) s = .next (respond f.party 0x42 .outOfRange [] s))

/-- A PROPOSE that passes the nine checks opens an entry at the end of the table with a number that no entry carries, the
next proposal number where it is free, and OPENED for the entry's parties; where the proposer alone makes up the set it is
STAGED at once, otherwise OPEN for 1,800 s (R126, R127, R132); one that fails is refused with the status of the first check
that it fails, and changes nothing (R127). Which number follows one that an entry carries is the model's choice, and left open
here; that the right to propose is judged on the sets of the projected contract is deduced (log 21). -/
def Obligations.ProposeOpensAnEntry : Prop :=
  (∀ (s : State) (f : Frame) (names : List (ItemName × Int)) (items : List (ItemRef × Int)) (k : Fin 9), Calm s →
    Taken s f (2 + 7 * names.length) → resolveItems names = some items →
    (∀ j : Fin 9, j < k → passesCheck f.party items s j = true) → passesCheck f.party items s k = false →
    exec (.propose f names) s = .next (respond f.party 0x30 (proposeRefusal k) [] s)) ∧
  ∀ (s : State) (f : Frame) (names : List (ItemName × Int)) (items : List (ItemRef × Int)), Calm s →
    Taken s f (2 + 7 * names.length) → resolveItems names = some items →
    1 ≤ items.length → items.length ≤ 6 → (items.map (·.1)).Nodup →
    (items.length = 1 ∨ ∀ e ∈ items, e.1 ≠ .offset ∧ e.1 ≠ .lock) →
    (∀ e ∈ items, isWriteOnlyRef e.1 = false ∧ hasParty (refSet (projected s) e.1) f.party = true) →
    ((∃ e ∈ items, e.1 = .offset) → s.settlement.clock ≠ none) → (∀ e ∈ items, entryNaming s e.1 = none) →
    s.contracts.proposals.length < 8 → (∀ e ∈ items, refInRange e.1 e.2 = true) →
    consistent (projected s) (heldItems items) = true → ((∃ e ∈ items, e.1 = .lock) → s.contracts.locked = false) →
    ∃ (t : State) (e : Proposal), exec (.propose f names) s = .next t ∧
      t.contracts = { s.contracts with
        proposals := s.contracts.proposals ++ [e], nextProposal := if e.number < 65535 then e.number + 1 else 1 } ∧
      e.proposer = f.party ∧ e.items = items ∧ e.concurred = onlyParty f.party ∧ e.deferred = false ∧
      (∀ p : Party, hasParty e.parties p = items.any fun i => hasParty (refSet (projected s) i.1) p) ∧
      e.staged = decide (e.parties = onlyParty f.party) ∧
      e.expiry = (if e.parties = onlyParty f.party then none else some (s.contracts.base + 1800)) ∧
      (∀ x ∈ s.contracts.proposals, x.number ≠ e.number) ∧
      ((∀ x ∈ s.contracts.proposals, x.number ≠ s.contracts.nextProposal) → e.number = s.contracts.nextProposal) ∧
      Answered s t f.party ⟨0x30, .done, [.u16 e.number, .u8 (if e.staged then 1 else 0)]⟩ ∧
      t.links.masks = s.links.masks ∧ PermissivesKept s t ∧
      (∀ p : Party, ∀ k : Fin 10, (k ≠ clsProposal ∨ hasParty e.parties p = false) →
        t.links.notices[partyIndex p][k] = s.links.notices[partyIndex p][k]) ∧
      (∀ p : Party, hasParty e.parties p = true → t.links.notices[partyIndex p][clsProposal] =
        if e.staged then addOccurrence (.proposal e.number .staged)
          (addOccurrence (.proposal e.number .opened) s.links.notices[partyIndex p][clsProposal])
        else addOccurrence (.proposal e.number .opened) s.links.notices[partyIndex p][clsProposal]) ∧
      t.power = s.power ∧ t.freeIndex = s.freeIndex ∧ t.field = s.field ∧ t.metering = s.metering ∧ t.band = s.band ∧
      t.allocator = s.allocator ∧ t.supervisor = s.supervisor ∧ t.exports = s.exports ∧ t.settlement = s.settlement ∧
      t.store = s.store ∧ t.pending = s.pending

/-- CONCUR is refused NOT_FOUND and NOT_PARTY; from a party that has concurred it changes nothing; one that does not complete
the entry only adds its party; one that completes an ordinary entry makes it STAGED with a notice; one that completes a lock
entry locks the contract, raises the revision and removes the entry (R128, R136). -/
def Obligations.ConcurJoinsAndCompletes : Prop :=
  ∀ (s : State) (f : Frame) (number : Nat), Calm s → Taken s f 3 →
    (entryOf s number = none → exec (.concur f number) s = .next (respond f.party 0x31 .notFound [] s)) ∧
    ∀ e : Proposal, entryOf s number = some e →
      (hasParty e.parties f.party = false → exec (.concur f number) s = .next (respond f.party 0x31 .notParty [] s)) ∧
      (hasParty e.parties f.party = true → hasParty e.concurred f.party = true → exec (.concur f number) s =
        .next (respond f.party 0x31 .done [.u8 (if e.staged then 1 else 0)] s)) ∧
      (hasParty e.parties f.party = true → hasParty e.concurred f.party = false →
        addParty e.concurred f.party ≠ e.parties → exec (.concur f number) s =
        .next (respond f.party 0x31 .done [.u8 (if e.staged then 1 else 0)] { s with contracts := { s.contracts with
          proposals := s.contracts.proposals.map fun x =>
            if x.number = number then { x with concurred := addParty x.concurred f.party } else x } })) ∧
      (hasParty e.parties f.party = true → hasParty e.concurred f.party = false →
        addParty e.concurred f.party = e.parties → (∀ x ∈ e.items, x.1 ≠ .offset ∧ x.1 ≠ .lock) →
        exec (.concur f number) s = .next (respond f.party 0x31 .done [.u8 1]
          (raiseNotice (addParty e.parties e.proposer) clsProposal (.proposal number .staged)
            { s with contracts := { s.contracts with proposals := s.contracts.proposals.map fun x =>
                if x.number = number then
                  { x with concurred := addParty x.concurred f.party, staged := true, expiry := none, deferred := false }
                else x } }))) ∧
      (∀ v, hasParty e.parties f.party = true → hasParty e.concurred f.party = false →
        addParty e.concurred f.party = e.parties → e.items = [(.lock, v)] → ∃ t : State,
        exec (.concur f number) s = .next t ∧ Answered s t f.party ⟨0x31, .done, [.u8 2]⟩ ∧
        t.contracts = { s.contracts with
          proposals := s.contracts.proposals.filter (·.number != number), locked := true
          revision := (s.contracts.revision + 1) % 4294967296 } ∧
        t.settlement = { s.settlement with
          openRecord := s.settlement.openRecord.map fun o => { o with contractChanged := true } } ∧
        (∀ p : Party, t.links.notices[partyIndex p][clsProposal] =
          if hasParty (addParty e.parties e.proposer) p then
            addOccurrence (.proposal number .applied) s.links.notices[partyIndex p][clsProposal]
          else s.links.notices[partyIndex p][clsProposal]) ∧
        t.power = s.power ∧ t.field = s.field ∧ t.metering = s.metering ∧ t.band = s.band ∧
        t.allocator = s.allocator ∧ t.supervisor = s.supervisor ∧ t.exports = s.exports ∧ t.store = s.store ∧
        PermissivesKept s t)

/-- A CONCUR that completes a clock-step entry discards it where the new time would be below 0, with nothing else moved but
its notice; otherwise it applies the entry, closes the open record at the present time with CLOCK_STEP, sets the clock to the
present time plus the offset, and opens a record there with CLOCK_STEP (R137, R146). The recovery counts return to 0 and
idle AUTO delays start (R98). That the second under way goes on (log 15), which place of the ring a record takes (log 14) and
that the length is open where the start lies past the present time (log 40) are the model's choices, and that a record which joins an empty ring is found by every cursor is deduced (log 22). -/
def Obligations.CompletedClockStepMovesTheClock : Prop :=
  ∀ (s : State) (f : Frame) (number k : Nat) (d : Int) (e : Proposal) (o : OpenRecord), Calm s → ScheduleOrdered s →
    Taken s f 3 → entryOf s number = some e → e.items = [(.offset, d)] → e.staged = false →
    hasParty e.parties f.party = true → hasParty e.concurred f.party = false → addParty e.concurred f.party = e.parties →
    s.settlement.clock = some k → s.settlement.openRecord = some o →
    ((k : Int) + d < 0 → exec (.concur f number) s = .next (respond f.party 0x31 .done [.u8 3]
      (raiseNotice (addParty e.parties e.proposer) clsProposal (.proposal number .discarded)
        { s with contracts := { s.contracts with
          proposals := s.contracts.proposals.filter (·.number != number) } }))) ∧
    (0 ≤ (k : Int) + d → (k : Int) + d < 281474976710656 → ∃ (t : State) (r : ArchiveRecord) (o' : OpenRecord),
      exec (.concur f number) s = .next t ∧ Answered s t f.party ⟨0x31, .done, [.u8 2]⟩ ∧
      (∀ x ∈ t.contracts.proposals, x.number ≠ number) ∧
      t.settlement.clock = some ((k : Int) + d).toNat ∧ t.settlement.clockMillis = s.settlement.clockMillis ∧
      RecordedAs s t o r k (creditedFlare s o) true false ∧ Joined s t r ∧
      OpenedAt s t ((k : Int) + d).toNat o' ∧ o'.clockStep = true ∧ o'.outage = false ∧
      LatchedAt s t (((k : Int) + d).toNat - ((k : Int) + d).toNat % itemNat t .intervalLength) ∧
      RecoveryAtBoundary s t ∧ OutsideBoundaryKept s t)

/-- REJECT, from any party of the set, and WITHDRAW, from the proposer alone, remove an OPEN entry with REJECTED or WITHDRAWN
for its parties; they are refused NOT_FOUND, NOT_PARTY and, for a STAGED entry, WRONG_STATE, in that order (R129). -/
def Obligations.RejectAndWithdrawRemoveAnOpenEntry : Prop :=
  ∀ (s : State) (f : Frame) (number : Nat), Calm s → Taken s f 3 →
    (entryOf s number = none →
      exec (.reject f number) s = .next (respond f.party 0x32 .notFound [] s) ∧
      exec (.withdraw f number) s = .next (respond f.party 0x33 .notFound [] s)) ∧
    ∀ e : Proposal, entryOf s number = some e →
      (hasParty e.parties f.party = false → exec (.reject f number) s = .next (respond f.party 0x32 .notParty [] s)) ∧
      (e.proposer ≠ f.party → exec (.withdraw f number) s = .next (respond f.party 0x33 .notParty [] s)) ∧
      (hasParty e.parties f.party = true → e.staged = true →
        exec (.reject f number) s = .next (respond f.party 0x32 .wrongState [] s)) ∧
      (e.proposer = f.party → e.staged = true →
        exec (.withdraw f number) s = .next (respond f.party 0x33 .wrongState [] s)) ∧
      (hasParty e.parties f.party = true → e.staged = false → exec (.reject f number) s =
        .next (respond f.party 0x32 .done []
          (raiseNotice (addParty e.parties e.proposer) clsProposal (.proposal number .rejected)
            { s with contracts := { s.contracts with
              proposals := s.contracts.proposals.filter (·.number != number) } }))) ∧
      (e.proposer = f.party → e.staged = false → exec (.withdraw f number) s =
        .next (respond f.party 0x33 .done []
          (raiseNotice (addParty e.parties e.proposer) clsProposal (.proposal number .withdrawn)
            { s with contracts := { s.contracts with
              proposals := s.contracts.proposals.filter (·.number != number) } })))

/-- An OPEN entry leaves the table with EXPIRED when the proposal time base reaches its expiry time, and not before; a STAGED
entry waits without limit (R130). A command that comes before its event falls changes nothing (log 3). -/
def Obligations.ProposalExpiryRemovesAnOpenEntry : Prop :=
  ∀ (s : State) (number due : Nat) (e : Proposal), Calm s → entryOf s number = some e →
    (e.staged = false → e.expiry = some due → due ≤ s.contracts.base → exec (.proposalExpiry number) s =
      .next (raiseNotice (addParty e.parties e.proposer) clsProposal (.proposal number .expired)
        { s with contracts := { s.contracts with
          proposals := s.contracts.proposals.filter (·.number != number) } })) ∧
    (e.staged = true ∨ (e.expiry = some due ∧ s.contracts.base < due) → exec (.proposalExpiry number) s = .next s)

/-! ## Settlement (chapter 8) -/

/-- WRITE CLOCK is refused LOCKED while LOCKED; with the clock UNSET it sets it and opens the first record there, closing
none; with the clock RUNNING it is a step to the value: the open record is closed at the present time with CLOCK_STEP and one
opens at the value with CLOCK_STEP (R143, R146, R150, R151). In an empty ring every cursor stands at the next record number, also
once the opening has raised it (R155). The recovery counts return to 0 and idle AUTO delays start (R98). The place of the ring
that a record takes is the model's choice (log 14), and so is the open length where the start lies past the present time
(log 40); that a record which joins an empty ring is found by every cursor is deduced (log 22). -/
def Obligations.WriteClockOpensOrSteps : Prop :=
  ∀ (s : State) (f : Frame) (time : Nat), Calm s → ScheduleOrdered s → Taken s f 5 → time < 4294967296 →
    (s.contracts.locked = true → exec (.writeClock f time) s = .next (respond f.party 0x41 .locked [] s)) ∧
    (s.contracts.locked = false → s.settlement.clock = none → s.settlement.openRecord = none →
      ∃ (t : State) (o : OpenRecord), exec (.writeClock f time) s = .next t ∧
        Answered s t f.party ⟨0x41, .done, [.u48 time]⟩ ∧ t.settlement.clock = some time ∧ OpenedAt s t time o ∧
        o.clockStep = false ∧ o.outage = false ∧ LatchedAt s t (time - time % itemNat t .intervalLength) ∧
        t.settlement.archive = s.settlement.archive ∧
        t.settlement.cursors = cursorsAt s t.settlement.nextRecord ∧ t.settlement.gapMarks = s.settlement.gapMarks ∧
        t.settlement.heatAccount = s.settlement.heatAccount ∧ t.settlement.gasAccount = s.settlement.gasAccount ∧
        (∀ p : Fin 3, t.links.notices[p][clsSettlement] = s.links.notices[p][clsSettlement]) ∧
        RecoveryAtBoundary s t ∧ OutsideBoundaryKept s t) ∧
    (∀ (k : Nat) (o : OpenRecord), s.contracts.locked = false → s.settlement.clock = some k →
      s.settlement.openRecord = some o → ∃ (t : State) (r : ArchiveRecord) (o' : OpenRecord),
        exec (.writeClock f time) s = .next t ∧ Answered s t f.party ⟨0x41, .done, [.u48 time]⟩ ∧
        t.settlement.clock = some time ∧ RecordedAs s t o r k (creditedFlare s o) true false ∧
        Joined s t r ∧ OpenedAt s t time o' ∧ o'.clockStep = true ∧ o'.outage = false ∧
        LatchedAt s t (time - time % itemNat t .intervalLength) ∧
        (∀ p : Fin 3, t.links.notices[p][clsSettlement] =
          addOccurrence (.settlement o.number) s.links.notices[p][clsSettlement]) ∧
        RecoveryAtBoundary s t ∧ OutsideBoundaryKept s t)

/-- TRIM moves the clock by its correction, within the open record, once for each record: it is refused CLOCK_UNSET,
OUT_OF_RANGE for 0 and beyond 20 s, and WRONG_STATE once taken; a target before the start or at or after the end is clamped
and answered CLAMPED; nothing but the clock and the trim mark moves (R144). That the second under way goes on is the model's
choice (log 15), and so is the open value, within its range, of a clock that a trim would carry past 281,474,976,710,655
(R142, log 7). -/
def Obligations.TrimMovesTheClockOnce : Prop :=
  ∀ (s : State) (f : Frame) (d : Int), Calm s → Taken s f 2 →
    (s.settlement.clock = none → exec (.trim f d) s = .next (respond f.party 0x43 .clockUnset [] s)) ∧
    (s.settlement.clock ≠ none → d = 0 ∨ d < -20 ∨ 20 < d →
      exec (.trim f d) s = .next (respond f.party 0x43 .outOfRange [] s)) ∧
    ∀ (k : Nat) (o : OpenRecord), s.settlement.clock = some k → s.settlement.openRecord = some o → d ≠ 0 → -20 ≤ d →
      d ≤ 20 →
      (o.trimmed = true → exec (.trim f d) s = .next (respond f.party 0x43 .wrongState [] s)) ∧
      (o.trimmed = false → o.start < o.stop → ∃ time : Nat, time < 281474976710656 ∧
        let target := (max (o.start : Int) (min ((k : Int) + d) ((o.stop : Int) - 1))).toNat
        (target < 281474976710656 → time = target) ∧
        exec (.trim f d) s = .next (respond f.party 0x43
          (if (k : Int) + d < o.start ∨ (o.stop : Int) ≤ (k : Int) + d then .clamped else .done) []
          { s with
            freeIndex := s.freeIndex + (if target < 281474976710656 then 0 else 1)
            settlement := { s.settlement with clock := some time, openRecord := some { o with trimmed := true } } }))

/-- A regular boundary closes the open record at its end and opens the next at the present time under the contract that the
application leaves: archive record, ring, accounts, latch, schedule list, recovery counts and delays, and the SETTLEMENT notice
(R98, R108, R147, R150 to R155). The STAGED entries are taken in list order: deferred with a structural item of a consumer that is not OFF,
discarded where inconsistent with the running base, applied otherwise, with one new revision and a PROPOSAL notice each (R134,
R135). Before the clock reaches the end none falls, and the command changes nothing (log 3). The place of the ring that a record
takes is the model's choice (log 14), and so is the open length of a record whose start lies past its end (log 40). That a record
which joins an empty ring is found by every cursor is deduced (log 22), and so are an end and a new start that do not join where
the end lies before the present time (log 39). -/
def Obligations.RegularBoundaryClosesAndOpens : Prop :=
  ∀ (s : State) (k : Nat) (o : OpenRecord), Calm s → ScheduleOrdered s → s.settlement.clock = some k →
    s.settlement.openRecord = some o →
    (o.stop ≤ k → ∃ (t : State) (r : ArchiveRecord) (o' : OpenRecord), exec .regularBoundary s = .next t ∧
      RecordedAs s t o r o.stop (creditedFlare s o) false false ∧ Joined s t r ∧ OpenedAt s t k o' ∧
      o'.clockStep = false ∧ o'.outage = false ∧ LatchedAt s t (k - k % itemNat t .intervalLength) ∧
      t.settlement.clock = s.settlement.clock ∧
      EntriesTaken s t (fates (fun c => (consumer s c).state != .off) s.contracts.contract s.contracts.proposals) ∧
      (∀ p : Party, t.links.notices[partyIndex p][clsProposal] = toldOf p
        (fates (fun c => (consumer s c).state != .off) s.contracts.contract s.contracts.proposals)
        s.links.notices[partyIndex p][clsProposal]) ∧
      (∀ p : Fin 3, t.links.notices[p][clsSettlement] =
        addOccurrence (.settlement o.number) s.links.notices[p][clsSettlement]) ∧
      RecoveryAtBoundary s t ∧ t.links.ports = s.links.ports ∧ OutsideBoundaryKept s t) ∧
    (k < o.stop → exec .regularBoundary s = .next s)

/-- ARCHIVE reads at the party's cursor, or at the oldest record where its gap mark is set; a record found damaged is
answered DAMAGED with its number, any other DONE with the record; the cursor passes the record and the gap mark is clear;
past the newest record, and for an empty ring, it is answered NONE and changes nothing (R156). -/
def Obligations.ArchiveReadsAtTheCursor : Prop :=
  ∀ (s : State) (f : Frame) (gap : Bool), Calm s → Taken s f 1 → s.settlement.gapMarks[partyIndex f.party] = gap →
    (∀ r : ArchiveRecord,
      ((gap = true ∧ s.settlement.archive.head? = some r) ∨
        (gap = false ∧ s.settlement.archive.find? (·.number == s.settlement.cursors[partyIndex f.party]) = some r)) →
      exec (.archive f) s = .next (respond f.party 0x60
        (if s.store.knownDamaged[placeOf r.number] then .damaged else .done)
        (if s.store.knownDamaged[placeOf r.number] then [.u8 (natOfBool gap), .u32 r.number]
          else .u8 (natOfBool gap) :: recordFields r)
        { s with settlement := { s.settlement with
          cursors := s.settlement.cursors.set (partyIndex f.party) (r.number + 1)
          gapMarks := s.settlement.gapMarks.set (partyIndex f.party) false } })) ∧
    ((gap = true ∧ s.settlement.archive = []) ∨
      (gap = false ∧ ∀ r ∈ s.settlement.archive, r.number ≠ s.settlement.cursors[partyIndex f.party]) →
      exec (.archive f) s = .next (respond f.party 0x60 .none [] s))

/-- CURSOR sets the party's cursor to the oldest record number, the newest, or the number of a record in the ring, clears the
gap mark and answers DONE with the cursor; a number below the oldest or above the newest is refused NOT_FOUND and the cursor
and gap mark stand; in an empty ring OLDEST and NEWEST set it to the next record number (R157), and every number is refused
NOT_FOUND, which is deduced (log 22). -/
def Obligations.CursorMovesWithinTheRing : Prop :=
  (∀ (s : State) (f : Frame) (n : Nat), Calm s → Taken s f 6 → s.settlement.archive = [] →
    (∀ i ∈ [Instr.cursorOldest f, .cursorNewest f],
      exec i s = .next (respond f.party 0x61 .done [.u32 s.settlement.nextRecord] { s with settlement := { s.settlement with
        cursors := s.settlement.cursors.set (partyIndex f.party) s.settlement.nextRecord
        gapMarks := s.settlement.gapMarks.set (partyIndex f.party) false } })) ∧
    exec (.cursorNumber f n) s =
      .next (respond f.party 0x61 .notFound [.u32 s.settlement.cursors[partyIndex f.party]] s)) ∧
  ∀ (s : State) (f : Frame) (first last : ArchiveRecord) (n : Nat), Calm s → Taken s f 6 →
    s.settlement.archive.head? = some first → s.settlement.archive.getLast? = some last →
    (∀ e ∈ [(Instr.cursorOldest f, first.number), (.cursorNewest f, last.number)] ++
        (if first.number ≤ n ∧ n ≤ last.number then [(.cursorNumber f n, n)] else []),
      exec e.1 s = .next (respond f.party 0x61 .done [.u32 e.2] { s with settlement := { s.settlement with
        cursors := s.settlement.cursors.set (partyIndex f.party) e.2
        gapMarks := s.settlement.gapMarks.set (partyIndex f.party) false } })) ∧
    (n < first.number ∨ last.number < n → exec (.cursorNumber f n) s =
      .next (respond f.party 0x61 .notFound [.u32 s.settlement.cursors[partyIndex f.party]] s))

/-! ## Retained store and restart (chapter 9) -/

/-- The sweep reads the word at its position and moves on; after the last word the sweeps completed count rises, staying at
65,535, and the next sweep begins at the first word; a single-bit error that it finds is corrected and counted, where the
word is not one of a known-damaged record (R166, R171). Uncorrectable damage that it finds is counted and told to every party,
and the owner of the thing replaces it as its rule says: a total reseeded (R34), a schedule entry or the latch (R115), an entry
or another state of the Contract Unit (R139), a field of the open record (R162), an account, cursor, gap mark or the next record
number (R163, R168), a nomination or damage mark (R168), the mark of an archive record (R169), the report (R170), a signature
word (R172). Which region a thing is reported under follows Table 9-1-1, with the model's choice for a place without a record
(log 10); that the open record's end is formed again with its start and its end, and stays with every other field, is deduced
(log 19). Damage of the last word, and of several words at once, is left out here. -/
def Obligations.ScrubReadMovesTheSweep : Prop :=
  ∀ s : State, s.power.running = true → s.allocator.triggers = 0 →
    (s.store.errors = [] → s.store.sweepPos + 1 < 16384 →
      exec .scrubRead s = .next { s with store := { s.store with sweepPos := s.store.sweepPos + 1 } }) ∧
    (s.store.errors = [] → s.store.sweepPos = 16383 →
      exec .scrubRead s = .next { s with store := { s.store with
        sweepPos := 0, sweepStart := s.store.sweepBase
        report := { s.store.report with sweeps := min 65535 (s.store.report.sweeps + 1) } } }) ∧
    (s.store.errors = [(s.store.sweepPos, .oneBit)] → s.store.sweepPos + 1 < 16384 →
      (∀ k, thingAt s.store.layout s.store.sweepPos = some (.archive k) → s.store.knownDamaged[k] = false) →
      exec .scrubRead s = .next { s with store := { s.store with
        errors := [], sweepPos := s.store.sweepPos + 1
        report := { s.store.report with corrected := min 65535 (s.store.report.corrected + 1) } } }) ∧
    ∀ x : Thing, s.store.errors = [(s.store.sweepPos, .uncorrectable)] → s.store.sweepPos + 1 < 16384 →
      thingAt s.store.layout s.store.sweepPos = some x → ∃ t : State, exec .scrubRead s = .next t ∧ Replaced s t x ∧
        t.power = s.power ∧ t.band = s.band ∧ t.pending = s.pending ∧
        ∀ p : Fin 3, t.links.notices[p][clsIntegrity] =
          if ∃ k, x = .archive k ∧ s.store.knownDamaged[k] = true then s.links.notices[p][clsIntegrity]
          else addOccurrence (.integrity (regionOf s x)) s.links.notices[p][clsIntegrity]

/-- An item whose word the sweep finds uncorrectable falls to its value after cold start, alone and without a new revision;
the damage is counted, reported and told to every party, the open record is marked CONTRACT_DAMAGED, and the consumer of a
consumer's item carries its damage mark and is TRIPPED with CONTRACT_DAMAGED, its lines low, the recovery delay started where it
enters TRIPPED in AUTO, and running on where it was TRIPPED, but for a recovery mode that falls to MANUAL (R93, R97, R99, R138,
R167). -/
def Obligations.DamagedItemFallsToItsDefault : Prop :=
  ∀ (s : State) (i : Item), s.power.running = true → s.allocator.triggers = 0 →
    s.store.errors = [(s.store.sweepPos, .uncorrectable)] → s.store.sweepPos + 1 < 16384 →
    thingAt s.store.layout s.store.sweepPos = some (.contract i) →
    ∃ t : State, exec .scrubRead s = .next t ∧ item t i = itemDefault i ∧ (∀ j, j ≠ i → item t j = item s j) ∧
      t.contracts = { s.contracts with contract := t.contracts.contract } ∧
      t.store = { s.store with
        errors := [], sweepPos := s.store.sweepPos + 1
        report := { s.store.report with
          uncorrectable := min 65535 (s.store.report.uncorrectable + 1), last := some (regionOf s (.contract i)) } } ∧
      (∀ p : Fin 3, t.links.notices[p][clsIntegrity] =
        addOccurrence (.integrity (regionOf s (.contract i))) s.links.notices[p][clsIntegrity]) ∧
      t.settlement.openRecord.map (fun o => { o with flare := 0 }) =
        s.settlement.openRecord.map (fun o => { o with flare := 0, contractDamaged := true }) ∧
      SettlementKept s t ∧
      (∀ c, itemConsumer i = some c → (consumer t c).damageMark = true ∧ (consumer t c).state = .tripped ∧
        (consumer t c).causes.contractDamaged = true ∧ ((consumer s c).state = .active → grant t c = 0) ∧
        (consumer t c).recoveryTimer =
          (if (consumer s c).state ≠ .tripped then recoveryStarted { s with contracts := t.contracts } c
            else if i = .consumer c cRecoveryMode then none else (consumer s c).recoveryTimer) ∧
        t.lines.gasEn[c] = false ∧ t.lines.backupEn[c] = false) ∧
      (∀ c, itemConsumer i ≠ some c → (consumer t c).damageMark = (consumer s c).damageMark) ∧
      t.metering = s.metering ∧ t.band = s.band ∧ t.power = s.power ∧ t.exports = s.exports ∧ t.pending = s.pending

/-- A start-up without a valid signature is a cold start: whatever the part held, it leaves the state of reset, but for the
supply that failed, the strap's open value, the places of the store and the queue, and for the INTEGRITY occurrences of what the
choice of the restart kind has found (R172 to R174, R190): one for each signature word that was read uncorrectable, in their order,
and before the first of them one for the uncorrectable count where its own words are damaged; a damaged corrected count is found
where a signature word is corrected (R170). One cut short by a loss of supply before the signature is written leaves the part
stopped, its store initialised and the signature still not valid (R173). Those occurrences are deduced (log 24), and the places of
the store are the model's own (log 13). -/
def Obligations.ColdStartGivesTheResetState : Prop :=
  ∀ (s : State) (strap : Strap), s.power.running = false → signatureValid s = false →
    ∃ (t : State) (found : List RegionIndex), exec (.startUpOperation strap false) s = .next t ∧
      t = { State.reset with
        power := { State.reset.power with backupSupply := s.power.backupSupply }
        freeIndex := s.freeIndex + (if strap = .unstable then 1 else 0)
        store := { State.reset.store with layout := s.store.layout }
        links := t.links
        pending := s.pending } ∧
      t.links.ports = State.reset.links.ports ∧ t.links.masks = State.reset.links.masks ∧
      (∀ (p : Fin 3) (j : Fin 10), j ≠ clsIntegrity → t.links.notices[p][j] = State.reset.links.notices[p][j]) ∧
      (∀ p : Fin 3, t.links.notices[p][clsIntegrity] =
        found.foldl (fun n x => addOccurrence (.integrity x) n) clearNotice) ∧
      found.Nodup ∧
      found.filter (·.region == 10) =
        ((List.finRange 4).filter (signatureDamaged s)).map (fun k => (⟨10, k.val⟩ : RegionIndex)) ∧
      (∀ x ∈ found, x.region ≠ 10 → ∃ k : Fin 4, x = ⟨9, k⟩ ∧ readsDamaged s (.report k) = true) ∧
      (readsDamaged s (.report 1) = true → (∃ k, signatureDamaged s k = true) → found.head? = some ⟨9, 1⟩) ∧
      (readsDamaged s (.report 0) = true →
        (∃ k, wordsInError (.signature k) s ≠ [] ∧ signatureDamaged s k = false) → ⟨9, 0⟩ ∈ found) ∧
      ∃ u : State, exec (.startUpOperation strap true) s = .next u ∧ signatureValid u = false ∧
        u.power = { s.power with running := false, mainSupply := false, resetHeld := false } ∧
        u.lines = lowLines ∧ u.metering = State.reset.metering ∧ u.exports = State.reset.exports ∧
        u.settlement = State.reset.settlement ∧ u.contracts.contract = State.reset.contracts.contract ∧
        u.contracts.proposals = [] ∧ u.contracts.locked = false ∧ u.store.report = State.reset.store.report ∧
        u.pending = s.pending

/-- A start-up with a valid signature and the strap low is a restart, with the strap high an unlock restart. Before the open
record's end the record goes on with OUTAGE; the retained values stand, OPEN entries are gone without a notice, an unlock
restart sets COMMISSIONING, and every block outside the store begins afresh with RESTART pending for every party (R19, R48,
R71, R101, R140, R158, R160, R172, R174, R190). -/
def Obligations.RestartKeepsTheStore : Prop :=
  ∀ (s : State) (high : Bool), s.power.running = false → s.store.errors = [] → signatureValid s = true →
    (∀ k o, s.settlement.clock = some k → s.settlement.openRecord = some o → k < o.stop) →
    exec (.startUpOperation (if high then .high else .low) false) s = .next { s with
      power := { s.power with
        running := true, mainSupply := true, resetHeld := false, lastKind := if high then .unlock else .restart }
      field := freshField
      band := .low
      allocator := freshAllocator (itemNat s .allocationPeriod)
      supervisor :=
        { base := 0
          consumers := Vector.ofFn fun c => freshConsumer (consumer s c).nomination (consumer s c).damageMark }
      contracts := { s.contracts with
        proposals := s.contracts.proposals.filter (·.staged), locked := s.contracts.locked && !high, base := 0
        baseMillis := 0 }
      settlement := { s.settlement with openRecord := s.settlement.openRecord.map fun o =>
        { o with outage := true, commissioning := o.commissioning || high } }
      store := { s.store with sweepPos := 0, sweepBase := 0, sweepStart := 0 }
      links := restartLinks (if high then .unlock else .restart)
      lines := { lowLines with attn := Vector.replicate 3 true } }

/-- A restart or an unlock restart at or past the open record's end, where no STAGED entry changes the interval length, closes
the record with OUTAGE at the current regular start, without a flare credit, takes the STAGED entries, every consumer being OFF,
and opens the next record there with OUTAGE; the OPEN entries are gone without a notice, and an unlock restart sets
COMMISSIONING, in the contract and in the new record (R134, R135, R140, R159, R160). The place of the ring that a record takes is
the model's choice (log 14), and so is the open length where the start lies past the current regular start (log 40). That a record
which joins an empty ring is found by every cursor is deduced (log 22), and that the record closed does not gain COMMISSIONING
(log 41). -/
def Obligations.RestartPastTheEndClosesTheRecord : Prop :=
  ∀ (s : State) (high : Bool) (k : Nat) (o : OpenRecord) (fs : List (Proposal × Fate)), s.power.running = false →
    s.store.errors = [] → signatureValid s = true → ScheduleOrdered s → s.settlement.clock = some k →
    s.settlement.openRecord = some o → o.stop ≤ k → 0 < itemNat s .intervalLength →
    (∀ e ∈ s.contracts.proposals, e.staged = true → ∀ x ∈ e.items, x.1 ≠ .item .intervalLength) →
    fs = fates (fun _ => false) s.contracts.contract (s.contracts.proposals.filter (·.staged)) →
    ∃ (t : State) (r : ArchiveRecord) (o' : OpenRecord),
      exec (.startUpOperation (if high then .high else .low) false) s = .next t ∧
      RecordedAs s t o r (k - k % itemNat s .intervalLength) o.flare false true ∧ Joined s t r ∧
      OpenedAt s t (k - k % itemNat s .intervalLength) o' ∧ o'.outage = true ∧ o'.clockStep = false ∧
      LatchedAt s t (k - k % itemNat s .intervalLength) ∧ t.settlement.clock = some k ∧
      EntriesTaken { s with contracts := { s.contracts with
        proposals := s.contracts.proposals.filter (·.staged), locked := s.contracts.locked && !high, base := 0
        baseMillis := 0 } } t fs ∧
      (∀ p : Party, t.links.notices[partyIndex p] =
        ((restartNotices (if high then .unlock else .restart)).set 8
          { pending := true, count := 1, detail := some (.settlement o.number) }).set 6 (toldOf p fs clearNotice)) ∧
      t.power.running = true ∧ t.metering = s.metering

/-- Supplies and RESET: a fall of the main supply, and a low pulse of 1 ms on RESET, stop the part with every line low and
every port free, all else kept by the backup supply; a pulse under 100 µs is ignored; a lost backup supply is unnoticed while
the main supply holds, and with both gone the store and the clock are lost; a word in error gains a bit (R165, R175, R178,
R193, R194). That a second bit makes a word uncorrectable is the model's choice (log 16), and so is what a lost store then
holds (log 24). -/
def Obligations.SuppliesResetAndStoreErrors : Prop :=
  ∀ s : State,
    (s.power.backupSupply = true → exec .supplyFall s = .next { s with
      power := { s.power with running := false, mainSupply := false }
      links := { s.links with ports := Vector.replicate 3 none }
      lines := lowLines }) ∧
    (∀ low, 1000 ≤ low → exec (.resetAssertion low) s = .next { s with
      power := { s.power with running := false, resetHeld := true }
      links := { s.links with ports := Vector.replicate 3 none }
      lines := lowLines }) ∧
    (∀ low, low < 100 → exec (.resetAssertion low) s = .next s) ∧
    (s.power.mainSupply = true → exec .backupSupplyLoss s =
      .next { s with power := { s.power with backupSupply := false } }) ∧
    (∀ i, (i = .supplyFall ∧ s.power.backupSupply = false) ∨ (i = .backupSupplyLoss ∧ s.power.mainSupply = false) →
      ∃ t : State, exec i s = .next t ∧ signatureValid t = false ∧ t.settlement.clock = none ∧
        t.power.mainSupply = false ∧ t.power.backupSupply = false) ∧
    (∀ w : Fin 16384, ∃ t : State, exec (.storeWordError w) s = .next t ∧
      t = { s with store := { s.store with errors := t.store.errors } } ∧
      (errorsInOrder s.store.errors = true → errorsInOrder t.store.errors = true ∧
        errorAt t.store.errors w = some (if errorAt s.store.errors w = none then .oneBit else .uncorrectable) ∧
        ∀ v, v ≠ w.val → errorAt t.store.errors v = errorAt s.store.errors v))

/-! ## Links (chapter 10) -/

/-- Each QUERY returns the fields of its target on the port of its party, and changes nothing else (R20, R21, R49, R73, R102,
R116, R141, R164, R176, R183, R195); where Table 10-6-3 leaves a point of a body open, the fields are the model's choice
(log 4), and so is the open value of seconds that would lie below 0 (log 40). -/
def Obligations.QueriesChangeNothing : Prop :=
  ∀ (s : State) (f : Frame), Calm s → portBusy s f.party = false →
    (f.length = 3 →
      (∀ k : Fin 22, exec (.querySampleChannel f k) s = .next (respond f.party 0x01 .done (sampleFields k s) s)) ∧
      (∀ ch : Fin 16, exec (.queryPulseChannel f ch) s = .next (respond f.party 0x01 .done (channelFields ch s) s)) ∧
      (∀ c : Fin 8, exec (.queryConsumer f c) s = .next (respond f.party 0x01 .done (consumerFields c s) s)) ∧
      ∀ e ∈ [(Instr.queryHolder f 0, holderFields s), (.queryAllocation f 0, allocationFields s),
        (.queryTotals f 0, totalsFields s), (.queryExportSchedule f 0, exportFields s),
        (.queryProposalTable f 0, proposalFields s), (.queryClock f 0, clockFields f.party s),
        (.queryIntegrityReport f 0, reportFields s), (.queryIdentity f 0, identityFields s)],
        exec e.1 s = .next (respond f.party 0x01 .done e.2 s)) ∧
    (f.length = 5 → ∀ r : ItemRef,
      exec (.queryContractItem f (nameOf r)) s = .next (respond f.party 0x01 .done (itemFields r s) s))

/-- MASK sets the party's mask to the classes given less 0 and 1, its attention line follows at once, and DONE carries the
effective mask; nothing else moves (R187, R189). -/
def Obligations.MaskSetsTheEffectiveMask : Prop :=
  ∀ (s : State) (f : Frame) (classes : Nat), Calm s → Taken s f 3 → classes < 1024 →
    ∃ t : State, exec (.mask f classes) s = .next t ∧
      Answered s t f.party ⟨0x50, .done, [.u16 (classes / 4 * 4)]⟩ ∧
      (∀ k : Fin 10, t.links.masks[partyIndex f.party][k] = (decide (2 ≤ k.val) && classes.testBit k)) ∧
      (∀ p : Fin 3, p ≠ partyIndex f.party → t.links.masks[p] = s.links.masks[p] ∧ t.lines.attn[p] = s.lines.attn[p]) ∧
      (t.lines.attn[partyIndex f.party] = true ↔ ∃ k : Fin 10,
        (s.links.notices[partyIndex f.party][k].pending = true ∧ t.links.masks[partyIndex f.party][k] = false)) ∧
      t = { s with
        links := { s.links with masks := t.links.masks, ports := t.links.ports }
        lines := { s.lines with attn := t.lines.attn } }

/-- NOTICE returns the lowest-numbered class that is pending and not masked for its party, with severity, count and detail,
and clears that record, its attention line following; with no such class it is answered NONE and changes nothing (R188,
R189). -/
def Obligations.NoticeReturnsTheLowestClass : Prop :=
  ∀ (s : State) (f : Frame), Calm s → Taken s f 1 →
    (∀ (k : Fin 10) (d : Detail),
      s.links.notices[partyIndex f.party][k].pending = true → s.links.masks[partyIndex f.party][k] = false →
      s.links.notices[partyIndex f.party][k].detail = some d →
      (∀ j : Fin 10, j < k → s.links.notices[partyIndex f.party][j].pending = false ∨
        s.links.masks[partyIndex f.party][j] = true) →
      ∃ t : State, exec (.notice f) s = .next t ∧
        Answered s t f.party ⟨0x51, .done,
          [.u8 k, .u8 (if k.val < 2 then 0 else if k.val < 6 then 1 else 2),
            .u8 s.links.notices[partyIndex f.party][k].count] ++ detailFields d⟩ ∧
        t.links.notices[partyIndex f.party][k] = { pending := false, count := 0, detail := none } ∧
        (∀ (p : Fin 3) (j : Fin 10), (p, j) ≠ (partyIndex f.party, k) → t.links.notices[p][j] = s.links.notices[p][j]) ∧
        (t.lines.attn[partyIndex f.party] = true ↔ ∃ j : Fin 10,
          (t.links.notices[partyIndex f.party][j].pending = true ∧ s.links.masks[partyIndex f.party][j] = false)) ∧
        t = { s with
          links := { s.links with notices := t.links.notices, ports := t.links.ports }
          lines := { s.lines with attn := s.lines.attn.set (partyIndex f.party) t.lines.attn[partyIndex f.party] } }) ∧
    ((∀ j : Fin 10, s.links.notices[partyIndex f.party][j].pending = false ∨
        s.links.masks[partyIndex f.party][j] = true) →
      exec (.notice f) s = .next (respond f.party 0x51 .none [] s))

/-! ## What every step keeps -/

/-- Reset meets every condition that the statements below say each step keeps. -/
def Obligations.ResetMeetsEveryCondition : Prop :=
  LinesFollow State.reset ∧ ConsumersConsistent State.reset ∧ AllocationSound State.reset ∧
  GrantsWithinLimits State.reset ∧ OneOpenRecord State.reset ∧ ArchiveOrdered State.reset ∧ ContractInRange State.reset ∧
  ProposalsSound State.reset ∧ ScheduleOrdered State.reset ∧ NoticesSound State.reset ∧ FieldConsistent State.reset ∧
  TotalsInRange State.reset ∧ StoreSound State.reset

/-- Whatever a step does, the valve lines, FLARE_EN and the attention lines go on following the states behind them, so that
GAS_EN_c and BACKUP_EN_c are never asserted together (R45, R75, R189, R193); and behind the attention lines a pending class goes
on having a count from 1 to 255 and a detail, and no mask an ALARM class (R184, R187). -/
def Obligations.LinesFollowTheirStates : Prop :=
  (∀ s t : State, LinesFollow s → step s = .next t →
    LinesFollow t ∧ ∀ c : Fin 8, ¬ (t.lines.gasEn[c] = true ∧ t.lines.backupEn[c] = true)) ∧
  (∀ s t : State, NoticesSound s → step s = .next t → NoticesSound t)

/-- Whatever a step does, every consumer's record stays consistent: target, reservation status, timers, causes and recovery
count go with its state (R58, R82, R87, R93, R97); and so do the fields of every pulse channel and sample record with theirs,
within their limits (R6, R9, R12 to R17). -/
def Obligations.ConsumersStayConsistent : Prop :=
  (∀ s t : State, ConsumersConsistent s → step s = .next t → ConsumersConsistent t) ∧
  (∀ s t : State, FieldConsistent s → step s = .next t → FieldConsistent t)

/-- Whatever a step does, the grants, the reservations and the surplus go on making up the available rate, a grant stands in
ACTIVE only and a reservation in PURGING toward ACTIVE only; and no grant of a running part exceeds its consumer's nomination
or a ceiling of it (R50, R56, R58, R67 to R69). The first is of states where every consumer's record is consistent, which each
step keeps as well (ConsumersStayConsistent). -/
def Obligations.AllocationStaysSound : Prop :=
  (∀ s t : State, ConsumersConsistent s → AllocationSound s → step s = .next t → AllocationSound t) ∧
  (∀ s t : State, GrantsWithinLimits s → step s = .next t → GrantsWithinLimits t)

/-- Whatever a step does, a record is open exactly while the clock runs, record numbers in the ring go on without a gap to the
open record's, the ring holds at most 96, and every cursor lies within it (R149, R150, R155); and every total, standing or
archived, stays below 10^13 Wh and every remainder below 1 Wh (R21, R25, R28, R34). -/
def Obligations.ArchiveStaysOrdered : Prop :=
  (∀ s t : State, OneOpenRecord s → ArchiveOrdered s → step s = .next t → OneOpenRecord t ∧ ArchiveOrdered t) ∧
  (∀ s t : State, TotalsInRange s → step s = .next t → TotalsInRange t)

/-- Whatever a step does, every item in force stays in its range and the proposal table stays sound: at most 8 entries with
different numbers, no item in two of them, an expiry time in OPEN alone (R118, R126, R127, R128). -/
def Obligations.ContractStaysInRange : Prop :=
  ∀ s t : State, ContractInRange s → ProposalsSound s → step s = .next t → ContractInRange t ∧ ProposalsSound t

/-- Whatever a step does, the export schedule stays at most 8 entries with rising starts, and empty while the clock is UNSET
(R103); and the store's words in error stay in order, its counts at most 65,535 and the sweep within the store (R166, R167,
R171). -/
def Obligations.ScheduleStaysOrdered : Prop :=
  (∀ s t : State, ScheduleOrdered s → step s = .next t → ScheduleOrdered t) ∧
  (∀ s t : State, StoreSound s → step s = .next t → StoreSound t)
end

