-- ==== Sys2Proof/Laws/State.lean ====
section
/-! SUPPORT. What each update of the state leaves as it was: one lemma for each top-level field and each update, all of them
true by definition. -/

namespace Sys2Proof.Machine

variable (s : State)

/-! ## `setErrors` -/

@[simp] theorem setErrors_power (errors : List (Nat × WordError)) : (setErrors errors s).power = s.power := rfl
@[simp] theorem setErrors_freeIndex (errors : List (Nat × WordError)) : (setErrors errors s).freeIndex = s.freeIndex := rfl
@[simp] theorem setErrors_field (errors : List (Nat × WordError)) : (setErrors errors s).field = s.field := rfl
@[simp] theorem setErrors_metering (errors : List (Nat × WordError)) : (setErrors errors s).metering = s.metering := rfl
@[simp] theorem setErrors_band (errors : List (Nat × WordError)) : (setErrors errors s).band = s.band := rfl
@[simp] theorem setErrors_allocator (errors : List (Nat × WordError)) : (setErrors errors s).allocator = s.allocator := rfl
@[simp] theorem setErrors_supervisor (errors : List (Nat × WordError)) : (setErrors errors s).supervisor = s.supervisor := rfl
@[simp] theorem setErrors_exports (errors : List (Nat × WordError)) : (setErrors errors s).exports = s.exports := rfl
@[simp] theorem setErrors_contracts (errors : List (Nat × WordError)) : (setErrors errors s).contracts = s.contracts := rfl
@[simp] theorem setErrors_settlement (errors : List (Nat × WordError)) : (setErrors errors s).settlement = s.settlement := rfl
@[simp] theorem setErrors_links (errors : List (Nat × WordError)) : (setErrors errors s).links = s.links := rfl
@[simp] theorem setErrors_lines (errors : List (Nat × WordError)) : (setErrors errors s).lines = s.lines := rfl
@[simp] theorem setErrors_pending (errors : List (Nat × WordError)) : (setErrors errors s).pending = s.pending := rfl

/-! ## `clearWord` -/

@[simp] theorem clearWord_power (w : Nat) : (clearWord w s).power = s.power := rfl
@[simp] theorem clearWord_freeIndex (w : Nat) : (clearWord w s).freeIndex = s.freeIndex := rfl
@[simp] theorem clearWord_field (w : Nat) : (clearWord w s).field = s.field := rfl
@[simp] theorem clearWord_metering (w : Nat) : (clearWord w s).metering = s.metering := rfl
@[simp] theorem clearWord_band (w : Nat) : (clearWord w s).band = s.band := rfl
@[simp] theorem clearWord_allocator (w : Nat) : (clearWord w s).allocator = s.allocator := rfl
@[simp] theorem clearWord_supervisor (w : Nat) : (clearWord w s).supervisor = s.supervisor := rfl
@[simp] theorem clearWord_exports (w : Nat) : (clearWord w s).exports = s.exports := rfl
@[simp] theorem clearWord_contracts (w : Nat) : (clearWord w s).contracts = s.contracts := rfl
@[simp] theorem clearWord_settlement (w : Nat) : (clearWord w s).settlement = s.settlement := rfl
@[simp] theorem clearWord_links (w : Nat) : (clearWord w s).links = s.links := rfl
@[simp] theorem clearWord_lines (w : Nat) : (clearWord w s).lines = s.lines := rfl
@[simp] theorem clearWord_pending (w : Nat) : (clearWord w s).pending = s.pending := rfl

/-! ## `wrote` -/

@[simp] theorem wrote_power (t : Thing) : (wrote t s).power = s.power := rfl
@[simp] theorem wrote_freeIndex (t : Thing) : (wrote t s).freeIndex = s.freeIndex := rfl
@[simp] theorem wrote_field (t : Thing) : (wrote t s).field = s.field := rfl
@[simp] theorem wrote_metering (t : Thing) : (wrote t s).metering = s.metering := rfl
@[simp] theorem wrote_band (t : Thing) : (wrote t s).band = s.band := rfl
@[simp] theorem wrote_allocator (t : Thing) : (wrote t s).allocator = s.allocator := rfl
@[simp] theorem wrote_supervisor (t : Thing) : (wrote t s).supervisor = s.supervisor := rfl
@[simp] theorem wrote_exports (t : Thing) : (wrote t s).exports = s.exports := rfl
@[simp] theorem wrote_contracts (t : Thing) : (wrote t s).contracts = s.contracts := rfl
@[simp] theorem wrote_settlement (t : Thing) : (wrote t s).settlement = s.settlement := rfl
@[simp] theorem wrote_links (t : Thing) : (wrote t s).links = s.links := rfl
@[simp] theorem wrote_lines (t : Thing) : (wrote t s).lines = s.lines := rfl
@[simp] theorem wrote_pending (t : Thing) : (wrote t s).pending = s.pending := rfl

/-! ## `useFree` -/

@[simp] theorem useFree_power : (useFree s).power = s.power := rfl
@[simp] theorem useFree_field : (useFree s).field = s.field := rfl
@[simp] theorem useFree_metering : (useFree s).metering = s.metering := rfl
@[simp] theorem useFree_band : (useFree s).band = s.band := rfl
@[simp] theorem useFree_allocator : (useFree s).allocator = s.allocator := rfl
@[simp] theorem useFree_supervisor : (useFree s).supervisor = s.supervisor := rfl
@[simp] theorem useFree_exports : (useFree s).exports = s.exports := rfl
@[simp] theorem useFree_contracts : (useFree s).contracts = s.contracts := rfl
@[simp] theorem useFree_settlement : (useFree s).settlement = s.settlement := rfl
@[simp] theorem useFree_store : (useFree s).store = s.store := rfl
@[simp] theorem useFree_links : (useFree s).links = s.links := rfl
@[simp] theorem useFree_lines : (useFree s).lines = s.lines := rfl
@[simp] theorem useFree_pending : (useFree s).pending = s.pending := rfl

/-! ## `setItem` -/

@[simp] theorem setItem_power (i : Item) (v : Int) : (setItem i v s).power = s.power := rfl
@[simp] theorem setItem_freeIndex (i : Item) (v : Int) : (setItem i v s).freeIndex = s.freeIndex := rfl
@[simp] theorem setItem_field (i : Item) (v : Int) : (setItem i v s).field = s.field := rfl
@[simp] theorem setItem_metering (i : Item) (v : Int) : (setItem i v s).metering = s.metering := rfl
@[simp] theorem setItem_band (i : Item) (v : Int) : (setItem i v s).band = s.band := rfl
@[simp] theorem setItem_allocator (i : Item) (v : Int) : (setItem i v s).allocator = s.allocator := rfl
@[simp] theorem setItem_supervisor (i : Item) (v : Int) : (setItem i v s).supervisor = s.supervisor := rfl
@[simp] theorem setItem_exports (i : Item) (v : Int) : (setItem i v s).exports = s.exports := rfl
@[simp] theorem setItem_settlement (i : Item) (v : Int) : (setItem i v s).settlement = s.settlement := rfl
@[simp] theorem setItem_links (i : Item) (v : Int) : (setItem i v s).links = s.links := rfl
@[simp] theorem setItem_lines (i : Item) (v : Int) : (setItem i v s).lines = s.lines := rfl
@[simp] theorem setItem_pending (i : Item) (v : Int) : (setItem i v s).pending = s.pending := rfl

/-! ## `setNotice` -/

@[simp] theorem setNotice_power (p : Party) (k : Fin 10) (n : NoticeRecord) : (setNotice p k n s).power = s.power := rfl
@[simp] theorem setNotice_freeIndex (p : Party) (k : Fin 10) (n : NoticeRecord) : (setNotice p k n s).freeIndex = s.freeIndex := rfl
@[simp] theorem setNotice_field (p : Party) (k : Fin 10) (n : NoticeRecord) : (setNotice p k n s).field = s.field := rfl
@[simp] theorem setNotice_metering (p : Party) (k : Fin 10) (n : NoticeRecord) : (setNotice p k n s).metering = s.metering := rfl
@[simp] theorem setNotice_band (p : Party) (k : Fin 10) (n : NoticeRecord) : (setNotice p k n s).band = s.band := rfl
@[simp] theorem setNotice_allocator (p : Party) (k : Fin 10) (n : NoticeRecord) : (setNotice p k n s).allocator = s.allocator := rfl
@[simp] theorem setNotice_supervisor (p : Party) (k : Fin 10) (n : NoticeRecord) : (setNotice p k n s).supervisor = s.supervisor := rfl
@[simp] theorem setNotice_exports (p : Party) (k : Fin 10) (n : NoticeRecord) : (setNotice p k n s).exports = s.exports := rfl
@[simp] theorem setNotice_contracts (p : Party) (k : Fin 10) (n : NoticeRecord) : (setNotice p k n s).contracts = s.contracts := rfl
@[simp] theorem setNotice_settlement (p : Party) (k : Fin 10) (n : NoticeRecord) : (setNotice p k n s).settlement = s.settlement := rfl
@[simp] theorem setNotice_store (p : Party) (k : Fin 10) (n : NoticeRecord) : (setNotice p k n s).store = s.store := rfl
@[simp] theorem setNotice_lines (p : Party) (k : Fin 10) (n : NoticeRecord) : (setNotice p k n s).lines = s.lines := rfl
@[simp] theorem setNotice_pending (p : Party) (k : Fin 10) (n : NoticeRecord) : (setNotice p k n s).pending = s.pending := rfl

/-! ## `refreshAttn` -/

@[simp] theorem refreshAttn_power (p : Party) : (refreshAttn p s).power = s.power := rfl
@[simp] theorem refreshAttn_freeIndex (p : Party) : (refreshAttn p s).freeIndex = s.freeIndex := rfl
@[simp] theorem refreshAttn_field (p : Party) : (refreshAttn p s).field = s.field := rfl
@[simp] theorem refreshAttn_metering (p : Party) : (refreshAttn p s).metering = s.metering := rfl
@[simp] theorem refreshAttn_band (p : Party) : (refreshAttn p s).band = s.band := rfl
@[simp] theorem refreshAttn_allocator (p : Party) : (refreshAttn p s).allocator = s.allocator := rfl
@[simp] theorem refreshAttn_supervisor (p : Party) : (refreshAttn p s).supervisor = s.supervisor := rfl
@[simp] theorem refreshAttn_exports (p : Party) : (refreshAttn p s).exports = s.exports := rfl
@[simp] theorem refreshAttn_contracts (p : Party) : (refreshAttn p s).contracts = s.contracts := rfl
@[simp] theorem refreshAttn_settlement (p : Party) : (refreshAttn p s).settlement = s.settlement := rfl
@[simp] theorem refreshAttn_store (p : Party) : (refreshAttn p s).store = s.store := rfl
@[simp] theorem refreshAttn_links (p : Party) : (refreshAttn p s).links = s.links := rfl
@[simp] theorem refreshAttn_pending (p : Party) : (refreshAttn p s).pending = s.pending := rfl

/-! ## `raiseFor` -/

@[simp] theorem raiseFor_power (p : Party) (k : Fin 10) (d : Detail) : (raiseFor p k d s).power = s.power := rfl
@[simp] theorem raiseFor_freeIndex (p : Party) (k : Fin 10) (d : Detail) : (raiseFor p k d s).freeIndex = s.freeIndex := rfl
@[simp] theorem raiseFor_field (p : Party) (k : Fin 10) (d : Detail) : (raiseFor p k d s).field = s.field := rfl
@[simp] theorem raiseFor_metering (p : Party) (k : Fin 10) (d : Detail) : (raiseFor p k d s).metering = s.metering := rfl
@[simp] theorem raiseFor_band (p : Party) (k : Fin 10) (d : Detail) : (raiseFor p k d s).band = s.band := rfl
@[simp] theorem raiseFor_allocator (p : Party) (k : Fin 10) (d : Detail) : (raiseFor p k d s).allocator = s.allocator := rfl
@[simp] theorem raiseFor_supervisor (p : Party) (k : Fin 10) (d : Detail) : (raiseFor p k d s).supervisor = s.supervisor := rfl
@[simp] theorem raiseFor_exports (p : Party) (k : Fin 10) (d : Detail) : (raiseFor p k d s).exports = s.exports := rfl
@[simp] theorem raiseFor_contracts (p : Party) (k : Fin 10) (d : Detail) : (raiseFor p k d s).contracts = s.contracts := rfl
@[simp] theorem raiseFor_settlement (p : Party) (k : Fin 10) (d : Detail) : (raiseFor p k d s).settlement = s.settlement := rfl
@[simp] theorem raiseFor_store (p : Party) (k : Fin 10) (d : Detail) : (raiseFor p k d s).store = s.store := rfl
@[simp] theorem raiseFor_pending (p : Party) (k : Fin 10) (d : Detail) : (raiseFor p k d s).pending = s.pending := rfl

/-! ## `setPort` -/

@[simp] theorem setPort_power (p : Party) (r : Option Response) : (setPort p r s).power = s.power := rfl
@[simp] theorem setPort_freeIndex (p : Party) (r : Option Response) : (setPort p r s).freeIndex = s.freeIndex := rfl
@[simp] theorem setPort_field (p : Party) (r : Option Response) : (setPort p r s).field = s.field := rfl
@[simp] theorem setPort_metering (p : Party) (r : Option Response) : (setPort p r s).metering = s.metering := rfl
@[simp] theorem setPort_band (p : Party) (r : Option Response) : (setPort p r s).band = s.band := rfl
@[simp] theorem setPort_allocator (p : Party) (r : Option Response) : (setPort p r s).allocator = s.allocator := rfl
@[simp] theorem setPort_supervisor (p : Party) (r : Option Response) : (setPort p r s).supervisor = s.supervisor := rfl
@[simp] theorem setPort_exports (p : Party) (r : Option Response) : (setPort p r s).exports = s.exports := rfl
@[simp] theorem setPort_contracts (p : Party) (r : Option Response) : (setPort p r s).contracts = s.contracts := rfl
@[simp] theorem setPort_settlement (p : Party) (r : Option Response) : (setPort p r s).settlement = s.settlement := rfl
@[simp] theorem setPort_store (p : Party) (r : Option Response) : (setPort p r s).store = s.store := rfl
@[simp] theorem setPort_lines (p : Party) (r : Option Response) : (setPort p r s).lines = s.lines := rfl
@[simp] theorem setPort_pending (p : Party) (r : Option Response) : (setPort p r s).pending = s.pending := rfl

/-! ## `respond` -/

@[simp] theorem respond_power (p : Party) (code : Nat) (st : Status) (fs : List Field) : (respond p code st fs s).power = s.power := rfl
@[simp] theorem respond_freeIndex (p : Party) (code : Nat) (st : Status) (fs : List Field) : (respond p code st fs s).freeIndex = s.freeIndex := rfl
@[simp] theorem respond_field (p : Party) (code : Nat) (st : Status) (fs : List Field) : (respond p code st fs s).field = s.field := rfl
@[simp] theorem respond_metering (p : Party) (code : Nat) (st : Status) (fs : List Field) : (respond p code st fs s).metering = s.metering := rfl
@[simp] theorem respond_band (p : Party) (code : Nat) (st : Status) (fs : List Field) : (respond p code st fs s).band = s.band := rfl
@[simp] theorem respond_allocator (p : Party) (code : Nat) (st : Status) (fs : List Field) : (respond p code st fs s).allocator = s.allocator := rfl
@[simp] theorem respond_supervisor (p : Party) (code : Nat) (st : Status) (fs : List Field) : (respond p code st fs s).supervisor = s.supervisor := rfl
@[simp] theorem respond_exports (p : Party) (code : Nat) (st : Status) (fs : List Field) : (respond p code st fs s).exports = s.exports := rfl
@[simp] theorem respond_contracts (p : Party) (code : Nat) (st : Status) (fs : List Field) : (respond p code st fs s).contracts = s.contracts := rfl
@[simp] theorem respond_settlement (p : Party) (code : Nat) (st : Status) (fs : List Field) : (respond p code st fs s).settlement = s.settlement := rfl
@[simp] theorem respond_store (p : Party) (code : Nat) (st : Status) (fs : List Field) : (respond p code st fs s).store = s.store := rfl
@[simp] theorem respond_lines (p : Party) (code : Nat) (st : Status) (fs : List Field) : (respond p code st fs s).lines = s.lines := rfl
@[simp] theorem respond_pending (p : Party) (code : Nat) (st : Status) (fs : List Field) : (respond p code st fs s).pending = s.pending := rfl

/-! ## `setChannel` -/

@[simp] theorem setChannel_power (ch : Fin 16) (r : PulseChannel) : (setChannel ch r s).power = s.power := rfl
@[simp] theorem setChannel_freeIndex (ch : Fin 16) (r : PulseChannel) : (setChannel ch r s).freeIndex = s.freeIndex := rfl
@[simp] theorem setChannel_metering (ch : Fin 16) (r : PulseChannel) : (setChannel ch r s).metering = s.metering := rfl
@[simp] theorem setChannel_band (ch : Fin 16) (r : PulseChannel) : (setChannel ch r s).band = s.band := rfl
@[simp] theorem setChannel_allocator (ch : Fin 16) (r : PulseChannel) : (setChannel ch r s).allocator = s.allocator := rfl
@[simp] theorem setChannel_supervisor (ch : Fin 16) (r : PulseChannel) : (setChannel ch r s).supervisor = s.supervisor := rfl
@[simp] theorem setChannel_exports (ch : Fin 16) (r : PulseChannel) : (setChannel ch r s).exports = s.exports := rfl
@[simp] theorem setChannel_contracts (ch : Fin 16) (r : PulseChannel) : (setChannel ch r s).contracts = s.contracts := rfl
@[simp] theorem setChannel_settlement (ch : Fin 16) (r : PulseChannel) : (setChannel ch r s).settlement = s.settlement := rfl
@[simp] theorem setChannel_store (ch : Fin 16) (r : PulseChannel) : (setChannel ch r s).store = s.store := rfl
@[simp] theorem setChannel_links (ch : Fin 16) (r : PulseChannel) : (setChannel ch r s).links = s.links := rfl
@[simp] theorem setChannel_lines (ch : Fin 16) (r : PulseChannel) : (setChannel ch r s).lines = s.lines := rfl
@[simp] theorem setChannel_pending (ch : Fin 16) (r : PulseChannel) : (setChannel ch r s).pending = s.pending := rfl

/-! ## `setSample` -/

@[simp] theorem setSample_power (k : Fin 22) (r : SampleRecord) : (setSample k r s).power = s.power := rfl
@[simp] theorem setSample_freeIndex (k : Fin 22) (r : SampleRecord) : (setSample k r s).freeIndex = s.freeIndex := rfl
@[simp] theorem setSample_metering (k : Fin 22) (r : SampleRecord) : (setSample k r s).metering = s.metering := rfl
@[simp] theorem setSample_band (k : Fin 22) (r : SampleRecord) : (setSample k r s).band = s.band := rfl
@[simp] theorem setSample_allocator (k : Fin 22) (r : SampleRecord) : (setSample k r s).allocator = s.allocator := rfl
@[simp] theorem setSample_supervisor (k : Fin 22) (r : SampleRecord) : (setSample k r s).supervisor = s.supervisor := rfl
@[simp] theorem setSample_exports (k : Fin 22) (r : SampleRecord) : (setSample k r s).exports = s.exports := rfl
@[simp] theorem setSample_contracts (k : Fin 22) (r : SampleRecord) : (setSample k r s).contracts = s.contracts := rfl
@[simp] theorem setSample_settlement (k : Fin 22) (r : SampleRecord) : (setSample k r s).settlement = s.settlement := rfl
@[simp] theorem setSample_store (k : Fin 22) (r : SampleRecord) : (setSample k r s).store = s.store := rfl
@[simp] theorem setSample_links (k : Fin 22) (r : SampleRecord) : (setSample k r s).links = s.links := rfl
@[simp] theorem setSample_lines (k : Fin 22) (r : SampleRecord) : (setSample k r s).lines = s.lines := rfl
@[simp] theorem setSample_pending (k : Fin 22) (r : SampleRecord) : (setSample k r s).pending = s.pending := rfl

/-! ## `setTotal` -/

@[simp] theorem setTotal_power (ch : Fin 16) (total remainder : Nat) : (setTotal ch total remainder s).power = s.power := rfl
@[simp] theorem setTotal_freeIndex (ch : Fin 16) (total remainder : Nat) : (setTotal ch total remainder s).freeIndex = s.freeIndex := rfl
@[simp] theorem setTotal_field (ch : Fin 16) (total remainder : Nat) : (setTotal ch total remainder s).field = s.field := rfl
@[simp] theorem setTotal_band (ch : Fin 16) (total remainder : Nat) : (setTotal ch total remainder s).band = s.band := rfl
@[simp] theorem setTotal_allocator (ch : Fin 16) (total remainder : Nat) : (setTotal ch total remainder s).allocator = s.allocator := rfl
@[simp] theorem setTotal_supervisor (ch : Fin 16) (total remainder : Nat) : (setTotal ch total remainder s).supervisor = s.supervisor := rfl
@[simp] theorem setTotal_exports (ch : Fin 16) (total remainder : Nat) : (setTotal ch total remainder s).exports = s.exports := rfl
@[simp] theorem setTotal_contracts (ch : Fin 16) (total remainder : Nat) : (setTotal ch total remainder s).contracts = s.contracts := rfl
@[simp] theorem setTotal_settlement (ch : Fin 16) (total remainder : Nat) : (setTotal ch total remainder s).settlement = s.settlement := rfl
@[simp] theorem setTotal_links (ch : Fin 16) (total remainder : Nat) : (setTotal ch total remainder s).links = s.links := rfl
@[simp] theorem setTotal_lines (ch : Fin 16) (total remainder : Nat) : (setTotal ch total remainder s).lines = s.lines := rfl
@[simp] theorem setTotal_pending (ch : Fin 16) (total remainder : Nat) : (setTotal ch total remainder s).pending = s.pending := rfl

/-! ## `setConsumer` -/

@[simp] theorem setConsumer_power (c : Fin 8) (r : Consumer) : (setConsumer c r s).power = s.power := rfl
@[simp] theorem setConsumer_freeIndex (c : Fin 8) (r : Consumer) : (setConsumer c r s).freeIndex = s.freeIndex := rfl
@[simp] theorem setConsumer_field (c : Fin 8) (r : Consumer) : (setConsumer c r s).field = s.field := rfl
@[simp] theorem setConsumer_metering (c : Fin 8) (r : Consumer) : (setConsumer c r s).metering = s.metering := rfl
@[simp] theorem setConsumer_band (c : Fin 8) (r : Consumer) : (setConsumer c r s).band = s.band := rfl
@[simp] theorem setConsumer_allocator (c : Fin 8) (r : Consumer) : (setConsumer c r s).allocator = s.allocator := rfl
@[simp] theorem setConsumer_exports (c : Fin 8) (r : Consumer) : (setConsumer c r s).exports = s.exports := rfl
@[simp] theorem setConsumer_contracts (c : Fin 8) (r : Consumer) : (setConsumer c r s).contracts = s.contracts := rfl
@[simp] theorem setConsumer_settlement (c : Fin 8) (r : Consumer) : (setConsumer c r s).settlement = s.settlement := rfl
@[simp] theorem setConsumer_store (c : Fin 8) (r : Consumer) : (setConsumer c r s).store = s.store := rfl
@[simp] theorem setConsumer_links (c : Fin 8) (r : Consumer) : (setConsumer c r s).links = s.links := rfl
@[simp] theorem setConsumer_lines (c : Fin 8) (r : Consumer) : (setConsumer c r s).lines = s.lines := rfl
@[simp] theorem setConsumer_pending (c : Fin 8) (r : Consumer) : (setConsumer c r s).pending = s.pending := rfl

/-! ## `refreshValves` -/

@[simp] theorem refreshValves_power (c : Fin 8) : (refreshValves c s).power = s.power := rfl
@[simp] theorem refreshValves_freeIndex (c : Fin 8) : (refreshValves c s).freeIndex = s.freeIndex := rfl
@[simp] theorem refreshValves_field (c : Fin 8) : (refreshValves c s).field = s.field := rfl
@[simp] theorem refreshValves_metering (c : Fin 8) : (refreshValves c s).metering = s.metering := rfl
@[simp] theorem refreshValves_band (c : Fin 8) : (refreshValves c s).band = s.band := rfl
@[simp] theorem refreshValves_allocator (c : Fin 8) : (refreshValves c s).allocator = s.allocator := rfl
@[simp] theorem refreshValves_supervisor (c : Fin 8) : (refreshValves c s).supervisor = s.supervisor := rfl
@[simp] theorem refreshValves_exports (c : Fin 8) : (refreshValves c s).exports = s.exports := rfl
@[simp] theorem refreshValves_contracts (c : Fin 8) : (refreshValves c s).contracts = s.contracts := rfl
@[simp] theorem refreshValves_settlement (c : Fin 8) : (refreshValves c s).settlement = s.settlement := rfl
@[simp] theorem refreshValves_store (c : Fin 8) : (refreshValves c s).store = s.store := rfl
@[simp] theorem refreshValves_links (c : Fin 8) : (refreshValves c s).links = s.links := rfl
@[simp] theorem refreshValves_pending (c : Fin 8) : (refreshValves c s).pending = s.pending := rfl

/-! ## `putConsumer` -/

@[simp] theorem putConsumer_power (c : Fin 8) (r : Consumer) : (putConsumer c r s).power = s.power := rfl
@[simp] theorem putConsumer_freeIndex (c : Fin 8) (r : Consumer) : (putConsumer c r s).freeIndex = s.freeIndex := rfl
@[simp] theorem putConsumer_field (c : Fin 8) (r : Consumer) : (putConsumer c r s).field = s.field := rfl
@[simp] theorem putConsumer_metering (c : Fin 8) (r : Consumer) : (putConsumer c r s).metering = s.metering := rfl
@[simp] theorem putConsumer_band (c : Fin 8) (r : Consumer) : (putConsumer c r s).band = s.band := rfl
@[simp] theorem putConsumer_allocator (c : Fin 8) (r : Consumer) : (putConsumer c r s).allocator = s.allocator := rfl
@[simp] theorem putConsumer_exports (c : Fin 8) (r : Consumer) : (putConsumer c r s).exports = s.exports := rfl
@[simp] theorem putConsumer_contracts (c : Fin 8) (r : Consumer) : (putConsumer c r s).contracts = s.contracts := rfl
@[simp] theorem putConsumer_settlement (c : Fin 8) (r : Consumer) : (putConsumer c r s).settlement = s.settlement := rfl
@[simp] theorem putConsumer_store (c : Fin 8) (r : Consumer) : (putConsumer c r s).store = s.store := rfl
@[simp] theorem putConsumer_links (c : Fin 8) (r : Consumer) : (putConsumer c r s).links = s.links := rfl
@[simp] theorem putConsumer_pending (c : Fin 8) (r : Consumer) : (putConsumer c r s).pending = s.pending := rfl

/-! ## `setResult` -/

@[simp] theorem setResult_power (r : Allocation) : (setResult r s).power = s.power := rfl
@[simp] theorem setResult_freeIndex (r : Allocation) : (setResult r s).freeIndex = s.freeIndex := rfl
@[simp] theorem setResult_field (r : Allocation) : (setResult r s).field = s.field := rfl
@[simp] theorem setResult_metering (r : Allocation) : (setResult r s).metering = s.metering := rfl
@[simp] theorem setResult_band (r : Allocation) : (setResult r s).band = s.band := rfl
@[simp] theorem setResult_supervisor (r : Allocation) : (setResult r s).supervisor = s.supervisor := rfl
@[simp] theorem setResult_exports (r : Allocation) : (setResult r s).exports = s.exports := rfl
@[simp] theorem setResult_contracts (r : Allocation) : (setResult r s).contracts = s.contracts := rfl
@[simp] theorem setResult_settlement (r : Allocation) : (setResult r s).settlement = s.settlement := rfl
@[simp] theorem setResult_store (r : Allocation) : (setResult r s).store = s.store := rfl
@[simp] theorem setResult_links (r : Allocation) : (setResult r s).links = s.links := rfl
@[simp] theorem setResult_lines (r : Allocation) : (setResult r s).lines = s.lines := rfl
@[simp] theorem setResult_pending (r : Allocation) : (setResult r s).pending = s.pending := rfl

/-! ## `setFlare` -/

@[simp] theorem setFlare_power (kw : Nat) : (setFlare kw s).power = s.power := rfl
@[simp] theorem setFlare_freeIndex (kw : Nat) : (setFlare kw s).freeIndex = s.freeIndex := rfl
@[simp] theorem setFlare_field (kw : Nat) : (setFlare kw s).field = s.field := rfl
@[simp] theorem setFlare_metering (kw : Nat) : (setFlare kw s).metering = s.metering := rfl
@[simp] theorem setFlare_band (kw : Nat) : (setFlare kw s).band = s.band := rfl
@[simp] theorem setFlare_supervisor (kw : Nat) : (setFlare kw s).supervisor = s.supervisor := rfl
@[simp] theorem setFlare_exports (kw : Nat) : (setFlare kw s).exports = s.exports := rfl
@[simp] theorem setFlare_contracts (kw : Nat) : (setFlare kw s).contracts = s.contracts := rfl
@[simp] theorem setFlare_settlement (kw : Nat) : (setFlare kw s).settlement = s.settlement := rfl
@[simp] theorem setFlare_store (kw : Nat) : (setFlare kw s).store = s.store := rfl
@[simp] theorem setFlare_links (kw : Nat) : (setFlare kw s).links = s.links := rfl
@[simp] theorem setFlare_pending (kw : Nat) : (setFlare kw s).pending = s.pending := rfl

/-! ## `trigger` -/

@[simp] theorem trigger_power : (trigger s).power = s.power := rfl
@[simp] theorem trigger_freeIndex : (trigger s).freeIndex = s.freeIndex := rfl
@[simp] theorem trigger_field : (trigger s).field = s.field := rfl
@[simp] theorem trigger_metering : (trigger s).metering = s.metering := rfl
@[simp] theorem trigger_band : (trigger s).band = s.band := rfl
@[simp] theorem trigger_supervisor : (trigger s).supervisor = s.supervisor := rfl
@[simp] theorem trigger_exports : (trigger s).exports = s.exports := rfl
@[simp] theorem trigger_contracts : (trigger s).contracts = s.contracts := rfl
@[simp] theorem trigger_settlement : (trigger s).settlement = s.settlement := rfl
@[simp] theorem trigger_store : (trigger s).store = s.store := rfl
@[simp] theorem trigger_links : (trigger s).links = s.links := rfl
@[simp] theorem trigger_lines : (trigger s).lines = s.lines := rfl
@[simp] theorem trigger_pending : (trigger s).pending = s.pending := rfl

/-! ## `startPeriod` -/

@[simp] theorem startPeriod_power : (startPeriod s).power = s.power := rfl
@[simp] theorem startPeriod_freeIndex : (startPeriod s).freeIndex = s.freeIndex := rfl
@[simp] theorem startPeriod_field : (startPeriod s).field = s.field := rfl
@[simp] theorem startPeriod_metering : (startPeriod s).metering = s.metering := rfl
@[simp] theorem startPeriod_band : (startPeriod s).band = s.band := rfl
@[simp] theorem startPeriod_supervisor : (startPeriod s).supervisor = s.supervisor := rfl
@[simp] theorem startPeriod_exports : (startPeriod s).exports = s.exports := rfl
@[simp] theorem startPeriod_contracts : (startPeriod s).contracts = s.contracts := rfl
@[simp] theorem startPeriod_settlement : (startPeriod s).settlement = s.settlement := rfl
@[simp] theorem startPeriod_store : (startPeriod s).store = s.store := rfl
@[simp] theorem startPeriod_links : (startPeriod s).links = s.links := rfl
@[simp] theorem startPeriod_lines : (startPeriod s).lines = s.lines := rfl
@[simp] theorem startPeriod_pending : (startPeriod s).pending = s.pending := rfl

/-! ## `takeTrigger` -/

@[simp] theorem takeTrigger_power : (takeTrigger s).power = s.power := rfl
@[simp] theorem takeTrigger_freeIndex : (takeTrigger s).freeIndex = s.freeIndex := rfl
@[simp] theorem takeTrigger_field : (takeTrigger s).field = s.field := rfl
@[simp] theorem takeTrigger_metering : (takeTrigger s).metering = s.metering := rfl
@[simp] theorem takeTrigger_band : (takeTrigger s).band = s.band := rfl
@[simp] theorem takeTrigger_supervisor : (takeTrigger s).supervisor = s.supervisor := rfl
@[simp] theorem takeTrigger_exports : (takeTrigger s).exports = s.exports := rfl
@[simp] theorem takeTrigger_contracts : (takeTrigger s).contracts = s.contracts := rfl
@[simp] theorem takeTrigger_settlement : (takeTrigger s).settlement = s.settlement := rfl
@[simp] theorem takeTrigger_store : (takeTrigger s).store = s.store := rfl
@[simp] theorem takeTrigger_links : (takeTrigger s).links = s.links := rfl
@[simp] theorem takeTrigger_lines : (takeTrigger s).lines = s.lines := rfl
@[simp] theorem takeTrigger_pending : (takeTrigger s).pending = s.pending := rfl

/-! ## `evaluate` -/

@[simp] theorem evaluate_power (c : Fin 8) : (evaluate c s).power = s.power := rfl
@[simp] theorem evaluate_freeIndex (c : Fin 8) : (evaluate c s).freeIndex = s.freeIndex := rfl
@[simp] theorem evaluate_field (c : Fin 8) : (evaluate c s).field = s.field := rfl
@[simp] theorem evaluate_metering (c : Fin 8) : (evaluate c s).metering = s.metering := rfl
@[simp] theorem evaluate_band (c : Fin 8) : (evaluate c s).band = s.band := rfl
@[simp] theorem evaluate_allocator (c : Fin 8) : (evaluate c s).allocator = s.allocator := rfl
@[simp] theorem evaluate_exports (c : Fin 8) : (evaluate c s).exports = s.exports := rfl
@[simp] theorem evaluate_contracts (c : Fin 8) : (evaluate c s).contracts = s.contracts := rfl
@[simp] theorem evaluate_settlement (c : Fin 8) : (evaluate c s).settlement = s.settlement := rfl
@[simp] theorem evaluate_store (c : Fin 8) : (evaluate c s).store = s.store := rfl
@[simp] theorem evaluate_links (c : Fin 8) : (evaluate c s).links = s.links := rfl
@[simp] theorem evaluate_lines (c : Fin 8) : (evaluate c s).lines = s.lines := rfl
@[simp] theorem evaluate_pending (c : Fin 8) : (evaluate c s).pending = s.pending := rfl

/-! ## `beginPurge` -/

@[simp] theorem beginPurge_power (c : Fin 8) (target : PurgeTarget) (status : Reservation) : (beginPurge c target status s).power = s.power := rfl
@[simp] theorem beginPurge_freeIndex (c : Fin 8) (target : PurgeTarget) (status : Reservation) : (beginPurge c target status s).freeIndex = s.freeIndex := rfl
@[simp] theorem beginPurge_field (c : Fin 8) (target : PurgeTarget) (status : Reservation) : (beginPurge c target status s).field = s.field := rfl
@[simp] theorem beginPurge_metering (c : Fin 8) (target : PurgeTarget) (status : Reservation) : (beginPurge c target status s).metering = s.metering := rfl
@[simp] theorem beginPurge_band (c : Fin 8) (target : PurgeTarget) (status : Reservation) : (beginPurge c target status s).band = s.band := rfl
@[simp] theorem beginPurge_allocator (c : Fin 8) (target : PurgeTarget) (status : Reservation) : (beginPurge c target status s).allocator = s.allocator := rfl
@[simp] theorem beginPurge_exports (c : Fin 8) (target : PurgeTarget) (status : Reservation) : (beginPurge c target status s).exports = s.exports := rfl
@[simp] theorem beginPurge_contracts (c : Fin 8) (target : PurgeTarget) (status : Reservation) : (beginPurge c target status s).contracts = s.contracts := rfl
@[simp] theorem beginPurge_settlement (c : Fin 8) (target : PurgeTarget) (status : Reservation) : (beginPurge c target status s).settlement = s.settlement := rfl
@[simp] theorem beginPurge_store (c : Fin 8) (target : PurgeTarget) (status : Reservation) : (beginPurge c target status s).store = s.store := rfl
@[simp] theorem beginPurge_links (c : Fin 8) (target : PurgeTarget) (status : Reservation) : (beginPurge c target status s).links = s.links := rfl
@[simp] theorem beginPurge_pending (c : Fin 8) (target : PurgeTarget) (status : Reservation) : (beginPurge c target status s).pending = s.pending := rfl

/-! ## `enter` -/

@[simp] theorem enter_power (c : Fin 8) (st : ConsumerState) : (enter c st s).power = s.power := rfl
@[simp] theorem enter_freeIndex (c : Fin 8) (st : ConsumerState) : (enter c st s).freeIndex = s.freeIndex := rfl
@[simp] theorem enter_field (c : Fin 8) (st : ConsumerState) : (enter c st s).field = s.field := rfl
@[simp] theorem enter_metering (c : Fin 8) (st : ConsumerState) : (enter c st s).metering = s.metering := rfl
@[simp] theorem enter_band (c : Fin 8) (st : ConsumerState) : (enter c st s).band = s.band := rfl
@[simp] theorem enter_allocator (c : Fin 8) (st : ConsumerState) : (enter c st s).allocator = s.allocator := rfl
@[simp] theorem enter_exports (c : Fin 8) (st : ConsumerState) : (enter c st s).exports = s.exports := rfl
@[simp] theorem enter_contracts (c : Fin 8) (st : ConsumerState) : (enter c st s).contracts = s.contracts := rfl
@[simp] theorem enter_settlement (c : Fin 8) (st : ConsumerState) : (enter c st s).settlement = s.settlement := rfl
@[simp] theorem enter_store (c : Fin 8) (st : ConsumerState) : (enter c st s).store = s.store := rfl
@[simp] theorem enter_links (c : Fin 8) (st : ConsumerState) : (enter c st s).links = s.links := rfl
@[simp] theorem enter_pending (c : Fin 8) (st : ConsumerState) : (enter c st s).pending = s.pending := rfl

/-! ## `releaseReservation` -/

@[simp] theorem releaseReservation_power (c : Fin 8) : (releaseReservation c s).power = s.power := rfl
@[simp] theorem releaseReservation_freeIndex (c : Fin 8) : (releaseReservation c s).freeIndex = s.freeIndex := rfl
@[simp] theorem releaseReservation_field (c : Fin 8) : (releaseReservation c s).field = s.field := rfl
@[simp] theorem releaseReservation_metering (c : Fin 8) : (releaseReservation c s).metering = s.metering := rfl
@[simp] theorem releaseReservation_band (c : Fin 8) : (releaseReservation c s).band = s.band := rfl
@[simp] theorem releaseReservation_supervisor (c : Fin 8) : (releaseReservation c s).supervisor = s.supervisor := rfl
@[simp] theorem releaseReservation_exports (c : Fin 8) : (releaseReservation c s).exports = s.exports := rfl
@[simp] theorem releaseReservation_contracts (c : Fin 8) : (releaseReservation c s).contracts = s.contracts := rfl
@[simp] theorem releaseReservation_settlement (c : Fin 8) : (releaseReservation c s).settlement = s.settlement := rfl
@[simp] theorem releaseReservation_store (c : Fin 8) : (releaseReservation c s).store = s.store := rfl
@[simp] theorem releaseReservation_links (c : Fin 8) : (releaseReservation c s).links = s.links := rfl
@[simp] theorem releaseReservation_lines (c : Fin 8) : (releaseReservation c s).lines = s.lines := rfl
@[simp] theorem releaseReservation_pending (c : Fin 8) : (releaseReservation c s).pending = s.pending := rfl

/-! ## `setNomination` -/

@[simp] theorem setNomination_power (c : Fin 8) (n : Nat) : (setNomination c n s).power = s.power := rfl
@[simp] theorem setNomination_freeIndex (c : Fin 8) (n : Nat) : (setNomination c n s).freeIndex = s.freeIndex := rfl
@[simp] theorem setNomination_field (c : Fin 8) (n : Nat) : (setNomination c n s).field = s.field := rfl
@[simp] theorem setNomination_metering (c : Fin 8) (n : Nat) : (setNomination c n s).metering = s.metering := rfl
@[simp] theorem setNomination_band (c : Fin 8) (n : Nat) : (setNomination c n s).band = s.band := rfl
@[simp] theorem setNomination_allocator (c : Fin 8) (n : Nat) : (setNomination c n s).allocator = s.allocator := rfl
@[simp] theorem setNomination_exports (c : Fin 8) (n : Nat) : (setNomination c n s).exports = s.exports := rfl
@[simp] theorem setNomination_contracts (c : Fin 8) (n : Nat) : (setNomination c n s).contracts = s.contracts := rfl
@[simp] theorem setNomination_settlement (c : Fin 8) (n : Nat) : (setNomination c n s).settlement = s.settlement := rfl
@[simp] theorem setNomination_links (c : Fin 8) (n : Nat) : (setNomination c n s).links = s.links := rfl
@[simp] theorem setNomination_lines (c : Fin 8) (n : Nat) : (setNomination c n s).lines = s.lines := rfl
@[simp] theorem setNomination_pending (c : Fin 8) (n : Nat) : (setNomination c n s).pending = s.pending := rfl

/-! ## `setDamageMark` -/

@[simp] theorem setDamageMark_power (c : Fin 8) : (setDamageMark c s).power = s.power := rfl
@[simp] theorem setDamageMark_freeIndex (c : Fin 8) : (setDamageMark c s).freeIndex = s.freeIndex := rfl
@[simp] theorem setDamageMark_field (c : Fin 8) : (setDamageMark c s).field = s.field := rfl
@[simp] theorem setDamageMark_metering (c : Fin 8) : (setDamageMark c s).metering = s.metering := rfl
@[simp] theorem setDamageMark_band (c : Fin 8) : (setDamageMark c s).band = s.band := rfl
@[simp] theorem setDamageMark_allocator (c : Fin 8) : (setDamageMark c s).allocator = s.allocator := rfl
@[simp] theorem setDamageMark_exports (c : Fin 8) : (setDamageMark c s).exports = s.exports := rfl
@[simp] theorem setDamageMark_contracts (c : Fin 8) : (setDamageMark c s).contracts = s.contracts := rfl
@[simp] theorem setDamageMark_settlement (c : Fin 8) : (setDamageMark c s).settlement = s.settlement := rfl
@[simp] theorem setDamageMark_links (c : Fin 8) : (setDamageMark c s).links = s.links := rfl
@[simp] theorem setDamageMark_lines (c : Fin 8) : (setDamageMark c s).lines = s.lines := rfl
@[simp] theorem setDamageMark_pending (c : Fin 8) : (setDamageMark c s).pending = s.pending := rfl

/-! ## `clearDamageMark` -/

@[simp] theorem clearDamageMark_power (c : Fin 8) : (clearDamageMark c s).power = s.power := rfl
@[simp] theorem clearDamageMark_freeIndex (c : Fin 8) : (clearDamageMark c s).freeIndex = s.freeIndex := rfl
@[simp] theorem clearDamageMark_field (c : Fin 8) : (clearDamageMark c s).field = s.field := rfl
@[simp] theorem clearDamageMark_metering (c : Fin 8) : (clearDamageMark c s).metering = s.metering := rfl
@[simp] theorem clearDamageMark_band (c : Fin 8) : (clearDamageMark c s).band = s.band := rfl
@[simp] theorem clearDamageMark_allocator (c : Fin 8) : (clearDamageMark c s).allocator = s.allocator := rfl
@[simp] theorem clearDamageMark_exports (c : Fin 8) : (clearDamageMark c s).exports = s.exports := rfl
@[simp] theorem clearDamageMark_contracts (c : Fin 8) : (clearDamageMark c s).contracts = s.contracts := rfl
@[simp] theorem clearDamageMark_settlement (c : Fin 8) : (clearDamageMark c s).settlement = s.settlement := rfl
@[simp] theorem clearDamageMark_links (c : Fin 8) : (clearDamageMark c s).links = s.links := rfl
@[simp] theorem clearDamageMark_lines (c : Fin 8) : (clearDamageMark c s).lines = s.lines := rfl
@[simp] theorem clearDamageMark_pending (c : Fin 8) : (clearDamageMark c s).pending = s.pending := rfl

/-! ## `bumpRevision` -/

@[simp] theorem bumpRevision_power : (bumpRevision s).power = s.power := rfl
@[simp] theorem bumpRevision_freeIndex : (bumpRevision s).freeIndex = s.freeIndex := rfl
@[simp] theorem bumpRevision_field : (bumpRevision s).field = s.field := rfl
@[simp] theorem bumpRevision_metering : (bumpRevision s).metering = s.metering := rfl
@[simp] theorem bumpRevision_band : (bumpRevision s).band = s.band := rfl
@[simp] theorem bumpRevision_allocator : (bumpRevision s).allocator = s.allocator := rfl
@[simp] theorem bumpRevision_supervisor : (bumpRevision s).supervisor = s.supervisor := rfl
@[simp] theorem bumpRevision_exports : (bumpRevision s).exports = s.exports := rfl
@[simp] theorem bumpRevision_settlement : (bumpRevision s).settlement = s.settlement := rfl
@[simp] theorem bumpRevision_links : (bumpRevision s).links = s.links := rfl
@[simp] theorem bumpRevision_lines : (bumpRevision s).lines = s.lines := rfl
@[simp] theorem bumpRevision_pending : (bumpRevision s).pending = s.pending := rfl

/-! ## `setLatch` -/

@[simp] theorem setLatch_power (l : Option Latch) : (setLatch l s).power = s.power := rfl
@[simp] theorem setLatch_freeIndex (l : Option Latch) : (setLatch l s).freeIndex = s.freeIndex := rfl
@[simp] theorem setLatch_field (l : Option Latch) : (setLatch l s).field = s.field := rfl
@[simp] theorem setLatch_metering (l : Option Latch) : (setLatch l s).metering = s.metering := rfl
@[simp] theorem setLatch_band (l : Option Latch) : (setLatch l s).band = s.band := rfl
@[simp] theorem setLatch_allocator (l : Option Latch) : (setLatch l s).allocator = s.allocator := rfl
@[simp] theorem setLatch_supervisor (l : Option Latch) : (setLatch l s).supervisor = s.supervisor := rfl
@[simp] theorem setLatch_contracts (l : Option Latch) : (setLatch l s).contracts = s.contracts := rfl
@[simp] theorem setLatch_settlement (l : Option Latch) : (setLatch l s).settlement = s.settlement := rfl
@[simp] theorem setLatch_links (l : Option Latch) : (setLatch l s).links = s.links := rfl
@[simp] theorem setLatch_lines (l : Option Latch) : (setLatch l s).lines = s.lines := rfl
@[simp] theorem setLatch_pending (l : Option Latch) : (setLatch l s).pending = s.pending := rfl

/-! ## `setHeatAccount` -/

@[simp] theorem setHeatAccount_power (a : Account) : (setHeatAccount a s).power = s.power := rfl
@[simp] theorem setHeatAccount_freeIndex (a : Account) : (setHeatAccount a s).freeIndex = s.freeIndex := rfl
@[simp] theorem setHeatAccount_field (a : Account) : (setHeatAccount a s).field = s.field := rfl
@[simp] theorem setHeatAccount_metering (a : Account) : (setHeatAccount a s).metering = s.metering := rfl
@[simp] theorem setHeatAccount_band (a : Account) : (setHeatAccount a s).band = s.band := rfl
@[simp] theorem setHeatAccount_allocator (a : Account) : (setHeatAccount a s).allocator = s.allocator := rfl
@[simp] theorem setHeatAccount_supervisor (a : Account) : (setHeatAccount a s).supervisor = s.supervisor := rfl
@[simp] theorem setHeatAccount_exports (a : Account) : (setHeatAccount a s).exports = s.exports := rfl
@[simp] theorem setHeatAccount_contracts (a : Account) : (setHeatAccount a s).contracts = s.contracts := rfl
@[simp] theorem setHeatAccount_links (a : Account) : (setHeatAccount a s).links = s.links := rfl
@[simp] theorem setHeatAccount_lines (a : Account) : (setHeatAccount a s).lines = s.lines := rfl
@[simp] theorem setHeatAccount_pending (a : Account) : (setHeatAccount a s).pending = s.pending := rfl

/-! ## `setGasAccount` -/

@[simp] theorem setGasAccount_power (a : Account) : (setGasAccount a s).power = s.power := rfl
@[simp] theorem setGasAccount_freeIndex (a : Account) : (setGasAccount a s).freeIndex = s.freeIndex := rfl
@[simp] theorem setGasAccount_field (a : Account) : (setGasAccount a s).field = s.field := rfl
@[simp] theorem setGasAccount_metering (a : Account) : (setGasAccount a s).metering = s.metering := rfl
@[simp] theorem setGasAccount_band (a : Account) : (setGasAccount a s).band = s.band := rfl
@[simp] theorem setGasAccount_allocator (a : Account) : (setGasAccount a s).allocator = s.allocator := rfl
@[simp] theorem setGasAccount_supervisor (a : Account) : (setGasAccount a s).supervisor = s.supervisor := rfl
@[simp] theorem setGasAccount_exports (a : Account) : (setGasAccount a s).exports = s.exports := rfl
@[simp] theorem setGasAccount_contracts (a : Account) : (setGasAccount a s).contracts = s.contracts := rfl
@[simp] theorem setGasAccount_links (a : Account) : (setGasAccount a s).links = s.links := rfl
@[simp] theorem setGasAccount_lines (a : Account) : (setGasAccount a s).lines = s.lines := rfl
@[simp] theorem setGasAccount_pending (a : Account) : (setGasAccount a s).pending = s.pending := rfl

/-! ## `setCursor` -/

@[simp] theorem setCursor_power (p : Party) (n : Nat) : (setCursor p n s).power = s.power := rfl
@[simp] theorem setCursor_freeIndex (p : Party) (n : Nat) : (setCursor p n s).freeIndex = s.freeIndex := rfl
@[simp] theorem setCursor_field (p : Party) (n : Nat) : (setCursor p n s).field = s.field := rfl
@[simp] theorem setCursor_metering (p : Party) (n : Nat) : (setCursor p n s).metering = s.metering := rfl
@[simp] theorem setCursor_band (p : Party) (n : Nat) : (setCursor p n s).band = s.band := rfl
@[simp] theorem setCursor_allocator (p : Party) (n : Nat) : (setCursor p n s).allocator = s.allocator := rfl
@[simp] theorem setCursor_supervisor (p : Party) (n : Nat) : (setCursor p n s).supervisor = s.supervisor := rfl
@[simp] theorem setCursor_exports (p : Party) (n : Nat) : (setCursor p n s).exports = s.exports := rfl
@[simp] theorem setCursor_contracts (p : Party) (n : Nat) : (setCursor p n s).contracts = s.contracts := rfl
@[simp] theorem setCursor_links (p : Party) (n : Nat) : (setCursor p n s).links = s.links := rfl
@[simp] theorem setCursor_lines (p : Party) (n : Nat) : (setCursor p n s).lines = s.lines := rfl
@[simp] theorem setCursor_pending (p : Party) (n : Nat) : (setCursor p n s).pending = s.pending := rfl

/-! ## `setGap` -/

@[simp] theorem setGap_power (p : Party) (b : Bool) : (setGap p b s).power = s.power := rfl
@[simp] theorem setGap_freeIndex (p : Party) (b : Bool) : (setGap p b s).freeIndex = s.freeIndex := rfl
@[simp] theorem setGap_field (p : Party) (b : Bool) : (setGap p b s).field = s.field := rfl
@[simp] theorem setGap_metering (p : Party) (b : Bool) : (setGap p b s).metering = s.metering := rfl
@[simp] theorem setGap_band (p : Party) (b : Bool) : (setGap p b s).band = s.band := rfl
@[simp] theorem setGap_allocator (p : Party) (b : Bool) : (setGap p b s).allocator = s.allocator := rfl
@[simp] theorem setGap_supervisor (p : Party) (b : Bool) : (setGap p b s).supervisor = s.supervisor := rfl
@[simp] theorem setGap_exports (p : Party) (b : Bool) : (setGap p b s).exports = s.exports := rfl
@[simp] theorem setGap_contracts (p : Party) (b : Bool) : (setGap p b s).contracts = s.contracts := rfl
@[simp] theorem setGap_links (p : Party) (b : Bool) : (setGap p b s).links = s.links := rfl
@[simp] theorem setGap_lines (p : Party) (b : Bool) : (setGap p b s).lines = s.lines := rfl
@[simp] theorem setGap_pending (p : Party) (b : Bool) : (setGap p b s).pending = s.pending := rfl

/-! ## `followNext` -/

@[simp] theorem followNext_power : (followNext s).power = s.power := by unfold followNext; split <;> rfl
@[simp] theorem followNext_freeIndex : (followNext s).freeIndex = s.freeIndex := by unfold followNext; split <;> rfl
@[simp] theorem followNext_field : (followNext s).field = s.field := by unfold followNext; split <;> rfl
@[simp] theorem followNext_metering : (followNext s).metering = s.metering := by unfold followNext; split <;> rfl
@[simp] theorem followNext_band : (followNext s).band = s.band := by unfold followNext; split <;> rfl
@[simp] theorem followNext_allocator : (followNext s).allocator = s.allocator := by unfold followNext; split <;> rfl
@[simp] theorem followNext_supervisor : (followNext s).supervisor = s.supervisor := by unfold followNext; split <;> rfl
@[simp] theorem followNext_exports : (followNext s).exports = s.exports := by unfold followNext; split <;> rfl
@[simp] theorem followNext_contracts : (followNext s).contracts = s.contracts := by unfold followNext; split <;> rfl
@[simp] theorem followNext_links : (followNext s).links = s.links := by unfold followNext; split <;> rfl
@[simp] theorem followNext_lines : (followNext s).lines = s.lines := by unfold followNext; split <;> rfl
@[simp] theorem followNext_pending : (followNext s).pending = s.pending := by unfold followNext; split <;> rfl

/-! ## `setNextRecord` -/

@[simp] theorem setNextRecord_power (n : Nat) : (setNextRecord n s).power = s.power := followNext_power _
@[simp] theorem setNextRecord_freeIndex (n : Nat) : (setNextRecord n s).freeIndex = s.freeIndex := followNext_freeIndex _
@[simp] theorem setNextRecord_field (n : Nat) : (setNextRecord n s).field = s.field := followNext_field _
@[simp] theorem setNextRecord_metering (n : Nat) : (setNextRecord n s).metering = s.metering := followNext_metering _
@[simp] theorem setNextRecord_band (n : Nat) : (setNextRecord n s).band = s.band := followNext_band _
@[simp] theorem setNextRecord_allocator (n : Nat) : (setNextRecord n s).allocator = s.allocator := followNext_allocator _
@[simp] theorem setNextRecord_supervisor (n : Nat) : (setNextRecord n s).supervisor = s.supervisor := followNext_supervisor _
@[simp] theorem setNextRecord_exports (n : Nat) : (setNextRecord n s).exports = s.exports := followNext_exports _
@[simp] theorem setNextRecord_contracts (n : Nat) : (setNextRecord n s).contracts = s.contracts := followNext_contracts _
@[simp] theorem setNextRecord_links (n : Nat) : (setNextRecord n s).links = s.links := followNext_links _
@[simp] theorem setNextRecord_lines (n : Nat) : (setNextRecord n s).lines = s.lines := followNext_lines _
@[simp] theorem setNextRecord_pending (n : Nat) : (setNextRecord n s).pending = s.pending := followNext_pending _

/-! ## `setLocked` -/

@[simp] theorem setLocked_power (b : Bool) : (setLocked b s).power = s.power := rfl
@[simp] theorem setLocked_freeIndex (b : Bool) : (setLocked b s).freeIndex = s.freeIndex := rfl
@[simp] theorem setLocked_field (b : Bool) : (setLocked b s).field = s.field := rfl
@[simp] theorem setLocked_metering (b : Bool) : (setLocked b s).metering = s.metering := rfl
@[simp] theorem setLocked_band (b : Bool) : (setLocked b s).band = s.band := rfl
@[simp] theorem setLocked_allocator (b : Bool) : (setLocked b s).allocator = s.allocator := rfl
@[simp] theorem setLocked_supervisor (b : Bool) : (setLocked b s).supervisor = s.supervisor := rfl
@[simp] theorem setLocked_exports (b : Bool) : (setLocked b s).exports = s.exports := rfl
@[simp] theorem setLocked_settlement (b : Bool) : (setLocked b s).settlement = s.settlement := rfl
@[simp] theorem setLocked_links (b : Bool) : (setLocked b s).links = s.links := rfl
@[simp] theorem setLocked_lines (b : Bool) : (setLocked b s).lines = s.lines := rfl
@[simp] theorem setLocked_pending (b : Bool) : (setLocked b s).pending = s.pending := rfl

/-! ## `setRevision` -/

@[simp] theorem setRevision_power (n : Nat) : (setRevision n s).power = s.power := rfl
@[simp] theorem setRevision_freeIndex (n : Nat) : (setRevision n s).freeIndex = s.freeIndex := rfl
@[simp] theorem setRevision_field (n : Nat) : (setRevision n s).field = s.field := rfl
@[simp] theorem setRevision_metering (n : Nat) : (setRevision n s).metering = s.metering := rfl
@[simp] theorem setRevision_band (n : Nat) : (setRevision n s).band = s.band := rfl
@[simp] theorem setRevision_allocator (n : Nat) : (setRevision n s).allocator = s.allocator := rfl
@[simp] theorem setRevision_supervisor (n : Nat) : (setRevision n s).supervisor = s.supervisor := rfl
@[simp] theorem setRevision_exports (n : Nat) : (setRevision n s).exports = s.exports := rfl
@[simp] theorem setRevision_settlement (n : Nat) : (setRevision n s).settlement = s.settlement := rfl
@[simp] theorem setRevision_links (n : Nat) : (setRevision n s).links = s.links := rfl
@[simp] theorem setRevision_lines (n : Nat) : (setRevision n s).lines = s.lines := rfl
@[simp] theorem setRevision_pending (n : Nat) : (setRevision n s).pending = s.pending := rfl

/-! ## `setNextProposal` -/

@[simp] theorem setNextProposal_power (n : Nat) : (setNextProposal n s).power = s.power := rfl
@[simp] theorem setNextProposal_freeIndex (n : Nat) : (setNextProposal n s).freeIndex = s.freeIndex := rfl
@[simp] theorem setNextProposal_field (n : Nat) : (setNextProposal n s).field = s.field := rfl
@[simp] theorem setNextProposal_metering (n : Nat) : (setNextProposal n s).metering = s.metering := rfl
@[simp] theorem setNextProposal_band (n : Nat) : (setNextProposal n s).band = s.band := rfl
@[simp] theorem setNextProposal_allocator (n : Nat) : (setNextProposal n s).allocator = s.allocator := rfl
@[simp] theorem setNextProposal_supervisor (n : Nat) : (setNextProposal n s).supervisor = s.supervisor := rfl
@[simp] theorem setNextProposal_exports (n : Nat) : (setNextProposal n s).exports = s.exports := rfl
@[simp] theorem setNextProposal_settlement (n : Nat) : (setNextProposal n s).settlement = s.settlement := rfl
@[simp] theorem setNextProposal_links (n : Nat) : (setNextProposal n s).links = s.links := rfl
@[simp] theorem setNextProposal_lines (n : Nat) : (setNextProposal n s).lines = s.lines := rfl
@[simp] theorem setNextProposal_pending (n : Nat) : (setNextProposal n s).pending = s.pending := rfl

/-! ## `setIdentity` -/

@[simp] theorem setIdentity_power (code : Nat) (name : List Byte) : (setIdentity code name s).power = s.power := rfl
@[simp] theorem setIdentity_freeIndex (code : Nat) (name : List Byte) : (setIdentity code name s).freeIndex = s.freeIndex := rfl
@[simp] theorem setIdentity_field (code : Nat) (name : List Byte) : (setIdentity code name s).field = s.field := rfl
@[simp] theorem setIdentity_metering (code : Nat) (name : List Byte) : (setIdentity code name s).metering = s.metering := rfl
@[simp] theorem setIdentity_band (code : Nat) (name : List Byte) : (setIdentity code name s).band = s.band := rfl
@[simp] theorem setIdentity_allocator (code : Nat) (name : List Byte) : (setIdentity code name s).allocator = s.allocator := rfl
@[simp] theorem setIdentity_supervisor (code : Nat) (name : List Byte) : (setIdentity code name s).supervisor = s.supervisor := rfl
@[simp] theorem setIdentity_exports (code : Nat) (name : List Byte) : (setIdentity code name s).exports = s.exports := rfl
@[simp] theorem setIdentity_settlement (code : Nat) (name : List Byte) : (setIdentity code name s).settlement = s.settlement := rfl
@[simp] theorem setIdentity_links (code : Nat) (name : List Byte) : (setIdentity code name s).links = s.links := rfl
@[simp] theorem setIdentity_lines (code : Nat) (name : List Byte) : (setIdentity code name s).lines = s.lines := rfl
@[simp] theorem setIdentity_pending (code : Nat) (name : List Byte) : (setIdentity code name s).pending = s.pending := rfl

/-! ## `countCorrected` -/

@[simp] theorem countCorrected_power : (countCorrected s).power = s.power := rfl
@[simp] theorem countCorrected_freeIndex : (countCorrected s).freeIndex = s.freeIndex := rfl
@[simp] theorem countCorrected_field : (countCorrected s).field = s.field := rfl
@[simp] theorem countCorrected_metering : (countCorrected s).metering = s.metering := rfl
@[simp] theorem countCorrected_band : (countCorrected s).band = s.band := rfl
@[simp] theorem countCorrected_allocator : (countCorrected s).allocator = s.allocator := rfl
@[simp] theorem countCorrected_supervisor : (countCorrected s).supervisor = s.supervisor := rfl
@[simp] theorem countCorrected_exports : (countCorrected s).exports = s.exports := rfl
@[simp] theorem countCorrected_contracts : (countCorrected s).contracts = s.contracts := rfl
@[simp] theorem countCorrected_settlement : (countCorrected s).settlement = s.settlement := rfl
@[simp] theorem countCorrected_links : (countCorrected s).links = s.links := rfl
@[simp] theorem countCorrected_lines : (countCorrected s).lines = s.lines := rfl
@[simp] theorem countCorrected_pending : (countCorrected s).pending = s.pending := rfl

/-! ## `zeroReportField` -/

@[simp] theorem zeroReportField_power (k : Fin 4) : (zeroReportField k s).power = s.power := rfl
@[simp] theorem zeroReportField_freeIndex (k : Fin 4) : (zeroReportField k s).freeIndex = s.freeIndex := rfl
@[simp] theorem zeroReportField_field (k : Fin 4) : (zeroReportField k s).field = s.field := rfl
@[simp] theorem zeroReportField_metering (k : Fin 4) : (zeroReportField k s).metering = s.metering := rfl
@[simp] theorem zeroReportField_band (k : Fin 4) : (zeroReportField k s).band = s.band := rfl
@[simp] theorem zeroReportField_allocator (k : Fin 4) : (zeroReportField k s).allocator = s.allocator := rfl
@[simp] theorem zeroReportField_supervisor (k : Fin 4) : (zeroReportField k s).supervisor = s.supervisor := rfl
@[simp] theorem zeroReportField_exports (k : Fin 4) : (zeroReportField k s).exports = s.exports := rfl
@[simp] theorem zeroReportField_contracts (k : Fin 4) : (zeroReportField k s).contracts = s.contracts := rfl
@[simp] theorem zeroReportField_settlement (k : Fin 4) : (zeroReportField k s).settlement = s.settlement := rfl
@[simp] theorem zeroReportField_links (k : Fin 4) : (zeroReportField k s).links = s.links := rfl
@[simp] theorem zeroReportField_lines (k : Fin 4) : (zeroReportField k s).lines = s.lines := rfl
@[simp] theorem zeroReportField_pending (k : Fin 4) : (zeroReportField k s).pending = s.pending := rfl

/-! ## `setMark` -/

@[simp] theorem setMark_power (k : Fin 96) (b : Bool) : (setMark k b s).power = s.power := rfl
@[simp] theorem setMark_freeIndex (k : Fin 96) (b : Bool) : (setMark k b s).freeIndex = s.freeIndex := rfl
@[simp] theorem setMark_field (k : Fin 96) (b : Bool) : (setMark k b s).field = s.field := rfl
@[simp] theorem setMark_metering (k : Fin 96) (b : Bool) : (setMark k b s).metering = s.metering := rfl
@[simp] theorem setMark_band (k : Fin 96) (b : Bool) : (setMark k b s).band = s.band := rfl
@[simp] theorem setMark_allocator (k : Fin 96) (b : Bool) : (setMark k b s).allocator = s.allocator := rfl
@[simp] theorem setMark_supervisor (k : Fin 96) (b : Bool) : (setMark k b s).supervisor = s.supervisor := rfl
@[simp] theorem setMark_exports (k : Fin 96) (b : Bool) : (setMark k b s).exports = s.exports := rfl
@[simp] theorem setMark_contracts (k : Fin 96) (b : Bool) : (setMark k b s).contracts = s.contracts := rfl
@[simp] theorem setMark_settlement (k : Fin 96) (b : Bool) : (setMark k b s).settlement = s.settlement := rfl
@[simp] theorem setMark_links (k : Fin 96) (b : Bool) : (setMark k b s).links = s.links := rfl
@[simp] theorem setMark_lines (k : Fin 96) (b : Bool) : (setMark k b s).lines = s.lines := rfl
@[simp] theorem setMark_pending (k : Fin 96) (b : Bool) : (setMark k b s).pending = s.pending := rfl

/-! ## `clearMarks` -/

@[simp] theorem clearMarks_power : (clearMarks s).power = s.power := rfl
@[simp] theorem clearMarks_freeIndex : (clearMarks s).freeIndex = s.freeIndex := rfl
@[simp] theorem clearMarks_field : (clearMarks s).field = s.field := rfl
@[simp] theorem clearMarks_metering : (clearMarks s).metering = s.metering := rfl
@[simp] theorem clearMarks_band : (clearMarks s).band = s.band := rfl
@[simp] theorem clearMarks_allocator : (clearMarks s).allocator = s.allocator := rfl
@[simp] theorem clearMarks_supervisor : (clearMarks s).supervisor = s.supervisor := rfl
@[simp] theorem clearMarks_exports : (clearMarks s).exports = s.exports := rfl
@[simp] theorem clearMarks_contracts : (clearMarks s).contracts = s.contracts := rfl
@[simp] theorem clearMarks_settlement : (clearMarks s).settlement = s.settlement := rfl
@[simp] theorem clearMarks_links : (clearMarks s).links = s.links := rfl
@[simp] theorem clearMarks_lines : (clearMarks s).lines = s.lines := rfl
@[simp] theorem clearMarks_pending : (clearMarks s).pending = s.pending := rfl

/-! ## `rewriteSignature` -/

@[simp] theorem rewriteSignature_power (k : Fin 4) : (rewriteSignature k s).power = s.power := rfl
@[simp] theorem rewriteSignature_freeIndex (k : Fin 4) : (rewriteSignature k s).freeIndex = s.freeIndex := rfl
@[simp] theorem rewriteSignature_field (k : Fin 4) : (rewriteSignature k s).field = s.field := rfl
@[simp] theorem rewriteSignature_metering (k : Fin 4) : (rewriteSignature k s).metering = s.metering := rfl
@[simp] theorem rewriteSignature_band (k : Fin 4) : (rewriteSignature k s).band = s.band := rfl
@[simp] theorem rewriteSignature_allocator (k : Fin 4) : (rewriteSignature k s).allocator = s.allocator := rfl
@[simp] theorem rewriteSignature_supervisor (k : Fin 4) : (rewriteSignature k s).supervisor = s.supervisor := rfl
@[simp] theorem rewriteSignature_exports (k : Fin 4) : (rewriteSignature k s).exports = s.exports := rfl
@[simp] theorem rewriteSignature_contracts (k : Fin 4) : (rewriteSignature k s).contracts = s.contracts := rfl
@[simp] theorem rewriteSignature_settlement (k : Fin 4) : (rewriteSignature k s).settlement = s.settlement := rfl
@[simp] theorem rewriteSignature_links (k : Fin 4) : (rewriteSignature k s).links = s.links := rfl
@[simp] theorem rewriteSignature_lines (k : Fin 4) : (rewriteSignature k s).lines = s.lines := rfl
@[simp] theorem rewriteSignature_pending (k : Fin 4) : (rewriteSignature k s).pending = s.pending := rfl

end Sys2Proof.Machine
end

