-- ==== Sys2Proof/Laws/Ops.lean ====
section
/-! SUPPORT. What each shared operation does: reading back what was written, and what stays as it was. -/

namespace Sys2Proof.Machine

/-! ## Folds -/

/-- A component that every step of a fold keeps is kept by the fold. -/
theorem foldl_keeps {σ α β : Type} (g : σ → β) (f : σ → α → σ) (h : ∀ s a, g (f s a) = g s) (l : List α) (s : σ) :
    g (l.foldl f s) = g s := by
  induction l generalizing s with
  | nil => rfl
  | cons a l ih => rw [List.foldl_cons, ih, h]

/-- A condition that every step of a fold keeps is kept by the fold. -/
theorem foldl_induct {σ α : Type} (P : σ → Prop) (f : σ → α → σ) (l : List α) (h : ∀ s, ∀ a ∈ l, P s → P (f s a)) (s : σ)
    (hs : P s) : P (l.foldl f s) := by
  induction l generalizing s with
  | nil => exact hs
  | cons a l ih =>
    exact ih (fun s b hb => h s b (List.mem_cons_of_mem a hb)) _ (h s a (List.mem_cons_self ..) hs)

/-! ## Records read back -/

@[simp] theorem consumer_setConsumer_same (c : Fin 8) (r : Consumer) (s : State) : consumer (setConsumer c r s) c = r := by
  simp [consumer, setConsumer]

@[simp] theorem consumer_setConsumer_ne {c d : Fin 8} (h : d ≠ c) (r : Consumer) (s : State) :
    consumer (setConsumer c r s) d = consumer s d := by
  have : c.val ≠ d.val := fun e => h (Fin.ext e.symm)
  simp [consumer, setConsumer, this]

@[simp] theorem consumer_putConsumer_same (c : Fin 8) (r : Consumer) (s : State) : consumer (putConsumer c r s) c = r := by
  simp [putConsumer, consumer, refreshValves, setConsumer]

@[simp] theorem consumer_putConsumer_ne {c d : Fin 8} (h : d ≠ c) (r : Consumer) (s : State) :
    consumer (putConsumer c r s) d = consumer s d :=
  consumer_setConsumer_ne h r s

@[simp] theorem channel_setChannel_same (ch : Fin 16) (r : PulseChannel) (s : State) :
    channel (setChannel ch r s) ch = r := by
  simp [channel, setChannel]

@[simp] theorem channel_setChannel_ne {ch d : Fin 16} (h : d ≠ ch) (r : PulseChannel) (s : State) :
    channel (setChannel ch r s) d = channel s d := by
  have : ch.val ≠ d.val := fun e => h (Fin.ext e.symm)
  simp [channel, setChannel, this]

@[simp] theorem sample_setSample_same (k : Fin 22) (r : SampleRecord) (s : State) : sample (setSample k r s) k = r := by
  simp [sample, setSample]

@[simp] theorem sample_setSample_ne {k d : Fin 22} (h : d ≠ k) (r : SampleRecord) (s : State) :
    sample (setSample k r s) d = sample s d := by
  have : k.val ≠ d.val := fun e => h (Fin.ext e.symm)
  simp [sample, setSample, this]

/-- What depends on one component alone is kept with it. -/
theorem consumer_eq {s t : State} (h : t.supervisor = s.supervisor) (c : Fin 8) : consumer t c = consumer s c := by
  simp [consumer, h]

theorem channel_eq {s t : State} (h : t.field = s.field) (ch : Fin 16) : channel t ch = channel s ch := by
  simp [channel, h]

theorem sample_eq {s t : State} (h : t.field = s.field) (k : Fin 22) : sample t k = sample s k := by simp [sample, h]

theorem item_eq {s t : State} (h : t.contracts.contract = s.contracts.contract) (i : Item) : item t i = item s i := by
  simp [item, h]

theorem itemNat_eq {s t : State} (h : t.contracts.contract = s.contracts.contract) (i : Item) :
    itemNat t i = itemNat s i := by
  simp [itemNat, item_eq h]

theorem consumerItem_eq {s t : State} (h : t.contracts.contract = s.contracts.contract) (c : Fin 8) (k : Fin 23) :
    consumerItem t c k = consumerItem s c k := by
  simp [consumerItem, itemNat_eq h]

theorem ownerOf_eq {s t : State} (h : t.contracts.contract = s.contracts.contract) (c : Fin 8) :
    ownerOf t c = ownerOf s c := by
  simp [ownerOf, item_eq h]

theorem valueInUse_eq {s t : State} (hf : t.field = s.field) (hc : t.contracts.contract = s.contracts.contract)
    (k : Fin 22) : valueInUse t k = valueInUse s k := by
  simp [valueInUse, sample_eq hf, item_eq hc]

theorem takeRate_eq {s t : State} (hf : t.field = s.field) (hc : t.contracts.contract = s.contracts.contract)
    (ch : Fin 16) : takeRate t ch = takeRate s ch := by
  unfold takeRate sinceArrival
  rw [channel_eq hf, itemNat_eq hc, hf]

theorem draw_eq {s t : State} (hf : t.field = s.field) (hc : t.contracts.contract = s.contracts.contract) (c : Fin 8) :
    draw t c = draw s c := takeRate_eq hf hc _

/-! ## Contract items -/

/-- An item reads back as it was written. -/
theorem readItem_writeItem_same (k : Contract) (i : Item) (v : Int) : readItem (writeItem k i v) i = v := by
  cases i <;> simp [readItem, writeItem]

theorem getElem_set_fin {α : Type} {n : Nat} (v : Vector α n) {i j : Fin n} (h : j ≠ i) (x : α) : (v.set i x)[j] = v[j] :=
  Vector.getElem_set_ne i.isLt j.isLt fun e => h (Fin.ext e.symm)

theorem getElem_set_set {α : Type} {n m : Nat} (v : Vector (Vector α m) n) {i i' : Fin n} {j j' : Fin m}
    (h : i' = i → j' ≠ j) (x : α) : ((v.set i (v[i].set j x))[i'])[j'] = v[i'][j'] := by
  by_cases e : i' = i
  · subst e
    rw [show (v.set i' (v[i'].set j x))[i'] = v[i'].set j x from Vector.getElem_set_self ..]
    exact getElem_set_fin _ (h rfl) x
  · rw [getElem_set_fin v e]

/-- Writing one item leaves every other as it was. -/
theorem readItem_writeItem_ne (k : Contract) {i j : Item} (h : j ≠ i) (v : Int) :
    readItem (writeItem k i v) j = readItem k j := by
  cases i <;> cases j <;> first
    | rfl
    | exact absurd rfl h
    | exact getElem_set_fin _ (fun e => h (by rw [e])) v
    | exact getElem_set_set _ (fun e e' => h (by rw [e, e'])) v

theorem item_setItem_same (i : Item) (v : Int) (s : State) : item (setItem i v s) i = v :=
  readItem_writeItem_same s.contracts.contract i v

theorem item_setItem_ne {i j : Item} (h : j ≠ i) (v : Int) (s : State) : item (setItem i v s) j = item s j :=
  readItem_writeItem_ne s.contracts.contract h v

/-! ## Parties and notices -/

@[simp] theorem hasParty_addParty (ps : PartySet) (p q : Party) : hasParty (addParty ps p) q = (q == p || hasParty ps q) := by
  cases p <;> cases q <;> simp [hasParty, addParty]

@[simp] theorem hasParty_noParties (p : Party) : hasParty noParties p = false := by cases p <;> rfl

@[simp] theorem hasParty_allParties (p : Party) : hasParty allParties p = true := by cases p <;> rfl

@[simp] theorem hasParty_onlyParty (p q : Party) : hasParty (onlyParty p) q = (q == p) := by
  cases p <;> cases q <;> rfl

@[simp] theorem hasParty_unionParties (a b : PartySet) (p : Party) :
    hasParty (unionParties a b) p = (hasParty a p || hasParty b p) := by
  cases p <;> rfl

theorem partyIndex_inj {p q : Party} (h : partyIndex p = partyIndex q) : p = q := by
  cases p <;> cases q <;> simp [partyIndex] at h ⊢

/-- An occurrence leaves its record pending with its own detail (R184). -/
theorem addOccurrence_pending (d : Detail) (n : NoticeRecord) : (addOccurrence d n).pending = true := by
  unfold addOccurrence; split <;> simp_all

theorem addOccurrence_detail (d : Detail) (n : NoticeRecord) : (addOccurrence d n).detail = some d := by
  unfold addOccurrence; split <;> rfl

/-! ## Words of the store -/

@[simp] theorem wrote_store (t : Thing) (s : State) :
    (wrote t s).store = { s.store with
      errors := s.store.errors.filter fun e => thingAt s.store.layout e.1 != some t } := rfl

@[simp] theorem setErrors_store (l : List (Nat × WordError)) (s : State) :
    (setErrors l s).store = { s.store with errors := l } := rfl

/-- The seconds between two device times in their order. -/
theorem spanOf_of_le {a b : Nat} (h : a ≤ b) : spanOf a b = b - a := if_pos h

/-- Where no word is in error, a write changes no word's error. -/
theorem wrote_clean {s : State} (h : s.store.errors = []) (t : Thing) : wrote t s = s := by
  obtain ⟨_, _, _, _, _, _, _, _, _, _, store, _, _, _⟩ := s
  cases store; simp_all [wrote, setErrors]

theorem wroteAll_clean {s : State} (h : s.store.errors = []) (ts : List Thing) : wroteAll ts s = s := by
  unfold wroteAll
  induction ts with
  | nil => rfl
  | cons t ts ih => rw [List.foldl_cons, wrote_clean h, ih]

theorem wordsInError_clean {s : State} (h : s.store.errors = []) (t : Thing) : wordsInError t s = [] := by
  simp [wordsInError, h]

/-- A word that gains a bit in error is in error (R165). -/
theorem errorAt_addError_self (w : Nat) (l : List (Nat × WordError)) : (errorAt (addError w l) w).isSome = true := by
  induction l with
  | nil => simp [addError, errorAt]
  | cons a l ih =>
    obtain ⟨v, e⟩ := a
    unfold addError
    split
    · simp [errorAt]
    · split
      · simp_all [errorAt]
      · rename_i h1 h2
        have hv : (v == w) = false := by simp; omega
        simpa [errorAt, List.find?_cons, hv] using ih

/-- The other words keep their error (R165). -/
theorem errorAt_addError_ne {w v : Nat} (h : v ≠ w) (l : List (Nat × WordError)) :
    errorAt (addError w l) v = errorAt l v := by
  induction l with
  | nil =>
    have hv : (w == v) = false := by simp; omega
    simp [addError, errorAt, hv]
  | cons a l ih =>
    obtain ⟨u, e⟩ := a
    have hw : (w == v) = false := by simp; omega
    unfold addError
    split
    · simp [errorAt, List.find?_cons, hw]
    · split
      · rename_i h2
        subst h2
        simp [errorAt, hw]
      · cases hu : u == v <;> simp_all [errorAt]

/-- The canonical form of the words in error is kept by a write (R165). -/
theorem errorsInOrder_filter (q : Nat × WordError → Bool) {l : List (Nat × WordError)} (h : errorsInOrder l = true) :
    errorsInOrder (l.filter q) = true := by
  simp only [errorsInOrder, Bool.and_eq_true, decide_eq_true_eq, List.all_eq_true, List.mem_filter] at h ⊢
  exact ⟨h.1.filter q, fun e he => h.2 e he.1⟩

theorem mem_addError {w : Nat} {l : List (Nat × WordError)} {x : Nat × WordError} (h : x ∈ addError w l) :
    x.1 = w ∨ ∃ y ∈ l, y.1 = x.1 := by
  induction l with
  | nil => simp [addError] at h; simp [h]
  | cons a l ih =>
    obtain ⟨v, e⟩ := a
    unfold addError at h
    split at h
    · rcases List.mem_cons.1 h with rfl | h
      · exact .inl rfl
      · exact .inr ⟨x, h, rfl⟩
    · split at h
      · rcases List.mem_cons.1 h with rfl | h
        · exact .inr ⟨(v, e), List.mem_cons_self .., rfl⟩
        · exact .inr ⟨x, List.mem_cons_of_mem _ h, rfl⟩
      · rcases List.mem_cons.1 h with rfl | h
        · exact .inr ⟨(v, e), List.mem_cons_self .., rfl⟩
        · rcases ih h with h | ⟨y, hy, e⟩
          · exact .inl h
          · exact .inr ⟨y, List.mem_cons_of_mem _ hy, e⟩

/-- The canonical form of the words in error is kept by decay (R165). -/
theorem errorsInOrder_addError {w : Nat} (hw : w < Config.storeWords) {l : List (Nat × WordError)}
    (h : errorsInOrder l = true) : errorsInOrder (addError w l) = true := by
  simp only [errorsInOrder, Bool.and_eq_true, decide_eq_true_eq, List.all_eq_true] at h ⊢
  obtain ⟨hp, ha⟩ := h
  refine ⟨?_, fun x hx => ?_⟩
  · clear ha
    induction l with
    | nil => simp [addError]
    | cons a l ih =>
      obtain ⟨v, e⟩ := a
      obtain ⟨h1, h2⟩ := List.pairwise_cons.1 hp
      unfold addError
      split
      · rename_i hlt
        refine List.pairwise_cons.2 ⟨fun x hx => ?_, hp⟩
        rcases List.mem_cons.1 hx with rfl | hx
        · exact hlt
        · exact Nat.lt_trans hlt (h1 x hx)
      · split
        · exact List.pairwise_cons.2 ⟨fun x hx => h1 x hx, h2⟩
        · refine List.pairwise_cons.2 ⟨fun x hx => ?_, ih h2⟩
          rcases mem_addError hx with e | ⟨y, hy, e⟩
          · show v < x.1
            omega
          · show v < x.1
            rw [← e]; exact h1 y hy
  · rcases mem_addError hx with e | ⟨y, hy, e⟩
    · rw [e]; exact hw
    · rw [← e]; exact ha y hy

/-- The intervals that QUERY of an item returns as its range hold the values in range, and no other (R118, R141). -/
theorem refInRange_iff_refRanges (r : ItemRef) (v : Int) :
    refInRange r v = true ↔ ∃ b ∈ refRanges r, b.1 ≤ v ∧ v ≤ b.2 := by
  cases r with
  | offset => simp [refInRange, refRanges]; omega
  | lock => simp [refInRange, refRanges]; omega
  | item i =>
    have plain : itemChoices i = none →
        (refInRange (.item i) v = true ↔ ∃ b ∈ refRanges (.item i), b.1 ≤ v ∧ v ≤ b.2) := by
      intro h; simp [refInRange, itemInRange, refRanges, h]
    cases i with
    | intervalLength => simp [refInRange, itemInRange, refRanges, itemChoices, itemRange]; grind
    | consumer c k =>
      by_cases h : k = cPurgeTime
      · subst h
        simp [refInRange, itemInRange, refRanges, itemChoices, itemRange,
          show consumerRanges[cPurgeTime] = (30, 240) from rfl]
        omega
      · exact plain (by simp [itemChoices, h])
    | _ => exact plain rfl

end Sys2Proof.Machine
end

