-- ==== Sys2Proof/Laws/Frames.lean ====
section
/-! SUPPORT. What each composed operation leaves as it was: one lemma for each top-level field that it does not touch. -/

namespace Sys2Proof.Machine

variable (s : State)

/-! ## `wroteAll` -/

@[simp] theorem wroteAll_power (ts : List Thing) : (wroteAll ts s).power = s.power :=
  by unfold wroteAll; exact foldl_keeps State.power _ (fun _ _ => by simp) _ _
@[simp] theorem wroteAll_freeIndex (ts : List Thing) : (wroteAll ts s).freeIndex = s.freeIndex :=
  by unfold wroteAll; exact foldl_keeps State.freeIndex _ (fun _ _ => by simp) _ _
@[simp] theorem wroteAll_field (ts : List Thing) : (wroteAll ts s).field = s.field :=
  by unfold wroteAll; exact foldl_keeps State.field _ (fun _ _ => by simp) _ _
@[simp] theorem wroteAll_metering (ts : List Thing) : (wroteAll ts s).metering = s.metering :=
  by unfold wroteAll; exact foldl_keeps State.metering _ (fun _ _ => by simp) _ _
@[simp] theorem wroteAll_band (ts : List Thing) : (wroteAll ts s).band = s.band :=
  by unfold wroteAll; exact foldl_keeps State.band _ (fun _ _ => by simp) _ _
@[simp] theorem wroteAll_allocator (ts : List Thing) : (wroteAll ts s).allocator = s.allocator :=
  by unfold wroteAll; exact foldl_keeps State.allocator _ (fun _ _ => by simp) _ _
@[simp] theorem wroteAll_supervisor (ts : List Thing) : (wroteAll ts s).supervisor = s.supervisor :=
  by unfold wroteAll; exact foldl_keeps State.supervisor _ (fun _ _ => by simp) _ _
@[simp] theorem wroteAll_exports (ts : List Thing) : (wroteAll ts s).exports = s.exports :=
  by unfold wroteAll; exact foldl_keeps State.exports _ (fun _ _ => by simp) _ _
@[simp] theorem wroteAll_contracts (ts : List Thing) : (wroteAll ts s).contracts = s.contracts :=
  by unfold wroteAll; exact foldl_keeps State.contracts _ (fun _ _ => by simp) _ _
@[simp] theorem wroteAll_settlement (ts : List Thing) : (wroteAll ts s).settlement = s.settlement :=
  by unfold wroteAll; exact foldl_keeps State.settlement _ (fun _ _ => by simp) _ _
@[simp] theorem wroteAll_links (ts : List Thing) : (wroteAll ts s).links = s.links :=
  by unfold wroteAll; exact foldl_keeps State.links _ (fun _ _ => by simp) _ _
@[simp] theorem wroteAll_lines (ts : List Thing) : (wroteAll ts s).lines = s.lines :=
  by unfold wroteAll; exact foldl_keeps State.lines _ (fun _ _ => by simp) _ _
@[simp] theorem wroteAll_pending (ts : List Thing) : (wroteAll ts s).pending = s.pending :=
  by unfold wroteAll; exact foldl_keeps State.pending _ (fun _ _ => by simp) _ _

/-! ## `raiseNotice` -/

@[simp] theorem raiseNotice_power (ps : PartySet) (k : Fin 10) (d : Detail) : (raiseNotice ps k d s).power = s.power :=
  by unfold raiseNotice; exact foldl_keeps State.power _ (fun _ _ => by split <;> simp) _ _
@[simp] theorem raiseNotice_freeIndex (ps : PartySet) (k : Fin 10) (d : Detail) : (raiseNotice ps k d s).freeIndex = s.freeIndex :=
  by unfold raiseNotice; exact foldl_keeps State.freeIndex _ (fun _ _ => by split <;> simp) _ _
@[simp] theorem raiseNotice_field (ps : PartySet) (k : Fin 10) (d : Detail) : (raiseNotice ps k d s).field = s.field :=
  by unfold raiseNotice; exact foldl_keeps State.field _ (fun _ _ => by split <;> simp) _ _
@[simp] theorem raiseNotice_metering (ps : PartySet) (k : Fin 10) (d : Detail) : (raiseNotice ps k d s).metering = s.metering :=
  by unfold raiseNotice; exact foldl_keeps State.metering _ (fun _ _ => by split <;> simp) _ _
@[simp] theorem raiseNotice_band (ps : PartySet) (k : Fin 10) (d : Detail) : (raiseNotice ps k d s).band = s.band :=
  by unfold raiseNotice; exact foldl_keeps State.band _ (fun _ _ => by split <;> simp) _ _
@[simp] theorem raiseNotice_allocator (ps : PartySet) (k : Fin 10) (d : Detail) : (raiseNotice ps k d s).allocator = s.allocator :=
  by unfold raiseNotice; exact foldl_keeps State.allocator _ (fun _ _ => by split <;> simp) _ _
@[simp] theorem raiseNotice_supervisor (ps : PartySet) (k : Fin 10) (d : Detail) : (raiseNotice ps k d s).supervisor = s.supervisor :=
  by unfold raiseNotice; exact foldl_keeps State.supervisor _ (fun _ _ => by split <;> simp) _ _
@[simp] theorem raiseNotice_exports (ps : PartySet) (k : Fin 10) (d : Detail) : (raiseNotice ps k d s).exports = s.exports :=
  by unfold raiseNotice; exact foldl_keeps State.exports _ (fun _ _ => by split <;> simp) _ _
@[simp] theorem raiseNotice_contracts (ps : PartySet) (k : Fin 10) (d : Detail) : (raiseNotice ps k d s).contracts = s.contracts :=
  by unfold raiseNotice; exact foldl_keeps State.contracts _ (fun _ _ => by split <;> simp) _ _
@[simp] theorem raiseNotice_settlement (ps : PartySet) (k : Fin 10) (d : Detail) : (raiseNotice ps k d s).settlement = s.settlement :=
  by unfold raiseNotice; exact foldl_keeps State.settlement _ (fun _ _ => by split <;> simp) _ _
@[simp] theorem raiseNotice_store (ps : PartySet) (k : Fin 10) (d : Detail) : (raiseNotice ps k d s).store = s.store :=
  by unfold raiseNotice; exact foldl_keeps State.store _ (fun _ _ => by split <;> simp) _ _
@[simp] theorem raiseNotice_pending (ps : PartySet) (k : Fin 10) (d : Detail) : (raiseNotice ps k d s).pending = s.pending :=
  by unfold raiseNotice; exact foldl_keeps State.pending _ (fun _ _ => by split <;> simp) _ _

/-! ## `onOpen` -/

@[simp] theorem onOpen_power (k : Fin 49) (f : OpenRecord → OpenRecord) : (onOpen k f s).power = s.power :=
  by unfold onOpen; (repeat' split) <;> simp
@[simp] theorem onOpen_freeIndex (k : Fin 49) (f : OpenRecord → OpenRecord) : (onOpen k f s).freeIndex = s.freeIndex :=
  by unfold onOpen; (repeat' split) <;> simp
@[simp] theorem onOpen_field (k : Fin 49) (f : OpenRecord → OpenRecord) : (onOpen k f s).field = s.field :=
  by unfold onOpen; (repeat' split) <;> simp
@[simp] theorem onOpen_metering (k : Fin 49) (f : OpenRecord → OpenRecord) : (onOpen k f s).metering = s.metering :=
  by unfold onOpen; (repeat' split) <;> simp
@[simp] theorem onOpen_band (k : Fin 49) (f : OpenRecord → OpenRecord) : (onOpen k f s).band = s.band :=
  by unfold onOpen; (repeat' split) <;> simp
@[simp] theorem onOpen_allocator (k : Fin 49) (f : OpenRecord → OpenRecord) : (onOpen k f s).allocator = s.allocator :=
  by unfold onOpen; (repeat' split) <;> simp
@[simp] theorem onOpen_supervisor (k : Fin 49) (f : OpenRecord → OpenRecord) : (onOpen k f s).supervisor = s.supervisor :=
  by unfold onOpen; (repeat' split) <;> simp
@[simp] theorem onOpen_exports (k : Fin 49) (f : OpenRecord → OpenRecord) : (onOpen k f s).exports = s.exports :=
  by unfold onOpen; (repeat' split) <;> simp
@[simp] theorem onOpen_contracts (k : Fin 49) (f : OpenRecord → OpenRecord) : (onOpen k f s).contracts = s.contracts :=
  by unfold onOpen; (repeat' split) <;> simp
@[simp] theorem onOpen_links (k : Fin 49) (f : OpenRecord → OpenRecord) : (onOpen k f s).links = s.links :=
  by unfold onOpen; (repeat' split) <;> simp
@[simp] theorem onOpen_lines (k : Fin 49) (f : OpenRecord → OpenRecord) : (onOpen k f s).lines = s.lines :=
  by unfold onOpen; (repeat' split) <;> simp
@[simp] theorem onOpen_pending (k : Fin 49) (f : OpenRecord → OpenRecord) : (onOpen k f s).pending = s.pending :=
  by unfold onOpen; (repeat' split) <;> simp

/-! ## `markEstimated` -/

@[simp] theorem markEstimated_power (ch : Fin 16) : (markEstimated ch s).power = s.power :=
  by unfold markEstimated; (repeat' split) <;> simp
@[simp] theorem markEstimated_freeIndex (ch : Fin 16) : (markEstimated ch s).freeIndex = s.freeIndex :=
  by unfold markEstimated; (repeat' split) <;> simp
@[simp] theorem markEstimated_field (ch : Fin 16) : (markEstimated ch s).field = s.field :=
  by unfold markEstimated; (repeat' split) <;> simp
@[simp] theorem markEstimated_metering (ch : Fin 16) : (markEstimated ch s).metering = s.metering :=
  by unfold markEstimated; (repeat' split) <;> simp
@[simp] theorem markEstimated_band (ch : Fin 16) : (markEstimated ch s).band = s.band :=
  by unfold markEstimated; (repeat' split) <;> simp
@[simp] theorem markEstimated_allocator (ch : Fin 16) : (markEstimated ch s).allocator = s.allocator :=
  by unfold markEstimated; (repeat' split) <;> simp
@[simp] theorem markEstimated_supervisor (ch : Fin 16) : (markEstimated ch s).supervisor = s.supervisor :=
  by unfold markEstimated; (repeat' split) <;> simp
@[simp] theorem markEstimated_exports (ch : Fin 16) : (markEstimated ch s).exports = s.exports :=
  by unfold markEstimated; (repeat' split) <;> simp
@[simp] theorem markEstimated_contracts (ch : Fin 16) : (markEstimated ch s).contracts = s.contracts :=
  by unfold markEstimated; (repeat' split) <;> simp
@[simp] theorem markEstimated_links (ch : Fin 16) : (markEstimated ch s).links = s.links :=
  by unfold markEstimated; (repeat' split) <;> simp
@[simp] theorem markEstimated_lines (ch : Fin 16) : (markEstimated ch s).lines = s.lines :=
  by unfold markEstimated; (repeat' split) <;> simp
@[simp] theorem markEstimated_pending (ch : Fin 16) : (markEstimated ch s).pending = s.pending :=
  by unfold markEstimated; (repeat' split) <;> simp

/-! ## `markContractChanged` -/

@[simp] theorem markContractChanged_power : (markContractChanged s).power = s.power := by simp [markContractChanged]
@[simp] theorem markContractChanged_freeIndex : (markContractChanged s).freeIndex = s.freeIndex :=
  by simp [markContractChanged]
@[simp] theorem markContractChanged_field : (markContractChanged s).field = s.field := by simp [markContractChanged]
@[simp] theorem markContractChanged_metering : (markContractChanged s).metering = s.metering :=
  by simp [markContractChanged]
@[simp] theorem markContractChanged_band : (markContractChanged s).band = s.band := by simp [markContractChanged]
@[simp] theorem markContractChanged_allocator : (markContractChanged s).allocator = s.allocator :=
  by simp [markContractChanged]
@[simp] theorem markContractChanged_supervisor : (markContractChanged s).supervisor = s.supervisor :=
  by simp [markContractChanged]
@[simp] theorem markContractChanged_exports : (markContractChanged s).exports = s.exports :=
  by simp [markContractChanged]
@[simp] theorem markContractChanged_contracts : (markContractChanged s).contracts = s.contracts :=
  by simp [markContractChanged]
@[simp] theorem markContractChanged_links : (markContractChanged s).links = s.links := by simp [markContractChanged]
@[simp] theorem markContractChanged_lines : (markContractChanged s).lines = s.lines := by simp [markContractChanged]
@[simp] theorem markContractChanged_pending : (markContractChanged s).pending = s.pending :=
  by simp [markContractChanged]

/-! ## `markContractDamaged` -/

@[simp] theorem markContractDamaged_power : (markContractDamaged s).power = s.power := by simp [markContractDamaged]
@[simp] theorem markContractDamaged_freeIndex : (markContractDamaged s).freeIndex = s.freeIndex :=
  by simp [markContractDamaged]
@[simp] theorem markContractDamaged_field : (markContractDamaged s).field = s.field := by simp [markContractDamaged]
@[simp] theorem markContractDamaged_metering : (markContractDamaged s).metering = s.metering :=
  by simp [markContractDamaged]
@[simp] theorem markContractDamaged_band : (markContractDamaged s).band = s.band := by simp [markContractDamaged]
@[simp] theorem markContractDamaged_allocator : (markContractDamaged s).allocator = s.allocator :=
  by simp [markContractDamaged]
@[simp] theorem markContractDamaged_supervisor : (markContractDamaged s).supervisor = s.supervisor :=
  by simp [markContractDamaged]
@[simp] theorem markContractDamaged_exports : (markContractDamaged s).exports = s.exports :=
  by simp [markContractDamaged]
@[simp] theorem markContractDamaged_contracts : (markContractDamaged s).contracts = s.contracts :=
  by simp [markContractDamaged]
@[simp] theorem markContractDamaged_links : (markContractDamaged s).links = s.links := by simp [markContractDamaged]
@[simp] theorem markContractDamaged_lines : (markContractDamaged s).lines = s.lines := by simp [markContractDamaged]
@[simp] theorem markContractDamaged_pending : (markContractDamaged s).pending = s.pending :=
  by simp [markContractDamaged]

/-! ## `creditFlare` -/

@[simp] theorem creditFlare_power : (creditFlare s).power = s.power := by simp [creditFlare]
@[simp] theorem creditFlare_freeIndex : (creditFlare s).freeIndex = s.freeIndex := by simp [creditFlare]
@[simp] theorem creditFlare_field : (creditFlare s).field = s.field := by simp [creditFlare]
@[simp] theorem creditFlare_metering : (creditFlare s).metering = s.metering := by simp [creditFlare]
@[simp] theorem creditFlare_band : (creditFlare s).band = s.band := by simp [creditFlare]
@[simp] theorem creditFlare_supervisor : (creditFlare s).supervisor = s.supervisor := by simp [creditFlare]
@[simp] theorem creditFlare_exports : (creditFlare s).exports = s.exports := by simp [creditFlare]
@[simp] theorem creditFlare_contracts : (creditFlare s).contracts = s.contracts := by simp [creditFlare]
@[simp] theorem creditFlare_links : (creditFlare s).links = s.links := by simp [creditFlare]
@[simp] theorem creditFlare_lines : (creditFlare s).lines = s.lines := by simp [creditFlare]
@[simp] theorem creditFlare_pending : (creditFlare s).pending = s.pending := by simp [creditFlare]

/-! ## `setProposalsFrom` -/

@[simp] theorem setProposalsFrom_power (k : Nat) (l : List Proposal) : (setProposalsFrom k l s).power = s.power :=
  by simp [setProposalsFrom]
@[simp] theorem setProposalsFrom_freeIndex (k : Nat) (l : List Proposal) : (setProposalsFrom k l s).freeIndex = s.freeIndex :=
  by simp [setProposalsFrom]
@[simp] theorem setProposalsFrom_field (k : Nat) (l : List Proposal) : (setProposalsFrom k l s).field = s.field :=
  by simp [setProposalsFrom]
@[simp] theorem setProposalsFrom_metering (k : Nat) (l : List Proposal) : (setProposalsFrom k l s).metering = s.metering :=
  by simp [setProposalsFrom]
@[simp] theorem setProposalsFrom_band (k : Nat) (l : List Proposal) : (setProposalsFrom k l s).band = s.band :=
  by simp [setProposalsFrom]
@[simp] theorem setProposalsFrom_allocator (k : Nat) (l : List Proposal) : (setProposalsFrom k l s).allocator = s.allocator :=
  by simp [setProposalsFrom]
@[simp] theorem setProposalsFrom_supervisor (k : Nat) (l : List Proposal) : (setProposalsFrom k l s).supervisor = s.supervisor :=
  by simp [setProposalsFrom]
@[simp] theorem setProposalsFrom_exports (k : Nat) (l : List Proposal) : (setProposalsFrom k l s).exports = s.exports :=
  by simp [setProposalsFrom]
@[simp] theorem setProposalsFrom_settlement (k : Nat) (l : List Proposal) : (setProposalsFrom k l s).settlement = s.settlement :=
  by simp [setProposalsFrom]
@[simp] theorem setProposalsFrom_links (k : Nat) (l : List Proposal) : (setProposalsFrom k l s).links = s.links :=
  by simp [setProposalsFrom]
@[simp] theorem setProposalsFrom_lines (k : Nat) (l : List Proposal) : (setProposalsFrom k l s).lines = s.lines :=
  by simp [setProposalsFrom]
@[simp] theorem setProposalsFrom_pending (k : Nat) (l : List Proposal) : (setProposalsFrom k l s).pending = s.pending :=
  by simp [setProposalsFrom]

/-! ## `setScheduleFrom` -/

@[simp] theorem setScheduleFrom_power (k : Nat) (l : List ScheduleEntry) : (setScheduleFrom k l s).power = s.power :=
  by simp [setScheduleFrom]
@[simp] theorem setScheduleFrom_freeIndex (k : Nat) (l : List ScheduleEntry) : (setScheduleFrom k l s).freeIndex = s.freeIndex :=
  by simp [setScheduleFrom]
@[simp] theorem setScheduleFrom_field (k : Nat) (l : List ScheduleEntry) : (setScheduleFrom k l s).field = s.field :=
  by simp [setScheduleFrom]
@[simp] theorem setScheduleFrom_metering (k : Nat) (l : List ScheduleEntry) : (setScheduleFrom k l s).metering = s.metering :=
  by simp [setScheduleFrom]
@[simp] theorem setScheduleFrom_band (k : Nat) (l : List ScheduleEntry) : (setScheduleFrom k l s).band = s.band :=
  by simp [setScheduleFrom]
@[simp] theorem setScheduleFrom_allocator (k : Nat) (l : List ScheduleEntry) : (setScheduleFrom k l s).allocator = s.allocator :=
  by simp [setScheduleFrom]
@[simp] theorem setScheduleFrom_supervisor (k : Nat) (l : List ScheduleEntry) : (setScheduleFrom k l s).supervisor = s.supervisor :=
  by simp [setScheduleFrom]
@[simp] theorem setScheduleFrom_contracts (k : Nat) (l : List ScheduleEntry) : (setScheduleFrom k l s).contracts = s.contracts :=
  by simp [setScheduleFrom]
@[simp] theorem setScheduleFrom_settlement (k : Nat) (l : List ScheduleEntry) : (setScheduleFrom k l s).settlement = s.settlement :=
  by simp [setScheduleFrom]
@[simp] theorem setScheduleFrom_links (k : Nat) (l : List ScheduleEntry) : (setScheduleFrom k l s).links = s.links :=
  by simp [setScheduleFrom]
@[simp] theorem setScheduleFrom_lines (k : Nat) (l : List ScheduleEntry) : (setScheduleFrom k l s).lines = s.lines :=
  by simp [setScheduleFrom]
@[simp] theorem setScheduleFrom_pending (k : Nat) (l : List ScheduleEntry) : (setScheduleFrom k l s).pending = s.pending :=
  by simp [setScheduleFrom]

/-! ## `setProposals` -/

@[simp] theorem setProposals_power (l : List Proposal) : (setProposals l s).power = s.power := by simp [setProposals]
@[simp] theorem setProposals_freeIndex (l : List Proposal) : (setProposals l s).freeIndex = s.freeIndex :=
  by simp [setProposals]
@[simp] theorem setProposals_field (l : List Proposal) : (setProposals l s).field = s.field := by simp [setProposals]
@[simp] theorem setProposals_metering (l : List Proposal) : (setProposals l s).metering = s.metering :=
  by simp [setProposals]
@[simp] theorem setProposals_band (l : List Proposal) : (setProposals l s).band = s.band := by simp [setProposals]
@[simp] theorem setProposals_allocator (l : List Proposal) : (setProposals l s).allocator = s.allocator :=
  by simp [setProposals]
@[simp] theorem setProposals_supervisor (l : List Proposal) : (setProposals l s).supervisor = s.supervisor :=
  by simp [setProposals]
@[simp] theorem setProposals_exports (l : List Proposal) : (setProposals l s).exports = s.exports :=
  by simp [setProposals]
@[simp] theorem setProposals_settlement (l : List Proposal) : (setProposals l s).settlement = s.settlement :=
  by simp [setProposals]
@[simp] theorem setProposals_links (l : List Proposal) : (setProposals l s).links = s.links := by simp [setProposals]
@[simp] theorem setProposals_lines (l : List Proposal) : (setProposals l s).lines = s.lines := by simp [setProposals]
@[simp] theorem setProposals_pending (l : List Proposal) : (setProposals l s).pending = s.pending :=
  by simp [setProposals]

/-! ## `setSchedule` -/

@[simp] theorem setSchedule_power (l : List ScheduleEntry) : (setSchedule l s).power = s.power :=
  by simp [setSchedule]
@[simp] theorem setSchedule_freeIndex (l : List ScheduleEntry) : (setSchedule l s).freeIndex = s.freeIndex :=
  by simp [setSchedule]
@[simp] theorem setSchedule_field (l : List ScheduleEntry) : (setSchedule l s).field = s.field :=
  by simp [setSchedule]
@[simp] theorem setSchedule_metering (l : List ScheduleEntry) : (setSchedule l s).metering = s.metering :=
  by simp [setSchedule]
@[simp] theorem setSchedule_band (l : List ScheduleEntry) : (setSchedule l s).band = s.band := by simp [setSchedule]
@[simp] theorem setSchedule_allocator (l : List ScheduleEntry) : (setSchedule l s).allocator = s.allocator :=
  by simp [setSchedule]
@[simp] theorem setSchedule_supervisor (l : List ScheduleEntry) : (setSchedule l s).supervisor = s.supervisor :=
  by simp [setSchedule]
@[simp] theorem setSchedule_contracts (l : List ScheduleEntry) : (setSchedule l s).contracts = s.contracts :=
  by simp [setSchedule]
@[simp] theorem setSchedule_settlement (l : List ScheduleEntry) : (setSchedule l s).settlement = s.settlement :=
  by simp [setSchedule]
@[simp] theorem setSchedule_links (l : List ScheduleEntry) : (setSchedule l s).links = s.links :=
  by simp [setSchedule]
@[simp] theorem setSchedule_lines (l : List ScheduleEntry) : (setSchedule l s).lines = s.lines :=
  by simp [setSchedule]
@[simp] theorem setSchedule_pending (l : List ScheduleEntry) : (setSchedule l s).pending = s.pending :=
  by simp [setSchedule]

/-! ## `accumulate` -/

@[simp] theorem accumulate_power (ch : Fin 16) (q : Nat) : (accumulate ch q s).power = s.power := by simp [accumulate]
@[simp] theorem accumulate_freeIndex (ch : Fin 16) (q : Nat) : (accumulate ch q s).freeIndex = s.freeIndex :=
  by simp [accumulate]
@[simp] theorem accumulate_field (ch : Fin 16) (q : Nat) : (accumulate ch q s).field = s.field := by simp [accumulate]
@[simp] theorem accumulate_band (ch : Fin 16) (q : Nat) : (accumulate ch q s).band = s.band := by simp [accumulate]
@[simp] theorem accumulate_allocator (ch : Fin 16) (q : Nat) : (accumulate ch q s).allocator = s.allocator :=
  by simp [accumulate]
@[simp] theorem accumulate_supervisor (ch : Fin 16) (q : Nat) : (accumulate ch q s).supervisor = s.supervisor :=
  by simp [accumulate]
@[simp] theorem accumulate_exports (ch : Fin 16) (q : Nat) : (accumulate ch q s).exports = s.exports :=
  by simp [accumulate]
@[simp] theorem accumulate_contracts (ch : Fin 16) (q : Nat) : (accumulate ch q s).contracts = s.contracts :=
  by simp [accumulate]
@[simp] theorem accumulate_settlement (ch : Fin 16) (q : Nat) : (accumulate ch q s).settlement = s.settlement :=
  by simp [accumulate]
@[simp] theorem accumulate_links (ch : Fin 16) (q : Nat) : (accumulate ch q s).links = s.links := by simp [accumulate]
@[simp] theorem accumulate_lines (ch : Fin 16) (q : Nat) : (accumulate ch q s).lines = s.lines := by simp [accumulate]
@[simp] theorem accumulate_pending (ch : Fin 16) (q : Nat) : (accumulate ch q s).pending = s.pending :=
  by simp [accumulate]

/-! ## `markInputs` -/

@[simp] theorem markInputs_power (ch : Fin 16) : (markInputs ch s).power = s.power :=
  by unfold markInputs; (repeat' split) <;> simp
@[simp] theorem markInputs_freeIndex (ch : Fin 16) : (markInputs ch s).freeIndex = s.freeIndex :=
  by unfold markInputs; (repeat' split) <;> simp
@[simp] theorem markInputs_field (ch : Fin 16) : (markInputs ch s).field = s.field :=
  by unfold markInputs; (repeat' split) <;> simp
@[simp] theorem markInputs_metering (ch : Fin 16) : (markInputs ch s).metering = s.metering :=
  by unfold markInputs; (repeat' split) <;> simp
@[simp] theorem markInputs_band (ch : Fin 16) : (markInputs ch s).band = s.band :=
  by unfold markInputs; (repeat' split) <;> simp
@[simp] theorem markInputs_allocator (ch : Fin 16) : (markInputs ch s).allocator = s.allocator :=
  by unfold markInputs; (repeat' split) <;> simp
@[simp] theorem markInputs_supervisor (ch : Fin 16) : (markInputs ch s).supervisor = s.supervisor :=
  by unfold markInputs; (repeat' split) <;> simp
@[simp] theorem markInputs_exports (ch : Fin 16) : (markInputs ch s).exports = s.exports :=
  by unfold markInputs; (repeat' split) <;> simp
@[simp] theorem markInputs_contracts (ch : Fin 16) : (markInputs ch s).contracts = s.contracts :=
  by unfold markInputs; (repeat' split) <;> simp
@[simp] theorem markInputs_links (ch : Fin 16) : (markInputs ch s).links = s.links :=
  by unfold markInputs; (repeat' split) <;> simp
@[simp] theorem markInputs_lines (ch : Fin 16) : (markInputs ch s).lines = s.lines :=
  by unfold markInputs; (repeat' split) <;> simp
@[simp] theorem markInputs_pending (ch : Fin 16) : (markInputs ch s).pending = s.pending :=
  by unfold markInputs; (repeat' split) <;> simp

/-! ## `countReverse` -/

@[simp] theorem countReverse_power (ch : Fin 16) : (countReverse ch s).power = s.power :=
  by unfold countReverse; (repeat' split) <;> simp
@[simp] theorem countReverse_freeIndex (ch : Fin 16) : (countReverse ch s).freeIndex = s.freeIndex :=
  by unfold countReverse; (repeat' split) <;> simp
@[simp] theorem countReverse_field (ch : Fin 16) : (countReverse ch s).field = s.field :=
  by unfold countReverse; (repeat' split) <;> simp
@[simp] theorem countReverse_metering (ch : Fin 16) : (countReverse ch s).metering = s.metering :=
  by unfold countReverse; (repeat' split) <;> simp
@[simp] theorem countReverse_band (ch : Fin 16) : (countReverse ch s).band = s.band :=
  by unfold countReverse; (repeat' split) <;> simp
@[simp] theorem countReverse_allocator (ch : Fin 16) : (countReverse ch s).allocator = s.allocator :=
  by unfold countReverse; (repeat' split) <;> simp
@[simp] theorem countReverse_supervisor (ch : Fin 16) : (countReverse ch s).supervisor = s.supervisor :=
  by unfold countReverse; (repeat' split) <;> simp
@[simp] theorem countReverse_exports (ch : Fin 16) : (countReverse ch s).exports = s.exports :=
  by unfold countReverse; (repeat' split) <;> simp
@[simp] theorem countReverse_contracts (ch : Fin 16) : (countReverse ch s).contracts = s.contracts :=
  by unfold countReverse; (repeat' split) <;> simp
@[simp] theorem countReverse_links (ch : Fin 16) : (countReverse ch s).links = s.links :=
  by unfold countReverse; (repeat' split) <;> simp
@[simp] theorem countReverse_lines (ch : Fin 16) : (countReverse ch s).lines = s.lines :=
  by unfold countReverse; (repeat' split) <;> simp
@[simp] theorem countReverse_pending (ch : Fin 16) : (countReverse ch s).pending = s.pending :=
  by unfold countReverse; (repeat' split) <;> simp

/-! ## `meterPulse` -/

@[simp] theorem meterPulse_power (ch : Fin 16) : (meterPulse ch s).power = s.power := by simp [meterPulse]
@[simp] theorem meterPulse_freeIndex (ch : Fin 16) : (meterPulse ch s).freeIndex = s.freeIndex := by simp [meterPulse]
@[simp] theorem meterPulse_field (ch : Fin 16) : (meterPulse ch s).field = s.field := by simp [meterPulse]
@[simp] theorem meterPulse_band (ch : Fin 16) : (meterPulse ch s).band = s.band := by simp [meterPulse]
@[simp] theorem meterPulse_allocator (ch : Fin 16) : (meterPulse ch s).allocator = s.allocator := by simp [meterPulse]
@[simp] theorem meterPulse_supervisor (ch : Fin 16) : (meterPulse ch s).supervisor = s.supervisor :=
  by simp [meterPulse]
@[simp] theorem meterPulse_exports (ch : Fin 16) : (meterPulse ch s).exports = s.exports := by simp [meterPulse]
@[simp] theorem meterPulse_contracts (ch : Fin 16) : (meterPulse ch s).contracts = s.contracts := by simp [meterPulse]
@[simp] theorem meterPulse_links (ch : Fin 16) : (meterPulse ch s).links = s.links := by simp [meterPulse]
@[simp] theorem meterPulse_lines (ch : Fin 16) : (meterPulse ch s).lines = s.lines := by simp [meterPulse]
@[simp] theorem meterPulse_pending (ch : Fin 16) : (meterPulse ch s).pending = s.pending := by simp [meterPulse]

/-! ## `evaluateSome` -/

@[simp] theorem evaluateSome_power (c : Option (Fin 8)) : (evaluateSome c s).power = s.power :=
  by unfold evaluateSome; (repeat' split) <;> simp
@[simp] theorem evaluateSome_freeIndex (c : Option (Fin 8)) : (evaluateSome c s).freeIndex = s.freeIndex :=
  by unfold evaluateSome; (repeat' split) <;> simp
@[simp] theorem evaluateSome_field (c : Option (Fin 8)) : (evaluateSome c s).field = s.field :=
  by unfold evaluateSome; (repeat' split) <;> simp
@[simp] theorem evaluateSome_metering (c : Option (Fin 8)) : (evaluateSome c s).metering = s.metering :=
  by unfold evaluateSome; (repeat' split) <;> simp
@[simp] theorem evaluateSome_band (c : Option (Fin 8)) : (evaluateSome c s).band = s.band :=
  by unfold evaluateSome; (repeat' split) <;> simp
@[simp] theorem evaluateSome_allocator (c : Option (Fin 8)) : (evaluateSome c s).allocator = s.allocator :=
  by unfold evaluateSome; (repeat' split) <;> simp
@[simp] theorem evaluateSome_exports (c : Option (Fin 8)) : (evaluateSome c s).exports = s.exports :=
  by unfold evaluateSome; (repeat' split) <;> simp
@[simp] theorem evaluateSome_contracts (c : Option (Fin 8)) : (evaluateSome c s).contracts = s.contracts :=
  by unfold evaluateSome; (repeat' split) <;> simp
@[simp] theorem evaluateSome_settlement (c : Option (Fin 8)) : (evaluateSome c s).settlement = s.settlement :=
  by unfold evaluateSome; (repeat' split) <;> simp
@[simp] theorem evaluateSome_store (c : Option (Fin 8)) : (evaluateSome c s).store = s.store :=
  by unfold evaluateSome; (repeat' split) <;> simp
@[simp] theorem evaluateSome_links (c : Option (Fin 8)) : (evaluateSome c s).links = s.links :=
  by unfold evaluateSome; (repeat' split) <;> simp
@[simp] theorem evaluateSome_lines (c : Option (Fin 8)) : (evaluateSome c s).lines = s.lines :=
  by unfold evaluateSome; (repeat' split) <;> simp
@[simp] theorem evaluateSome_pending (c : Option (Fin 8)) : (evaluateSome c s).pending = s.pending :=
  by unfold evaluateSome; (repeat' split) <;> simp

/-! ## `noticeGrant` -/

@[simp] theorem noticeGrant_power (c : Fin 8) (kw : Nat) : (noticeGrant c kw s).power = s.power :=
  by simp [noticeGrant]
@[simp] theorem noticeGrant_freeIndex (c : Fin 8) (kw : Nat) : (noticeGrant c kw s).freeIndex = s.freeIndex :=
  by simp [noticeGrant]
@[simp] theorem noticeGrant_field (c : Fin 8) (kw : Nat) : (noticeGrant c kw s).field = s.field :=
  by simp [noticeGrant]
@[simp] theorem noticeGrant_metering (c : Fin 8) (kw : Nat) : (noticeGrant c kw s).metering = s.metering :=
  by simp [noticeGrant]
@[simp] theorem noticeGrant_band (c : Fin 8) (kw : Nat) : (noticeGrant c kw s).band = s.band := by simp [noticeGrant]
@[simp] theorem noticeGrant_allocator (c : Fin 8) (kw : Nat) : (noticeGrant c kw s).allocator = s.allocator :=
  by simp [noticeGrant]
@[simp] theorem noticeGrant_supervisor (c : Fin 8) (kw : Nat) : (noticeGrant c kw s).supervisor = s.supervisor :=
  by simp [noticeGrant]
@[simp] theorem noticeGrant_exports (c : Fin 8) (kw : Nat) : (noticeGrant c kw s).exports = s.exports :=
  by simp [noticeGrant]
@[simp] theorem noticeGrant_contracts (c : Fin 8) (kw : Nat) : (noticeGrant c kw s).contracts = s.contracts :=
  by simp [noticeGrant]
@[simp] theorem noticeGrant_settlement (c : Fin 8) (kw : Nat) : (noticeGrant c kw s).settlement = s.settlement :=
  by simp [noticeGrant]
@[simp] theorem noticeGrant_store (c : Fin 8) (kw : Nat) : (noticeGrant c kw s).store = s.store :=
  by simp [noticeGrant]
@[simp] theorem noticeGrant_pending (c : Fin 8) (kw : Nat) : (noticeGrant c kw s).pending = s.pending :=
  by simp [noticeGrant]

/-! ## `lowerGrant` -/

@[simp] theorem lowerGrant_power (c : Fin 8) (kw : Nat) : (lowerGrant c kw s).power = s.power :=
  by unfold lowerGrant; (repeat' split) <;> simp
@[simp] theorem lowerGrant_freeIndex (c : Fin 8) (kw : Nat) : (lowerGrant c kw s).freeIndex = s.freeIndex :=
  by unfold lowerGrant; (repeat' split) <;> simp
@[simp] theorem lowerGrant_field (c : Fin 8) (kw : Nat) : (lowerGrant c kw s).field = s.field :=
  by unfold lowerGrant; (repeat' split) <;> simp
@[simp] theorem lowerGrant_metering (c : Fin 8) (kw : Nat) : (lowerGrant c kw s).metering = s.metering :=
  by unfold lowerGrant; (repeat' split) <;> simp
@[simp] theorem lowerGrant_band (c : Fin 8) (kw : Nat) : (lowerGrant c kw s).band = s.band :=
  by unfold lowerGrant; (repeat' split) <;> simp
@[simp] theorem lowerGrant_supervisor (c : Fin 8) (kw : Nat) : (lowerGrant c kw s).supervisor = s.supervisor :=
  by unfold lowerGrant; (repeat' split) <;> simp
@[simp] theorem lowerGrant_exports (c : Fin 8) (kw : Nat) : (lowerGrant c kw s).exports = s.exports :=
  by unfold lowerGrant; (repeat' split) <;> simp
@[simp] theorem lowerGrant_contracts (c : Fin 8) (kw : Nat) : (lowerGrant c kw s).contracts = s.contracts :=
  by unfold lowerGrant; (repeat' split) <;> simp
@[simp] theorem lowerGrant_settlement (c : Fin 8) (kw : Nat) : (lowerGrant c kw s).settlement = s.settlement :=
  by unfold lowerGrant; (repeat' split) <;> simp
@[simp] theorem lowerGrant_store (c : Fin 8) (kw : Nat) : (lowerGrant c kw s).store = s.store :=
  by unfold lowerGrant; (repeat' split) <;> simp
@[simp] theorem lowerGrant_pending (c : Fin 8) (kw : Nat) : (lowerGrant c kw s).pending = s.pending :=
  by unfold lowerGrant; (repeat' split) <;> simp

/-! ## `releaseGrant` -/

@[simp] theorem releaseGrant_power (c : Fin 8) : (releaseGrant c s).power = s.power := by simp [releaseGrant]
@[simp] theorem releaseGrant_freeIndex (c : Fin 8) : (releaseGrant c s).freeIndex = s.freeIndex :=
  by simp [releaseGrant]
@[simp] theorem releaseGrant_field (c : Fin 8) : (releaseGrant c s).field = s.field := by simp [releaseGrant]
@[simp] theorem releaseGrant_metering (c : Fin 8) : (releaseGrant c s).metering = s.metering := by simp [releaseGrant]
@[simp] theorem releaseGrant_band (c : Fin 8) : (releaseGrant c s).band = s.band := by simp [releaseGrant]
@[simp] theorem releaseGrant_supervisor (c : Fin 8) : (releaseGrant c s).supervisor = s.supervisor :=
  by simp [releaseGrant]
@[simp] theorem releaseGrant_exports (c : Fin 8) : (releaseGrant c s).exports = s.exports := by simp [releaseGrant]
@[simp] theorem releaseGrant_contracts (c : Fin 8) : (releaseGrant c s).contracts = s.contracts :=
  by simp [releaseGrant]
@[simp] theorem releaseGrant_settlement (c : Fin 8) : (releaseGrant c s).settlement = s.settlement :=
  by simp [releaseGrant]
@[simp] theorem releaseGrant_store (c : Fin 8) : (releaseGrant c s).store = s.store := by simp [releaseGrant]
@[simp] theorem releaseGrant_pending (c : Fin 8) : (releaseGrant c s).pending = s.pending := by simp [releaseGrant]

/-! ## `cutGrant` -/

@[simp] theorem cutGrant_power (c : Fin 8) : (cutGrant c s).power = s.power :=
  by unfold cutGrant; (repeat' split) <;> simp
@[simp] theorem cutGrant_freeIndex (c : Fin 8) : (cutGrant c s).freeIndex = s.freeIndex :=
  by unfold cutGrant; (repeat' split) <;> simp
@[simp] theorem cutGrant_field (c : Fin 8) : (cutGrant c s).field = s.field :=
  by unfold cutGrant; (repeat' split) <;> simp
@[simp] theorem cutGrant_metering (c : Fin 8) : (cutGrant c s).metering = s.metering :=
  by unfold cutGrant; (repeat' split) <;> simp
@[simp] theorem cutGrant_band (c : Fin 8) : (cutGrant c s).band = s.band :=
  by unfold cutGrant; (repeat' split) <;> simp
@[simp] theorem cutGrant_exports (c : Fin 8) : (cutGrant c s).exports = s.exports :=
  by unfold cutGrant; (repeat' split) <;> simp
@[simp] theorem cutGrant_contracts (c : Fin 8) : (cutGrant c s).contracts = s.contracts :=
  by unfold cutGrant; (repeat' split) <;> simp
@[simp] theorem cutGrant_settlement (c : Fin 8) : (cutGrant c s).settlement = s.settlement :=
  by unfold cutGrant; (repeat' split) <;> simp
@[simp] theorem cutGrant_store (c : Fin 8) : (cutGrant c s).store = s.store :=
  by unfold cutGrant; (repeat' split) <;> simp
@[simp] theorem cutGrant_pending (c : Fin 8) : (cutGrant c s).pending = s.pending :=
  by unfold cutGrant; (repeat' split) <;> simp

/-! ## `cutLinked` -/

@[simp] theorem cutLinked_power : (cutLinked s).power = s.power :=
  by unfold cutLinked; exact foldl_keeps State.power _ (fun _ _ => by split <;> simp) _ _
@[simp] theorem cutLinked_freeIndex : (cutLinked s).freeIndex = s.freeIndex :=
  by unfold cutLinked; exact foldl_keeps State.freeIndex _ (fun _ _ => by split <;> simp) _ _
@[simp] theorem cutLinked_field : (cutLinked s).field = s.field :=
  by unfold cutLinked; exact foldl_keeps State.field _ (fun _ _ => by split <;> simp) _ _
@[simp] theorem cutLinked_metering : (cutLinked s).metering = s.metering :=
  by unfold cutLinked; exact foldl_keeps State.metering _ (fun _ _ => by split <;> simp) _ _
@[simp] theorem cutLinked_band : (cutLinked s).band = s.band :=
  by unfold cutLinked; exact foldl_keeps State.band _ (fun _ _ => by split <;> simp) _ _
@[simp] theorem cutLinked_exports : (cutLinked s).exports = s.exports :=
  by unfold cutLinked; exact foldl_keeps State.exports _ (fun _ _ => by split <;> simp) _ _
@[simp] theorem cutLinked_contracts : (cutLinked s).contracts = s.contracts :=
  by unfold cutLinked; exact foldl_keeps State.contracts _ (fun _ _ => by split <;> simp) _ _
@[simp] theorem cutLinked_settlement : (cutLinked s).settlement = s.settlement :=
  by unfold cutLinked; exact foldl_keeps State.settlement _ (fun _ _ => by split <;> simp) _ _
@[simp] theorem cutLinked_store : (cutLinked s).store = s.store :=
  by unfold cutLinked; exact foldl_keeps State.store _ (fun _ _ => by split <;> simp) _ _
@[simp] theorem cutLinked_pending : (cutLinked s).pending = s.pending :=
  by unfold cutLinked; exact foldl_keeps State.pending _ (fun _ _ => by split <;> simp) _ _

/-! ## `startRecovery` -/

@[simp] theorem startRecovery_power (c : Fin 8) : (startRecovery c s).power = s.power :=
  by unfold startRecovery; (repeat' split) <;> simp
@[simp] theorem startRecovery_freeIndex (c : Fin 8) : (startRecovery c s).freeIndex = s.freeIndex :=
  by unfold startRecovery; (repeat' split) <;> simp
@[simp] theorem startRecovery_field (c : Fin 8) : (startRecovery c s).field = s.field :=
  by unfold startRecovery; (repeat' split) <;> simp
@[simp] theorem startRecovery_metering (c : Fin 8) : (startRecovery c s).metering = s.metering :=
  by unfold startRecovery; (repeat' split) <;> simp
@[simp] theorem startRecovery_band (c : Fin 8) : (startRecovery c s).band = s.band :=
  by unfold startRecovery; (repeat' split) <;> simp
@[simp] theorem startRecovery_allocator (c : Fin 8) : (startRecovery c s).allocator = s.allocator :=
  by unfold startRecovery; (repeat' split) <;> simp
@[simp] theorem startRecovery_exports (c : Fin 8) : (startRecovery c s).exports = s.exports :=
  by unfold startRecovery; (repeat' split) <;> simp
@[simp] theorem startRecovery_contracts (c : Fin 8) : (startRecovery c s).contracts = s.contracts :=
  by unfold startRecovery; (repeat' split) <;> simp
@[simp] theorem startRecovery_settlement (c : Fin 8) : (startRecovery c s).settlement = s.settlement :=
  by unfold startRecovery; (repeat' split) <;> simp
@[simp] theorem startRecovery_store (c : Fin 8) : (startRecovery c s).store = s.store :=
  by unfold startRecovery; (repeat' split) <;> simp
@[simp] theorem startRecovery_links (c : Fin 8) : (startRecovery c s).links = s.links :=
  by unfold startRecovery; (repeat' split) <;> simp
@[simp] theorem startRecovery_lines (c : Fin 8) : (startRecovery c s).lines = s.lines :=
  by unfold startRecovery; (repeat' split) <;> simp
@[simp] theorem startRecovery_pending (c : Fin 8) : (startRecovery c s).pending = s.pending :=
  by unfold startRecovery; (repeat' split) <;> simp

/-! ## `releaseForTrip` -/

@[simp] theorem releaseForTrip_power (c : Fin 8) : (releaseForTrip c s).power = s.power :=
  by unfold releaseForTrip; (repeat' split) <;> simp
@[simp] theorem releaseForTrip_freeIndex (c : Fin 8) : (releaseForTrip c s).freeIndex = s.freeIndex :=
  by unfold releaseForTrip; (repeat' split) <;> simp
@[simp] theorem releaseForTrip_field (c : Fin 8) : (releaseForTrip c s).field = s.field :=
  by unfold releaseForTrip; (repeat' split) <;> simp
@[simp] theorem releaseForTrip_metering (c : Fin 8) : (releaseForTrip c s).metering = s.metering :=
  by unfold releaseForTrip; (repeat' split) <;> simp
@[simp] theorem releaseForTrip_band (c : Fin 8) : (releaseForTrip c s).band = s.band :=
  by unfold releaseForTrip; (repeat' split) <;> simp
@[simp] theorem releaseForTrip_supervisor (c : Fin 8) : (releaseForTrip c s).supervisor = s.supervisor :=
  by unfold releaseForTrip; (repeat' split) <;> simp
@[simp] theorem releaseForTrip_exports (c : Fin 8) : (releaseForTrip c s).exports = s.exports :=
  by unfold releaseForTrip; (repeat' split) <;> simp
@[simp] theorem releaseForTrip_contracts (c : Fin 8) : (releaseForTrip c s).contracts = s.contracts :=
  by unfold releaseForTrip; (repeat' split) <;> simp
@[simp] theorem releaseForTrip_settlement (c : Fin 8) : (releaseForTrip c s).settlement = s.settlement :=
  by unfold releaseForTrip; (repeat' split) <;> simp
@[simp] theorem releaseForTrip_store (c : Fin 8) : (releaseForTrip c s).store = s.store :=
  by unfold releaseForTrip; (repeat' split) <;> simp
@[simp] theorem releaseForTrip_pending (c : Fin 8) : (releaseForTrip c s).pending = s.pending :=
  by unfold releaseForTrip; (repeat' split) <;> simp

/-! ## `noticeTrip` -/

@[simp] theorem noticeTrip_power (c : Fin 8) : (noticeTrip c s).power = s.power := by simp [noticeTrip]
@[simp] theorem noticeTrip_freeIndex (c : Fin 8) : (noticeTrip c s).freeIndex = s.freeIndex := by simp [noticeTrip]
@[simp] theorem noticeTrip_field (c : Fin 8) : (noticeTrip c s).field = s.field := by simp [noticeTrip]
@[simp] theorem noticeTrip_metering (c : Fin 8) : (noticeTrip c s).metering = s.metering := by simp [noticeTrip]
@[simp] theorem noticeTrip_band (c : Fin 8) : (noticeTrip c s).band = s.band := by simp [noticeTrip]
@[simp] theorem noticeTrip_allocator (c : Fin 8) : (noticeTrip c s).allocator = s.allocator := by simp [noticeTrip]
@[simp] theorem noticeTrip_supervisor (c : Fin 8) : (noticeTrip c s).supervisor = s.supervisor := by simp [noticeTrip]
@[simp] theorem noticeTrip_exports (c : Fin 8) : (noticeTrip c s).exports = s.exports := by simp [noticeTrip]
@[simp] theorem noticeTrip_contracts (c : Fin 8) : (noticeTrip c s).contracts = s.contracts := by simp [noticeTrip]
@[simp] theorem noticeTrip_settlement (c : Fin 8) : (noticeTrip c s).settlement = s.settlement := by simp [noticeTrip]
@[simp] theorem noticeTrip_store (c : Fin 8) : (noticeTrip c s).store = s.store := by simp [noticeTrip]
@[simp] theorem noticeTrip_pending (c : Fin 8) : (noticeTrip c s).pending = s.pending := by simp [noticeTrip]

/-! ## `tripBody` -/

@[simp] theorem tripBody_power (c : Fin 8) (cause : Cause) : (tripBody c cause s).power = s.power := by
  unfold tripBody
  extract_lets s'
  have h : s'.power = s.power := by simp [s']
  split
  · exact h
  · simp [h]
@[simp] theorem tripBody_freeIndex (c : Fin 8) (cause : Cause) : (tripBody c cause s).freeIndex = s.freeIndex := by
  unfold tripBody
  extract_lets s'
  have h : s'.freeIndex = s.freeIndex := by simp [s']
  split
  · exact h
  · simp [h]
@[simp] theorem tripBody_field (c : Fin 8) (cause : Cause) : (tripBody c cause s).field = s.field := by
  unfold tripBody
  extract_lets s'
  have h : s'.field = s.field := by simp [s']
  split
  · exact h
  · simp [h]
@[simp] theorem tripBody_metering (c : Fin 8) (cause : Cause) : (tripBody c cause s).metering = s.metering := by
  unfold tripBody
  extract_lets s'
  have h : s'.metering = s.metering := by simp [s']
  split
  · exact h
  · simp [h]
@[simp] theorem tripBody_band (c : Fin 8) (cause : Cause) : (tripBody c cause s).band = s.band := by
  unfold tripBody
  extract_lets s'
  have h : s'.band = s.band := by simp [s']
  split
  · exact h
  · simp [h]
@[simp] theorem tripBody_exports (c : Fin 8) (cause : Cause) : (tripBody c cause s).exports = s.exports := by
  unfold tripBody
  extract_lets s'
  have h : s'.exports = s.exports := by simp [s']
  split
  · exact h
  · simp [h]
@[simp] theorem tripBody_contracts (c : Fin 8) (cause : Cause) : (tripBody c cause s).contracts = s.contracts := by
  unfold tripBody
  extract_lets s'
  have h : s'.contracts = s.contracts := by simp [s']
  split
  · exact h
  · simp [h]
@[simp] theorem tripBody_settlement (c : Fin 8) (cause : Cause) : (tripBody c cause s).settlement = s.settlement := by
  unfold tripBody
  extract_lets s'
  have h : s'.settlement = s.settlement := by simp [s']
  split
  · exact h
  · simp [h]
@[simp] theorem tripBody_store (c : Fin 8) (cause : Cause) : (tripBody c cause s).store = s.store := by
  unfold tripBody
  extract_lets s'
  have h : s'.store = s.store := by simp [s']
  split
  · exact h
  · simp [h]
@[simp] theorem tripBody_pending (c : Fin 8) (cause : Cause) : (tripBody c cause s).pending = s.pending := by
  unfold tripBody
  extract_lets s'
  have h : s'.pending = s.pending := by simp [s']
  split
  · exact h
  · simp [h]

/-! ## `trip` -/

@[simp] theorem trip_power (c : Fin 8) (cause : Cause) : (trip c cause s).power = s.power :=
  by unfold trip; (repeat' split) <;> simp
@[simp] theorem trip_freeIndex (c : Fin 8) (cause : Cause) : (trip c cause s).freeIndex = s.freeIndex :=
  by unfold trip; (repeat' split) <;> simp
@[simp] theorem trip_field (c : Fin 8) (cause : Cause) : (trip c cause s).field = s.field :=
  by unfold trip; (repeat' split) <;> simp
@[simp] theorem trip_metering (c : Fin 8) (cause : Cause) : (trip c cause s).metering = s.metering :=
  by unfold trip; (repeat' split) <;> simp
@[simp] theorem trip_band (c : Fin 8) (cause : Cause) : (trip c cause s).band = s.band :=
  by unfold trip; (repeat' split) <;> simp
@[simp] theorem trip_exports (c : Fin 8) (cause : Cause) : (trip c cause s).exports = s.exports :=
  by unfold trip; (repeat' split) <;> simp
@[simp] theorem trip_contracts (c : Fin 8) (cause : Cause) : (trip c cause s).contracts = s.contracts :=
  by unfold trip; (repeat' split) <;> simp
@[simp] theorem trip_settlement (c : Fin 8) (cause : Cause) : (trip c cause s).settlement = s.settlement :=
  by unfold trip; (repeat' split) <;> simp
@[simp] theorem trip_store (c : Fin 8) (cause : Cause) : (trip c cause s).store = s.store :=
  by unfold trip; (repeat' split) <;> simp
@[simp] theorem trip_pending (c : Fin 8) (cause : Cause) : (trip c cause s).pending = s.pending :=
  by unfold trip; (repeat' split) <;> simp

/-! ## `expireFlow` -/

@[simp] theorem expireFlow_power (ch : Fin 16) : (expireFlow ch s).power = s.power := by simp [expireFlow]
@[simp] theorem expireFlow_freeIndex (ch : Fin 16) : (expireFlow ch s).freeIndex = s.freeIndex := by simp [expireFlow]
@[simp] theorem expireFlow_metering (ch : Fin 16) : (expireFlow ch s).metering = s.metering := by simp [expireFlow]
@[simp] theorem expireFlow_band (ch : Fin 16) : (expireFlow ch s).band = s.band := by simp [expireFlow]
@[simp] theorem expireFlow_allocator (ch : Fin 16) : (expireFlow ch s).allocator = s.allocator := by simp [expireFlow]
@[simp] theorem expireFlow_exports (ch : Fin 16) : (expireFlow ch s).exports = s.exports := by simp [expireFlow]
@[simp] theorem expireFlow_contracts (ch : Fin 16) : (expireFlow ch s).contracts = s.contracts := by simp [expireFlow]
@[simp] theorem expireFlow_settlement (ch : Fin 16) : (expireFlow ch s).settlement = s.settlement :=
  by simp [expireFlow]
@[simp] theorem expireFlow_store (ch : Fin 16) : (expireFlow ch s).store = s.store := by simp [expireFlow]
@[simp] theorem expireFlow_links (ch : Fin 16) : (expireFlow ch s).links = s.links := by simp [expireFlow]
@[simp] theorem expireFlow_lines (ch : Fin 16) : (expireFlow ch s).lines = s.lines := by simp [expireFlow]
@[simp] theorem expireFlow_pending (ch : Fin 16) : (expireFlow ch s).pending = s.pending := by simp [expireFlow]

/-! ## `zeroFlowItemChanged` -/

@[simp] theorem zeroFlowItemChanged_power (i : Item) : (zeroFlowItemChanged i s).power = s.power :=
  by unfold zeroFlowItemChanged; (repeat' split) <;> simp
@[simp] theorem zeroFlowItemChanged_freeIndex (i : Item) : (zeroFlowItemChanged i s).freeIndex = s.freeIndex :=
  by unfold zeroFlowItemChanged; (repeat' split) <;> simp
@[simp] theorem zeroFlowItemChanged_metering (i : Item) : (zeroFlowItemChanged i s).metering = s.metering :=
  by unfold zeroFlowItemChanged; (repeat' split) <;> simp
@[simp] theorem zeroFlowItemChanged_band (i : Item) : (zeroFlowItemChanged i s).band = s.band :=
  by unfold zeroFlowItemChanged; (repeat' split) <;> simp
@[simp] theorem zeroFlowItemChanged_allocator (i : Item) : (zeroFlowItemChanged i s).allocator = s.allocator :=
  by unfold zeroFlowItemChanged; (repeat' split) <;> simp
@[simp] theorem zeroFlowItemChanged_exports (i : Item) : (zeroFlowItemChanged i s).exports = s.exports :=
  by unfold zeroFlowItemChanged; (repeat' split) <;> simp
@[simp] theorem zeroFlowItemChanged_contracts (i : Item) : (zeroFlowItemChanged i s).contracts = s.contracts :=
  by unfold zeroFlowItemChanged; (repeat' split) <;> simp
@[simp] theorem zeroFlowItemChanged_settlement (i : Item) : (zeroFlowItemChanged i s).settlement = s.settlement :=
  by unfold zeroFlowItemChanged; (repeat' split) <;> simp
@[simp] theorem zeroFlowItemChanged_store (i : Item) : (zeroFlowItemChanged i s).store = s.store :=
  by unfold zeroFlowItemChanged; (repeat' split) <;> simp
@[simp] theorem zeroFlowItemChanged_links (i : Item) : (zeroFlowItemChanged i s).links = s.links :=
  by unfold zeroFlowItemChanged; (repeat' split) <;> simp
@[simp] theorem zeroFlowItemChanged_lines (i : Item) : (zeroFlowItemChanged i s).lines = s.lines :=
  by unfold zeroFlowItemChanged; (repeat' split) <;> simp
@[simp] theorem zeroFlowItemChanged_pending (i : Item) : (zeroFlowItemChanged i s).pending = s.pending :=
  by unfold zeroFlowItemChanged; (repeat' split) <;> simp

/-! ## `consumerItemChanged` -/

@[simp] theorem consumerItemChanged_power (c : Fin 8) (k : Fin 23) : (consumerItemChanged c k s).power = s.power := by
  unfold consumerItemChanged
  extract_lets a r b
  have ha : a.power = s.power := by unfold a; split <;> simp
  have hb : b.power = a.power := by unfold b; (repeat' split) <;> simp
  simp [hb, ha]
@[simp] theorem consumerItemChanged_freeIndex (c : Fin 8) (k : Fin 23) : (consumerItemChanged c k s).freeIndex = s.freeIndex :=
  by
  unfold consumerItemChanged
  extract_lets a r b
  have ha : a.freeIndex = s.freeIndex := by unfold a; split <;> simp
  have hb : b.freeIndex = a.freeIndex := by unfold b; (repeat' split) <;> simp
  simp [hb, ha]
@[simp] theorem consumerItemChanged_field (c : Fin 8) (k : Fin 23) : (consumerItemChanged c k s).field = s.field := by
  unfold consumerItemChanged
  extract_lets a r b
  have ha : a.field = s.field := by unfold a; split <;> simp
  have hb : b.field = a.field := by unfold b; (repeat' split) <;> simp
  simp [hb, ha]
@[simp] theorem consumerItemChanged_metering (c : Fin 8) (k : Fin 23) : (consumerItemChanged c k s).metering = s.metering :=
  by
  unfold consumerItemChanged
  extract_lets a r b
  have ha : a.metering = s.metering := by unfold a; split <;> simp
  have hb : b.metering = a.metering := by unfold b; (repeat' split) <;> simp
  simp [hb, ha]
@[simp] theorem consumerItemChanged_band (c : Fin 8) (k : Fin 23) : (consumerItemChanged c k s).band = s.band := by
  unfold consumerItemChanged
  extract_lets a r b
  have ha : a.band = s.band := by unfold a; split <;> simp
  have hb : b.band = a.band := by unfold b; (repeat' split) <;> simp
  simp [hb, ha]
@[simp] theorem consumerItemChanged_exports (c : Fin 8) (k : Fin 23) : (consumerItemChanged c k s).exports = s.exports :=
  by
  unfold consumerItemChanged
  extract_lets a r b
  have ha : a.exports = s.exports := by unfold a; split <;> simp
  have hb : b.exports = a.exports := by unfold b; (repeat' split) <;> simp
  simp [hb, ha]
@[simp] theorem consumerItemChanged_contracts (c : Fin 8) (k : Fin 23) : (consumerItemChanged c k s).contracts = s.contracts :=
  by
  unfold consumerItemChanged
  extract_lets a r b
  have ha : a.contracts = s.contracts := by unfold a; split <;> simp
  have hb : b.contracts = a.contracts := by unfold b; (repeat' split) <;> simp
  simp [hb, ha]
@[simp] theorem consumerItemChanged_settlement (c : Fin 8) (k : Fin 23) : (consumerItemChanged c k s).settlement = s.settlement :=
  by
  unfold consumerItemChanged
  extract_lets a r b
  have ha : a.settlement = s.settlement := by unfold a; split <;> simp
  have hb : b.settlement = a.settlement := by unfold b; (repeat' split) <;> simp
  simp [hb, ha]
@[simp] theorem consumerItemChanged_store (c : Fin 8) (k : Fin 23) : (consumerItemChanged c k s).store = s.store := by
  unfold consumerItemChanged
  extract_lets a r b
  have ha : a.store = s.store := by unfold a; split <;> simp
  have hb : b.store = a.store := by unfold b; (repeat' split) <;> simp
  simp [hb, ha]
@[simp] theorem consumerItemChanged_pending (c : Fin 8) (k : Fin 23) : (consumerItemChanged c k s).pending = s.pending :=
  by
  unfold consumerItemChanged
  extract_lets a r b
  have ha : a.pending = s.pending := by unfold a; split <;> simp
  have hb : b.pending = a.pending := by unfold b; (repeat' split) <;> simp
  simp [hb, ha]

/-! ## `itemChanged` -/

@[simp] theorem itemChanged_power (i : Item) : (itemChanged i s).power = s.power := by
  unfold itemChanged
  extract_lets a
  have ha : a.power = s.power := by simp [a]
  (repeat' split) <;> simp [ha]
@[simp] theorem itemChanged_freeIndex (i : Item) : (itemChanged i s).freeIndex = s.freeIndex := by
  unfold itemChanged
  extract_lets a
  have ha : a.freeIndex = s.freeIndex := by simp [a]
  (repeat' split) <;> simp [ha]
@[simp] theorem itemChanged_metering (i : Item) : (itemChanged i s).metering = s.metering := by
  unfold itemChanged
  extract_lets a
  have ha : a.metering = s.metering := by simp [a]
  (repeat' split) <;> simp [ha]
@[simp] theorem itemChanged_band (i : Item) : (itemChanged i s).band = s.band := by
  unfold itemChanged
  extract_lets a
  have ha : a.band = s.band := by simp [a]
  (repeat' split) <;> simp [ha]
@[simp] theorem itemChanged_exports (i : Item) : (itemChanged i s).exports = s.exports := by
  unfold itemChanged
  extract_lets a
  have ha : a.exports = s.exports := by simp [a]
  (repeat' split) <;> simp [ha]
@[simp] theorem itemChanged_contracts (i : Item) : (itemChanged i s).contracts = s.contracts := by
  unfold itemChanged
  extract_lets a
  have ha : a.contracts = s.contracts := by simp [a]
  (repeat' split) <;> simp [ha]
@[simp] theorem itemChanged_settlement (i : Item) : (itemChanged i s).settlement = s.settlement := by
  unfold itemChanged
  extract_lets a
  have ha : a.settlement = s.settlement := by simp [a]
  (repeat' split) <;> simp [ha]
@[simp] theorem itemChanged_store (i : Item) : (itemChanged i s).store = s.store := by
  unfold itemChanged
  extract_lets a
  have ha : a.store = s.store := by simp [a]
  (repeat' split) <;> simp [ha]
@[simp] theorem itemChanged_pending (i : Item) : (itemChanged i s).pending = s.pending := by
  unfold itemChanged
  extract_lets a
  have ha : a.pending = s.pending := by simp [a]
  (repeat' split) <;> simp [ha]

/-! ## `putInForce` -/

@[simp] theorem putInForce_power (l : List (Item × Int)) : (putInForce l s).power = s.power := by
  unfold putInForce
  rw [foldl_keeps State.power _ (fun _ _ => by simp), foldl_keeps State.power _ (fun _ _ => by simp)]
@[simp] theorem putInForce_freeIndex (l : List (Item × Int)) : (putInForce l s).freeIndex = s.freeIndex := by
  unfold putInForce
  rw [foldl_keeps State.freeIndex _ (fun _ _ => by simp), foldl_keeps State.freeIndex _ (fun _ _ => by simp)]
@[simp] theorem putInForce_metering (l : List (Item × Int)) : (putInForce l s).metering = s.metering := by
  unfold putInForce
  rw [foldl_keeps State.metering _ (fun _ _ => by simp), foldl_keeps State.metering _ (fun _ _ => by simp)]
@[simp] theorem putInForce_band (l : List (Item × Int)) : (putInForce l s).band = s.band := by
  unfold putInForce
  rw [foldl_keeps State.band _ (fun _ _ => by simp), foldl_keeps State.band _ (fun _ _ => by simp)]
@[simp] theorem putInForce_exports (l : List (Item × Int)) : (putInForce l s).exports = s.exports := by
  unfold putInForce
  rw [foldl_keeps State.exports _ (fun _ _ => by simp), foldl_keeps State.exports _ (fun _ _ => by simp)]
@[simp] theorem putInForce_settlement (l : List (Item × Int)) : (putInForce l s).settlement = s.settlement := by
  unfold putInForce
  rw [foldl_keeps State.settlement _ (fun _ _ => by simp), foldl_keeps State.settlement _ (fun _ _ => by simp)]
@[simp] theorem putInForce_pending (l : List (Item × Int)) : (putInForce l s).pending = s.pending := by
  unfold putInForce
  rw [foldl_keeps State.pending _ (fun _ _ => by simp), foldl_keeps State.pending _ (fun _ _ => by simp)]

/-! ## `clearDamageMarks` -/

@[simp] theorem clearDamageMarks_power (l : List (Item × Int)) : (clearDamageMarks l s).power = s.power :=
  by unfold clearDamageMarks; exact foldl_keeps State.power _ (fun _ _ => by split <;> simp) _ _
@[simp] theorem clearDamageMarks_freeIndex (l : List (Item × Int)) : (clearDamageMarks l s).freeIndex = s.freeIndex :=
  by unfold clearDamageMarks; exact foldl_keeps State.freeIndex _ (fun _ _ => by split <;> simp) _ _
@[simp] theorem clearDamageMarks_field (l : List (Item × Int)) : (clearDamageMarks l s).field = s.field :=
  by unfold clearDamageMarks; exact foldl_keeps State.field _ (fun _ _ => by split <;> simp) _ _
@[simp] theorem clearDamageMarks_metering (l : List (Item × Int)) : (clearDamageMarks l s).metering = s.metering :=
  by unfold clearDamageMarks; exact foldl_keeps State.metering _ (fun _ _ => by split <;> simp) _ _
@[simp] theorem clearDamageMarks_band (l : List (Item × Int)) : (clearDamageMarks l s).band = s.band :=
  by unfold clearDamageMarks; exact foldl_keeps State.band _ (fun _ _ => by split <;> simp) _ _
@[simp] theorem clearDamageMarks_allocator (l : List (Item × Int)) : (clearDamageMarks l s).allocator = s.allocator :=
  by unfold clearDamageMarks; exact foldl_keeps State.allocator _ (fun _ _ => by split <;> simp) _ _
@[simp] theorem clearDamageMarks_exports (l : List (Item × Int)) : (clearDamageMarks l s).exports = s.exports :=
  by unfold clearDamageMarks; exact foldl_keeps State.exports _ (fun _ _ => by split <;> simp) _ _
@[simp] theorem clearDamageMarks_contracts (l : List (Item × Int)) : (clearDamageMarks l s).contracts = s.contracts :=
  by unfold clearDamageMarks; exact foldl_keeps State.contracts _ (fun _ _ => by split <;> simp) _ _
@[simp] theorem clearDamageMarks_settlement (l : List (Item × Int)) : (clearDamageMarks l s).settlement = s.settlement :=
  by unfold clearDamageMarks; exact foldl_keeps State.settlement _ (fun _ _ => by split <;> simp) _ _
@[simp] theorem clearDamageMarks_links (l : List (Item × Int)) : (clearDamageMarks l s).links = s.links :=
  by unfold clearDamageMarks; exact foldl_keeps State.links _ (fun _ _ => by split <;> simp) _ _
@[simp] theorem clearDamageMarks_lines (l : List (Item × Int)) : (clearDamageMarks l s).lines = s.lines :=
  by unfold clearDamageMarks; exact foldl_keeps State.lines _ (fun _ _ => by split <;> simp) _ _
@[simp] theorem clearDamageMarks_pending (l : List (Item × Int)) : (clearDamageMarks l s).pending = s.pending :=
  by unfold clearDamageMarks; exact foldl_keeps State.pending _ (fun _ _ => by split <;> simp) _ _

/-! ## `noticeShed` -/

@[simp] theorem noticeShed_power (c : Fin 8) (b : Bool) : (noticeShed c b s).power = s.power := by simp [noticeShed]
@[simp] theorem noticeShed_freeIndex (c : Fin 8) (b : Bool) : (noticeShed c b s).freeIndex = s.freeIndex :=
  by simp [noticeShed]
@[simp] theorem noticeShed_field (c : Fin 8) (b : Bool) : (noticeShed c b s).field = s.field := by simp [noticeShed]
@[simp] theorem noticeShed_metering (c : Fin 8) (b : Bool) : (noticeShed c b s).metering = s.metering :=
  by simp [noticeShed]
@[simp] theorem noticeShed_band (c : Fin 8) (b : Bool) : (noticeShed c b s).band = s.band := by simp [noticeShed]
@[simp] theorem noticeShed_allocator (c : Fin 8) (b : Bool) : (noticeShed c b s).allocator = s.allocator :=
  by simp [noticeShed]
@[simp] theorem noticeShed_supervisor (c : Fin 8) (b : Bool) : (noticeShed c b s).supervisor = s.supervisor :=
  by simp [noticeShed]
@[simp] theorem noticeShed_exports (c : Fin 8) (b : Bool) : (noticeShed c b s).exports = s.exports :=
  by simp [noticeShed]
@[simp] theorem noticeShed_contracts (c : Fin 8) (b : Bool) : (noticeShed c b s).contracts = s.contracts :=
  by simp [noticeShed]
@[simp] theorem noticeShed_settlement (c : Fin 8) (b : Bool) : (noticeShed c b s).settlement = s.settlement :=
  by simp [noticeShed]
@[simp] theorem noticeShed_store (c : Fin 8) (b : Bool) : (noticeShed c b s).store = s.store := by simp [noticeShed]
@[simp] theorem noticeShed_pending (c : Fin 8) (b : Bool) : (noticeShed c b s).pending = s.pending :=
  by simp [noticeShed]

/-! ## `eventNotices` -/

@[simp] theorem eventNotices_power (p : Plan) (old : Vector Nat 8) : (eventNotices p old s).power = s.power := by
  unfold eventNotices
  extract_lets a
  rw [foldl_keeps State.power _ (fun _ _ => by split <;> simp), show a.power = s.power from foldl_keeps State.power _ (fun _ _ => by (repeat' split) <;> simp) _ _]
@[simp] theorem eventNotices_freeIndex (p : Plan) (old : Vector Nat 8) : (eventNotices p old s).freeIndex = s.freeIndex :=
  by
  unfold eventNotices
  extract_lets a
  rw [foldl_keeps State.freeIndex _ (fun _ _ => by split <;> simp), show a.freeIndex = s.freeIndex from foldl_keeps State.freeIndex _ (fun _ _ => by (repeat' split) <;> simp) _ _]
@[simp] theorem eventNotices_field (p : Plan) (old : Vector Nat 8) : (eventNotices p old s).field = s.field := by
  unfold eventNotices
  extract_lets a
  rw [foldl_keeps State.field _ (fun _ _ => by split <;> simp), show a.field = s.field from foldl_keeps State.field _ (fun _ _ => by (repeat' split) <;> simp) _ _]
@[simp] theorem eventNotices_metering (p : Plan) (old : Vector Nat 8) : (eventNotices p old s).metering = s.metering :=
  by
  unfold eventNotices
  extract_lets a
  rw [foldl_keeps State.metering _ (fun _ _ => by split <;> simp), show a.metering = s.metering from foldl_keeps State.metering _ (fun _ _ => by (repeat' split) <;> simp) _ _]
@[simp] theorem eventNotices_band (p : Plan) (old : Vector Nat 8) : (eventNotices p old s).band = s.band := by
  unfold eventNotices
  extract_lets a
  rw [foldl_keeps State.band _ (fun _ _ => by split <;> simp), show a.band = s.band from foldl_keeps State.band _ (fun _ _ => by (repeat' split) <;> simp) _ _]
@[simp] theorem eventNotices_allocator (p : Plan) (old : Vector Nat 8) : (eventNotices p old s).allocator = s.allocator :=
  by
  unfold eventNotices
  extract_lets a
  rw [foldl_keeps State.allocator _ (fun _ _ => by split <;> simp), show a.allocator = s.allocator from foldl_keeps State.allocator _ (fun _ _ => by (repeat' split) <;> simp) _ _]
@[simp] theorem eventNotices_supervisor (p : Plan) (old : Vector Nat 8) : (eventNotices p old s).supervisor = s.supervisor :=
  by
  unfold eventNotices
  extract_lets a
  rw [foldl_keeps State.supervisor _ (fun _ _ => by split <;> simp), show a.supervisor = s.supervisor from foldl_keeps State.supervisor _ (fun _ _ => by (repeat' split) <;> simp) _ _]
@[simp] theorem eventNotices_exports (p : Plan) (old : Vector Nat 8) : (eventNotices p old s).exports = s.exports :=
  by
  unfold eventNotices
  extract_lets a
  rw [foldl_keeps State.exports _ (fun _ _ => by split <;> simp), show a.exports = s.exports from foldl_keeps State.exports _ (fun _ _ => by (repeat' split) <;> simp) _ _]
@[simp] theorem eventNotices_contracts (p : Plan) (old : Vector Nat 8) : (eventNotices p old s).contracts = s.contracts :=
  by
  unfold eventNotices
  extract_lets a
  rw [foldl_keeps State.contracts _ (fun _ _ => by split <;> simp), show a.contracts = s.contracts from foldl_keeps State.contracts _ (fun _ _ => by (repeat' split) <;> simp) _ _]
@[simp] theorem eventNotices_settlement (p : Plan) (old : Vector Nat 8) : (eventNotices p old s).settlement = s.settlement :=
  by
  unfold eventNotices
  extract_lets a
  rw [foldl_keeps State.settlement _ (fun _ _ => by split <;> simp), show a.settlement = s.settlement from foldl_keeps State.settlement _ (fun _ _ => by (repeat' split) <;> simp) _ _]
@[simp] theorem eventNotices_store (p : Plan) (old : Vector Nat 8) : (eventNotices p old s).store = s.store := by
  unfold eventNotices
  extract_lets a
  rw [foldl_keeps State.store _ (fun _ _ => by split <;> simp), show a.store = s.store from foldl_keeps State.store _ (fun _ _ => by (repeat' split) <;> simp) _ _]
@[simp] theorem eventNotices_pending (p : Plan) (old : Vector Nat 8) : (eventNotices p old s).pending = s.pending :=
  by
  unfold eventNotices
  extract_lets a
  rw [foldl_keeps State.pending _ (fun _ _ => by split <;> simp), show a.pending = s.pending from foldl_keeps State.pending _ (fun _ _ => by (repeat' split) <;> simp) _ _]

/-! ## `eventEvaluations` -/

@[simp] theorem eventEvaluations_power (p : Plan) (b : State) : (eventEvaluations p b s).power = s.power :=
  by unfold eventEvaluations; exact foldl_keeps State.power _ (fun _ _ => by split <;> simp) _ _
@[simp] theorem eventEvaluations_freeIndex (p : Plan) (b : State) : (eventEvaluations p b s).freeIndex = s.freeIndex :=
  by unfold eventEvaluations; exact foldl_keeps State.freeIndex _ (fun _ _ => by split <;> simp) _ _
@[simp] theorem eventEvaluations_field (p : Plan) (b : State) : (eventEvaluations p b s).field = s.field :=
  by unfold eventEvaluations; exact foldl_keeps State.field _ (fun _ _ => by split <;> simp) _ _
@[simp] theorem eventEvaluations_metering (p : Plan) (b : State) : (eventEvaluations p b s).metering = s.metering :=
  by unfold eventEvaluations; exact foldl_keeps State.metering _ (fun _ _ => by split <;> simp) _ _
@[simp] theorem eventEvaluations_band (p : Plan) (b : State) : (eventEvaluations p b s).band = s.band :=
  by unfold eventEvaluations; exact foldl_keeps State.band _ (fun _ _ => by split <;> simp) _ _
@[simp] theorem eventEvaluations_allocator (p : Plan) (b : State) : (eventEvaluations p b s).allocator = s.allocator :=
  by unfold eventEvaluations; exact foldl_keeps State.allocator _ (fun _ _ => by split <;> simp) _ _
@[simp] theorem eventEvaluations_exports (p : Plan) (b : State) : (eventEvaluations p b s).exports = s.exports :=
  by unfold eventEvaluations; exact foldl_keeps State.exports _ (fun _ _ => by split <;> simp) _ _
@[simp] theorem eventEvaluations_contracts (p : Plan) (b : State) : (eventEvaluations p b s).contracts = s.contracts :=
  by unfold eventEvaluations; exact foldl_keeps State.contracts _ (fun _ _ => by split <;> simp) _ _
@[simp] theorem eventEvaluations_settlement (p : Plan) (b : State) : (eventEvaluations p b s).settlement = s.settlement :=
  by unfold eventEvaluations; exact foldl_keeps State.settlement _ (fun _ _ => by split <;> simp) _ _
@[simp] theorem eventEvaluations_store (p : Plan) (b : State) : (eventEvaluations p b s).store = s.store :=
  by unfold eventEvaluations; exact foldl_keeps State.store _ (fun _ _ => by split <;> simp) _ _
@[simp] theorem eventEvaluations_links (p : Plan) (b : State) : (eventEvaluations p b s).links = s.links :=
  by unfold eventEvaluations; exact foldl_keeps State.links _ (fun _ _ => by split <;> simp) _ _
@[simp] theorem eventEvaluations_lines (p : Plan) (b : State) : (eventEvaluations p b s).lines = s.lines :=
  by unfold eventEvaluations; exact foldl_keeps State.lines _ (fun _ _ => by split <;> simp) _ _
@[simp] theorem eventEvaluations_pending (p : Plan) (b : State) : (eventEvaluations p b s).pending = s.pending :=
  by unfold eventEvaluations; exact foldl_keeps State.pending _ (fun _ _ => by split <;> simp) _ _

/-! ## `countUncorrectable` -/

@[simp] theorem countUncorrectable_power (r : RegionIndex) : (countUncorrectable r s).power = s.power :=
  by simp [countUncorrectable]
@[simp] theorem countUncorrectable_freeIndex (r : RegionIndex) : (countUncorrectable r s).freeIndex = s.freeIndex :=
  by simp [countUncorrectable]
@[simp] theorem countUncorrectable_field (r : RegionIndex) : (countUncorrectable r s).field = s.field :=
  by simp [countUncorrectable]
@[simp] theorem countUncorrectable_metering (r : RegionIndex) : (countUncorrectable r s).metering = s.metering :=
  by simp [countUncorrectable]
@[simp] theorem countUncorrectable_band (r : RegionIndex) : (countUncorrectable r s).band = s.band :=
  by simp [countUncorrectable]
@[simp] theorem countUncorrectable_allocator (r : RegionIndex) : (countUncorrectable r s).allocator = s.allocator :=
  by simp [countUncorrectable]
@[simp] theorem countUncorrectable_supervisor (r : RegionIndex) : (countUncorrectable r s).supervisor = s.supervisor :=
  by simp [countUncorrectable]
@[simp] theorem countUncorrectable_exports (r : RegionIndex) : (countUncorrectable r s).exports = s.exports :=
  by simp [countUncorrectable]
@[simp] theorem countUncorrectable_contracts (r : RegionIndex) : (countUncorrectable r s).contracts = s.contracts :=
  by simp [countUncorrectable]
@[simp] theorem countUncorrectable_settlement (r : RegionIndex) : (countUncorrectable r s).settlement = s.settlement :=
  by simp [countUncorrectable]
@[simp] theorem countUncorrectable_pending (r : RegionIndex) : (countUncorrectable r s).pending = s.pending :=
  by simp [countUncorrectable]

/-! ## `noticeField` -/

@[simp] theorem noticeField_power (k : Fin 22) (st : SampleState) : (noticeField k st s).power = s.power :=
  by simp [noticeField]
@[simp] theorem noticeField_freeIndex (k : Fin 22) (st : SampleState) : (noticeField k st s).freeIndex = s.freeIndex :=
  by simp [noticeField]
@[simp] theorem noticeField_field (k : Fin 22) (st : SampleState) : (noticeField k st s).field = s.field :=
  by simp [noticeField]
@[simp] theorem noticeField_metering (k : Fin 22) (st : SampleState) : (noticeField k st s).metering = s.metering :=
  by simp [noticeField]
@[simp] theorem noticeField_band (k : Fin 22) (st : SampleState) : (noticeField k st s).band = s.band :=
  by simp [noticeField]
@[simp] theorem noticeField_allocator (k : Fin 22) (st : SampleState) : (noticeField k st s).allocator = s.allocator :=
  by simp [noticeField]
@[simp] theorem noticeField_supervisor (k : Fin 22) (st : SampleState) : (noticeField k st s).supervisor = s.supervisor :=
  by simp [noticeField]
@[simp] theorem noticeField_exports (k : Fin 22) (st : SampleState) : (noticeField k st s).exports = s.exports :=
  by simp [noticeField]
@[simp] theorem noticeField_contracts (k : Fin 22) (st : SampleState) : (noticeField k st s).contracts = s.contracts :=
  by simp [noticeField]
@[simp] theorem noticeField_settlement (k : Fin 22) (st : SampleState) : (noticeField k st s).settlement = s.settlement :=
  by simp [noticeField]
@[simp] theorem noticeField_store (k : Fin 22) (st : SampleState) : (noticeField k st s).store = s.store :=
  by simp [noticeField]
@[simp] theorem noticeField_pending (k : Fin 22) (st : SampleState) : (noticeField k st s).pending = s.pending :=
  by simp [noticeField]

/-! ## `noticeProposal` -/

@[simp] theorem noticeProposal_power (e : Proposal) (o : Outcome) : (noticeProposal e o s).power = s.power :=
  by simp [noticeProposal]
@[simp] theorem noticeProposal_freeIndex (e : Proposal) (o : Outcome) : (noticeProposal e o s).freeIndex = s.freeIndex :=
  by simp [noticeProposal]
@[simp] theorem noticeProposal_field (e : Proposal) (o : Outcome) : (noticeProposal e o s).field = s.field :=
  by simp [noticeProposal]
@[simp] theorem noticeProposal_metering (e : Proposal) (o : Outcome) : (noticeProposal e o s).metering = s.metering :=
  by simp [noticeProposal]
@[simp] theorem noticeProposal_band (e : Proposal) (o : Outcome) : (noticeProposal e o s).band = s.band :=
  by simp [noticeProposal]
@[simp] theorem noticeProposal_allocator (e : Proposal) (o : Outcome) : (noticeProposal e o s).allocator = s.allocator :=
  by simp [noticeProposal]
@[simp] theorem noticeProposal_supervisor (e : Proposal) (o : Outcome) : (noticeProposal e o s).supervisor = s.supervisor :=
  by simp [noticeProposal]
@[simp] theorem noticeProposal_exports (e : Proposal) (o : Outcome) : (noticeProposal e o s).exports = s.exports :=
  by simp [noticeProposal]
@[simp] theorem noticeProposal_contracts (e : Proposal) (o : Outcome) : (noticeProposal e o s).contracts = s.contracts :=
  by simp [noticeProposal]
@[simp] theorem noticeProposal_settlement (e : Proposal) (o : Outcome) : (noticeProposal e o s).settlement = s.settlement :=
  by simp [noticeProposal]
@[simp] theorem noticeProposal_store (e : Proposal) (o : Outcome) : (noticeProposal e o s).store = s.store :=
  by simp [noticeProposal]
@[simp] theorem noticeProposal_pending (e : Proposal) (o : Outcome) : (noticeProposal e o s).pending = s.pending :=
  by simp [noticeProposal]

/-! ## `removeEntry` -/

@[simp] theorem removeEntry_power (n : Nat) : (removeEntry n s).power = s.power := by simp [removeEntry]
@[simp] theorem removeEntry_freeIndex (n : Nat) : (removeEntry n s).freeIndex = s.freeIndex := by simp [removeEntry]
@[simp] theorem removeEntry_field (n : Nat) : (removeEntry n s).field = s.field := by simp [removeEntry]
@[simp] theorem removeEntry_metering (n : Nat) : (removeEntry n s).metering = s.metering := by simp [removeEntry]
@[simp] theorem removeEntry_band (n : Nat) : (removeEntry n s).band = s.band := by simp [removeEntry]
@[simp] theorem removeEntry_allocator (n : Nat) : (removeEntry n s).allocator = s.allocator := by simp [removeEntry]
@[simp] theorem removeEntry_supervisor (n : Nat) : (removeEntry n s).supervisor = s.supervisor :=
  by simp [removeEntry]
@[simp] theorem removeEntry_exports (n : Nat) : (removeEntry n s).exports = s.exports := by simp [removeEntry]
@[simp] theorem removeEntry_settlement (n : Nat) : (removeEntry n s).settlement = s.settlement :=
  by simp [removeEntry]
@[simp] theorem removeEntry_links (n : Nat) : (removeEntry n s).links = s.links := by simp [removeEntry]
@[simp] theorem removeEntry_lines (n : Nat) : (removeEntry n s).lines = s.lines := by simp [removeEntry]
@[simp] theorem removeEntry_pending (n : Nat) : (removeEntry n s).pending = s.pending := by simp [removeEntry]

/-! ## `endEntry` -/

@[simp] theorem endEntry_power (e : Proposal) (o : Outcome) : (endEntry e o s).power = s.power := by simp [endEntry]
@[simp] theorem endEntry_freeIndex (e : Proposal) (o : Outcome) : (endEntry e o s).freeIndex = s.freeIndex :=
  by simp [endEntry]
@[simp] theorem endEntry_field (e : Proposal) (o : Outcome) : (endEntry e o s).field = s.field := by simp [endEntry]
@[simp] theorem endEntry_metering (e : Proposal) (o : Outcome) : (endEntry e o s).metering = s.metering :=
  by simp [endEntry]
@[simp] theorem endEntry_band (e : Proposal) (o : Outcome) : (endEntry e o s).band = s.band := by simp [endEntry]
@[simp] theorem endEntry_allocator (e : Proposal) (o : Outcome) : (endEntry e o s).allocator = s.allocator :=
  by simp [endEntry]
@[simp] theorem endEntry_supervisor (e : Proposal) (o : Outcome) : (endEntry e o s).supervisor = s.supervisor :=
  by simp [endEntry]
@[simp] theorem endEntry_exports (e : Proposal) (o : Outcome) : (endEntry e o s).exports = s.exports :=
  by simp [endEntry]
@[simp] theorem endEntry_settlement (e : Proposal) (o : Outcome) : (endEntry e o s).settlement = s.settlement :=
  by simp [endEntry]
@[simp] theorem endEntry_pending (e : Proposal) (o : Outcome) : (endEntry e o s).pending = s.pending :=
  by simp [endEntry]

/-! ## `changeEntry` -/

@[simp] theorem changeEntry_power (n : Nat) (f : Proposal → Proposal) : (changeEntry n f s).power = s.power :=
  by simp [changeEntry]
@[simp] theorem changeEntry_freeIndex (n : Nat) (f : Proposal → Proposal) : (changeEntry n f s).freeIndex = s.freeIndex :=
  by simp [changeEntry]
@[simp] theorem changeEntry_field (n : Nat) (f : Proposal → Proposal) : (changeEntry n f s).field = s.field :=
  by simp [changeEntry]
@[simp] theorem changeEntry_metering (n : Nat) (f : Proposal → Proposal) : (changeEntry n f s).metering = s.metering :=
  by simp [changeEntry]
@[simp] theorem changeEntry_band (n : Nat) (f : Proposal → Proposal) : (changeEntry n f s).band = s.band :=
  by simp [changeEntry]
@[simp] theorem changeEntry_allocator (n : Nat) (f : Proposal → Proposal) : (changeEntry n f s).allocator = s.allocator :=
  by simp [changeEntry]
@[simp] theorem changeEntry_supervisor (n : Nat) (f : Proposal → Proposal) : (changeEntry n f s).supervisor = s.supervisor :=
  by simp [changeEntry]
@[simp] theorem changeEntry_exports (n : Nat) (f : Proposal → Proposal) : (changeEntry n f s).exports = s.exports :=
  by simp [changeEntry]
@[simp] theorem changeEntry_settlement (n : Nat) (f : Proposal → Proposal) : (changeEntry n f s).settlement = s.settlement :=
  by simp [changeEntry]
@[simp] theorem changeEntry_links (n : Nat) (f : Proposal → Proposal) : (changeEntry n f s).links = s.links :=
  by simp [changeEntry]
@[simp] theorem changeEntry_lines (n : Nat) (f : Proposal → Proposal) : (changeEntry n f s).lines = s.lines :=
  by simp [changeEntry]
@[simp] theorem changeEntry_pending (n : Nat) (f : Proposal → Proposal) : (changeEntry n f s).pending = s.pending :=
  by simp [changeEntry]

/-! ## `zeroFlare` -/

@[simp] theorem zeroFlare_power : (zeroFlare s).power = s.power := by simp [zeroFlare]
@[simp] theorem zeroFlare_freeIndex : (zeroFlare s).freeIndex = s.freeIndex := by simp [zeroFlare]
@[simp] theorem zeroFlare_field : (zeroFlare s).field = s.field := by simp [zeroFlare]
@[simp] theorem zeroFlare_metering : (zeroFlare s).metering = s.metering := by simp [zeroFlare]
@[simp] theorem zeroFlare_band : (zeroFlare s).band = s.band := by simp [zeroFlare]
@[simp] theorem zeroFlare_supervisor : (zeroFlare s).supervisor = s.supervisor := by simp [zeroFlare]
@[simp] theorem zeroFlare_exports : (zeroFlare s).exports = s.exports := by simp [zeroFlare]
@[simp] theorem zeroFlare_contracts : (zeroFlare s).contracts = s.contracts := by simp [zeroFlare]
@[simp] theorem zeroFlare_links : (zeroFlare s).links = s.links := by simp [zeroFlare]
@[simp] theorem zeroFlare_pending : (zeroFlare s).pending = s.pending := by simp [zeroFlare]

/-! ## `moveCursor` -/

@[simp] theorem moveCursor_power (p : Party) : (moveCursor s p).power = s.power :=
  by unfold moveCursor; (repeat' split) <;> simp
@[simp] theorem moveCursor_freeIndex (p : Party) : (moveCursor s p).freeIndex = s.freeIndex :=
  by unfold moveCursor; (repeat' split) <;> simp
@[simp] theorem moveCursor_field (p : Party) : (moveCursor s p).field = s.field :=
  by unfold moveCursor; (repeat' split) <;> simp
@[simp] theorem moveCursor_metering (p : Party) : (moveCursor s p).metering = s.metering :=
  by unfold moveCursor; (repeat' split) <;> simp
@[simp] theorem moveCursor_band (p : Party) : (moveCursor s p).band = s.band :=
  by unfold moveCursor; (repeat' split) <;> simp
@[simp] theorem moveCursor_allocator (p : Party) : (moveCursor s p).allocator = s.allocator :=
  by unfold moveCursor; (repeat' split) <;> simp
@[simp] theorem moveCursor_supervisor (p : Party) : (moveCursor s p).supervisor = s.supervisor :=
  by unfold moveCursor; (repeat' split) <;> simp
@[simp] theorem moveCursor_exports (p : Party) : (moveCursor s p).exports = s.exports :=
  by unfold moveCursor; (repeat' split) <;> simp
@[simp] theorem moveCursor_contracts (p : Party) : (moveCursor s p).contracts = s.contracts :=
  by unfold moveCursor; (repeat' split) <;> simp
@[simp] theorem moveCursor_links (p : Party) : (moveCursor s p).links = s.links :=
  by unfold moveCursor; (repeat' split) <;> simp
@[simp] theorem moveCursor_lines (p : Party) : (moveCursor s p).lines = s.lines :=
  by unfold moveCursor; (repeat' split) <;> simp
@[simp] theorem moveCursor_pending (p : Party) : (moveCursor s p).pending = s.pending :=
  by unfold moveCursor; (repeat' split) <;> simp

/-! ## `passRecord` -/

@[simp] theorem passRecord_power (r : ArchiveRecord) (b : Bool) (p : Party) : (passRecord r b s p).power = s.power := by
  unfold passRecord; split <;> simp
@[simp] theorem passRecord_freeIndex (r : ArchiveRecord) (b : Bool) (p : Party) : (passRecord r b s p).freeIndex = s.freeIndex := by
  unfold passRecord; split <;> simp
@[simp] theorem passRecord_field (r : ArchiveRecord) (b : Bool) (p : Party) : (passRecord r b s p).field = s.field := by
  unfold passRecord; split <;> simp
@[simp] theorem passRecord_metering (r : ArchiveRecord) (b : Bool) (p : Party) : (passRecord r b s p).metering = s.metering := by
  unfold passRecord; split <;> simp
@[simp] theorem passRecord_band (r : ArchiveRecord) (b : Bool) (p : Party) : (passRecord r b s p).band = s.band := by
  unfold passRecord; split <;> simp
@[simp] theorem passRecord_allocator (r : ArchiveRecord) (b : Bool) (p : Party) : (passRecord r b s p).allocator = s.allocator := by
  unfold passRecord; split <;> simp
@[simp] theorem passRecord_supervisor (r : ArchiveRecord) (b : Bool) (p : Party) : (passRecord r b s p).supervisor = s.supervisor := by
  unfold passRecord; split <;> simp
@[simp] theorem passRecord_exports (r : ArchiveRecord) (b : Bool) (p : Party) : (passRecord r b s p).exports = s.exports := by
  unfold passRecord; split <;> simp
@[simp] theorem passRecord_contracts (r : ArchiveRecord) (b : Bool) (p : Party) : (passRecord r b s p).contracts = s.contracts := by
  unfold passRecord; split <;> simp
@[simp] theorem passRecord_links (r : ArchiveRecord) (b : Bool) (p : Party) : (passRecord r b s p).links = s.links := by
  unfold passRecord; split <;> simp
@[simp] theorem passRecord_lines (r : ArchiveRecord) (b : Bool) (p : Party) : (passRecord r b s p).lines = s.lines := by
  unfold passRecord; split <;> simp
@[simp] theorem passRecord_pending (r : ArchiveRecord) (b : Bool) (p : Party) : (passRecord r b s p).pending = s.pending := by
  unfold passRecord; split <;> simp

/-! ## `writeArchive` -/

@[simp] theorem writeArchive_power (r : ArchiveRecord) : (writeArchive r s).power = s.power := by
  unfold writeArchive
  extract_lets kept joined
  rw [foldl_keeps State.power _ (fun _ _ => by simp)]
  rfl
@[simp] theorem writeArchive_freeIndex (r : ArchiveRecord) : (writeArchive r s).freeIndex = s.freeIndex := by
  unfold writeArchive
  extract_lets kept joined
  rw [foldl_keeps State.freeIndex _ (fun _ _ => by simp)]
  rfl
@[simp] theorem writeArchive_field (r : ArchiveRecord) : (writeArchive r s).field = s.field := by
  unfold writeArchive
  extract_lets kept joined
  rw [foldl_keeps State.field _ (fun _ _ => by simp)]
  rfl
@[simp] theorem writeArchive_metering (r : ArchiveRecord) : (writeArchive r s).metering = s.metering := by
  unfold writeArchive
  extract_lets kept joined
  rw [foldl_keeps State.metering _ (fun _ _ => by simp)]
  rfl
@[simp] theorem writeArchive_band (r : ArchiveRecord) : (writeArchive r s).band = s.band := by
  unfold writeArchive
  extract_lets kept joined
  rw [foldl_keeps State.band _ (fun _ _ => by simp)]
  rfl
@[simp] theorem writeArchive_allocator (r : ArchiveRecord) : (writeArchive r s).allocator = s.allocator := by
  unfold writeArchive
  extract_lets kept joined
  rw [foldl_keeps State.allocator _ (fun _ _ => by simp)]
  rfl
@[simp] theorem writeArchive_supervisor (r : ArchiveRecord) : (writeArchive r s).supervisor = s.supervisor := by
  unfold writeArchive
  extract_lets kept joined
  rw [foldl_keeps State.supervisor _ (fun _ _ => by simp)]
  rfl
@[simp] theorem writeArchive_exports (r : ArchiveRecord) : (writeArchive r s).exports = s.exports := by
  unfold writeArchive
  extract_lets kept joined
  rw [foldl_keeps State.exports _ (fun _ _ => by simp)]
  rfl
@[simp] theorem writeArchive_contracts (r : ArchiveRecord) : (writeArchive r s).contracts = s.contracts := by
  unfold writeArchive
  extract_lets kept joined
  rw [foldl_keeps State.contracts _ (fun _ _ => by simp)]
  rfl
@[simp] theorem writeArchive_links (r : ArchiveRecord) : (writeArchive r s).links = s.links := by
  unfold writeArchive
  extract_lets kept joined
  rw [foldl_keeps State.links _ (fun _ _ => by simp)]
  rfl
@[simp] theorem writeArchive_lines (r : ArchiveRecord) : (writeArchive r s).lines = s.lines := by
  unfold writeArchive
  extract_lets kept joined
  rw [foldl_keeps State.lines _ (fun _ _ => by simp)]
  rfl
@[simp] theorem writeArchive_pending (r : ArchiveRecord) : (writeArchive r s).pending = s.pending := by
  unfold writeArchive
  extract_lets kept joined
  rw [foldl_keeps State.pending _ (fun _ _ => by simp)]
  rfl

/-! ## `closeRecord` -/

@[simp] theorem closeRecord_power (k : Boundary) (o : OpenRecord) : (closeRecord k o s).power = s.power := by
  unfold closeRecord
  extract_lets r
  rw [writeArchive_power, setGasAccount_power, setHeatAccount_power]
@[simp] theorem closeRecord_freeIndex (k : Boundary) (o : OpenRecord) : (closeRecord k o s).freeIndex = s.freeIndex :=
  by
  unfold closeRecord
  extract_lets r
  rw [writeArchive_freeIndex, setGasAccount_freeIndex, setHeatAccount_freeIndex]
@[simp] theorem closeRecord_field (k : Boundary) (o : OpenRecord) : (closeRecord k o s).field = s.field := by
  unfold closeRecord
  extract_lets r
  rw [writeArchive_field, setGasAccount_field, setHeatAccount_field]
@[simp] theorem closeRecord_metering (k : Boundary) (o : OpenRecord) : (closeRecord k o s).metering = s.metering := by
  unfold closeRecord
  extract_lets r
  rw [writeArchive_metering, setGasAccount_metering, setHeatAccount_metering]
@[simp] theorem closeRecord_band (k : Boundary) (o : OpenRecord) : (closeRecord k o s).band = s.band := by
  unfold closeRecord
  extract_lets r
  rw [writeArchive_band, setGasAccount_band, setHeatAccount_band]
@[simp] theorem closeRecord_allocator (k : Boundary) (o : OpenRecord) : (closeRecord k o s).allocator = s.allocator :=
  by
  unfold closeRecord
  extract_lets r
  rw [writeArchive_allocator, setGasAccount_allocator, setHeatAccount_allocator]
@[simp] theorem closeRecord_supervisor (k : Boundary) (o : OpenRecord) : (closeRecord k o s).supervisor = s.supervisor :=
  by
  unfold closeRecord
  extract_lets r
  rw [writeArchive_supervisor, setGasAccount_supervisor, setHeatAccount_supervisor]
@[simp] theorem closeRecord_exports (k : Boundary) (o : OpenRecord) : (closeRecord k o s).exports = s.exports := by
  unfold closeRecord
  extract_lets r
  rw [writeArchive_exports, setGasAccount_exports, setHeatAccount_exports]
@[simp] theorem closeRecord_contracts (k : Boundary) (o : OpenRecord) : (closeRecord k o s).contracts = s.contracts :=
  by
  unfold closeRecord
  extract_lets r
  rw [writeArchive_contracts, setGasAccount_contracts, setHeatAccount_contracts]
@[simp] theorem closeRecord_links (k : Boundary) (o : OpenRecord) : (closeRecord k o s).links = s.links := by
  unfold closeRecord
  extract_lets r
  rw [writeArchive_links, setGasAccount_links, setHeatAccount_links]
@[simp] theorem closeRecord_lines (k : Boundary) (o : OpenRecord) : (closeRecord k o s).lines = s.lines := by
  unfold closeRecord
  extract_lets r
  rw [writeArchive_lines, setGasAccount_lines, setHeatAccount_lines]
@[simp] theorem closeRecord_pending (k : Boundary) (o : OpenRecord) : (closeRecord k o s).pending = s.pending := by
  unfold closeRecord
  extract_lets r
  rw [writeArchive_pending, setGasAccount_pending, setHeatAccount_pending]

/-! ## `resetRecovery` -/

@[simp] theorem resetRecovery_power : (resetRecovery s).power = s.power :=
  by unfold resetRecovery; exact foldl_keeps State.power _ (fun _ _ => by simp) _ _
@[simp] theorem resetRecovery_freeIndex : (resetRecovery s).freeIndex = s.freeIndex :=
  by unfold resetRecovery; exact foldl_keeps State.freeIndex _ (fun _ _ => by simp) _ _
@[simp] theorem resetRecovery_field : (resetRecovery s).field = s.field :=
  by unfold resetRecovery; exact foldl_keeps State.field _ (fun _ _ => by simp) _ _
@[simp] theorem resetRecovery_metering : (resetRecovery s).metering = s.metering :=
  by unfold resetRecovery; exact foldl_keeps State.metering _ (fun _ _ => by simp) _ _
@[simp] theorem resetRecovery_band : (resetRecovery s).band = s.band :=
  by unfold resetRecovery; exact foldl_keeps State.band _ (fun _ _ => by simp) _ _
@[simp] theorem resetRecovery_allocator : (resetRecovery s).allocator = s.allocator :=
  by unfold resetRecovery; exact foldl_keeps State.allocator _ (fun _ _ => by simp) _ _
@[simp] theorem resetRecovery_exports : (resetRecovery s).exports = s.exports :=
  by unfold resetRecovery; exact foldl_keeps State.exports _ (fun _ _ => by simp) _ _
@[simp] theorem resetRecovery_contracts : (resetRecovery s).contracts = s.contracts :=
  by unfold resetRecovery; exact foldl_keeps State.contracts _ (fun _ _ => by simp) _ _
@[simp] theorem resetRecovery_settlement : (resetRecovery s).settlement = s.settlement :=
  by unfold resetRecovery; exact foldl_keeps State.settlement _ (fun _ _ => by simp) _ _
@[simp] theorem resetRecovery_store : (resetRecovery s).store = s.store :=
  by unfold resetRecovery; exact foldl_keeps State.store _ (fun _ _ => by simp) _ _
@[simp] theorem resetRecovery_links : (resetRecovery s).links = s.links :=
  by unfold resetRecovery; exact foldl_keeps State.links _ (fun _ _ => by simp) _ _
@[simp] theorem resetRecovery_lines : (resetRecovery s).lines = s.lines :=
  by unfold resetRecovery; exact foldl_keeps State.lines _ (fun _ _ => by simp) _ _
@[simp] theorem resetRecovery_pending : (resetRecovery s).pending = s.pending :=
  by unfold resetRecovery; exact foldl_keeps State.pending _ (fun _ _ => by simp) _ _

/-! ## `removeUnaligned` -/

@[simp] theorem removeUnaligned_power (n : Nat) : (removeUnaligned n s).power = s.power :=
  by unfold removeUnaligned; (repeat' split) <;> simp
@[simp] theorem removeUnaligned_freeIndex (n : Nat) : (removeUnaligned n s).freeIndex = s.freeIndex :=
  by unfold removeUnaligned; (repeat' split) <;> simp
@[simp] theorem removeUnaligned_field (n : Nat) : (removeUnaligned n s).field = s.field :=
  by unfold removeUnaligned; (repeat' split) <;> simp
@[simp] theorem removeUnaligned_metering (n : Nat) : (removeUnaligned n s).metering = s.metering :=
  by unfold removeUnaligned; (repeat' split) <;> simp
@[simp] theorem removeUnaligned_band (n : Nat) : (removeUnaligned n s).band = s.band :=
  by unfold removeUnaligned; (repeat' split) <;> simp
@[simp] theorem removeUnaligned_allocator (n : Nat) : (removeUnaligned n s).allocator = s.allocator :=
  by unfold removeUnaligned; (repeat' split) <;> simp
@[simp] theorem removeUnaligned_supervisor (n : Nat) : (removeUnaligned n s).supervisor = s.supervisor :=
  by unfold removeUnaligned; (repeat' split) <;> simp
@[simp] theorem removeUnaligned_contracts (n : Nat) : (removeUnaligned n s).contracts = s.contracts :=
  by unfold removeUnaligned; (repeat' split) <;> simp
@[simp] theorem removeUnaligned_settlement (n : Nat) : (removeUnaligned n s).settlement = s.settlement :=
  by unfold removeUnaligned; (repeat' split) <;> simp
@[simp] theorem removeUnaligned_links (n : Nat) : (removeUnaligned n s).links = s.links :=
  by unfold removeUnaligned; (repeat' split) <;> simp
@[simp] theorem removeUnaligned_lines (n : Nat) : (removeUnaligned n s).lines = s.lines :=
  by unfold removeUnaligned; (repeat' split) <;> simp
@[simp] theorem removeUnaligned_pending (n : Nat) : (removeUnaligned n s).pending = s.pending :=
  by unfold removeUnaligned; (repeat' split) <;> simp

/-! ## `makeLatch` -/

@[simp] theorem makeLatch_power (t : Nat) : (makeLatch t s).power = s.power := by simp [makeLatch]
@[simp] theorem makeLatch_freeIndex (t : Nat) : (makeLatch t s).freeIndex = s.freeIndex := by simp [makeLatch]
@[simp] theorem makeLatch_field (t : Nat) : (makeLatch t s).field = s.field := by simp [makeLatch]
@[simp] theorem makeLatch_metering (t : Nat) : (makeLatch t s).metering = s.metering := by simp [makeLatch]
@[simp] theorem makeLatch_band (t : Nat) : (makeLatch t s).band = s.band := by simp [makeLatch]
@[simp] theorem makeLatch_contracts (t : Nat) : (makeLatch t s).contracts = s.contracts := by simp [makeLatch]
@[simp] theorem makeLatch_settlement (t : Nat) : (makeLatch t s).settlement = s.settlement := by simp [makeLatch]
@[simp] theorem makeLatch_pending (t : Nat) : (makeLatch t s).pending = s.pending := by simp [makeLatch]

/-! ## `openRecord` -/

@[simp] theorem openRecord_power (k : Boundary) (t : Nat) (b : Bool) : (openRecord k t b s).power = s.power := by
  unfold openRecord; rw [setNextRecord_power, wroteAll_power]
@[simp] theorem openRecord_freeIndex (k : Boundary) (t : Nat) (b : Bool) : (openRecord k t b s).freeIndex = s.freeIndex :=
  by
  unfold openRecord; rw [setNextRecord_freeIndex, wroteAll_freeIndex]
@[simp] theorem openRecord_field (k : Boundary) (t : Nat) (b : Bool) : (openRecord k t b s).field = s.field := by
  unfold openRecord; rw [setNextRecord_field, wroteAll_field]
@[simp] theorem openRecord_metering (k : Boundary) (t : Nat) (b : Bool) : (openRecord k t b s).metering = s.metering :=
  by
  unfold openRecord; rw [setNextRecord_metering, wroteAll_metering]
@[simp] theorem openRecord_band (k : Boundary) (t : Nat) (b : Bool) : (openRecord k t b s).band = s.band := by
  unfold openRecord; rw [setNextRecord_band, wroteAll_band]
@[simp] theorem openRecord_allocator (k : Boundary) (t : Nat) (b : Bool) : (openRecord k t b s).allocator = s.allocator :=
  by
  unfold openRecord; rw [setNextRecord_allocator, wroteAll_allocator]
@[simp] theorem openRecord_supervisor (k : Boundary) (t : Nat) (b : Bool) : (openRecord k t b s).supervisor = s.supervisor :=
  by
  unfold openRecord; rw [setNextRecord_supervisor, wroteAll_supervisor]
@[simp] theorem openRecord_exports (k : Boundary) (t : Nat) (b : Bool) : (openRecord k t b s).exports = s.exports :=
  by
  unfold openRecord; rw [setNextRecord_exports, wroteAll_exports]
@[simp] theorem openRecord_contracts (k : Boundary) (t : Nat) (b : Bool) : (openRecord k t b s).contracts = s.contracts :=
  by
  unfold openRecord; rw [setNextRecord_contracts, wroteAll_contracts]
@[simp] theorem openRecord_links (k : Boundary) (t : Nat) (b : Bool) : (openRecord k t b s).links = s.links := by
  unfold openRecord; rw [setNextRecord_links, wroteAll_links]
@[simp] theorem openRecord_lines (k : Boundary) (t : Nat) (b : Bool) : (openRecord k t b s).lines = s.lines := by
  unfold openRecord; rw [setNextRecord_lines, wroteAll_lines]
@[simp] theorem openRecord_pending (k : Boundary) (t : Nat) (b : Bool) : (openRecord k t b s).pending = s.pending :=
  by
  unfold openRecord; rw [setNextRecord_pending, wroteAll_pending]

end Sys2Proof.Machine
end

