-- ==== Sys2Proof/Laws/Calm.lean ====
section
/-! SUPPORT. Requests and operations where no word of the store is in error: reads change nothing, no trigger waits, and a
command comes down to its own event. -/

namespace Sys2Proof.Machine

/-! ## Reads and triggers -/

theorem readThing_clean (m : Nat → State → State) {s : State} (h : s.store.errors = []) (t : Thing) :
    readThing m t s = s := by
  cases t <;> simp only [readThing, wordsInError_clean h, List.foldl_nil]

/-- The check of words that are not in error changes nothing (R166). -/
theorem readWith_clean (m : Nat → State → State) {s : State} (h : s.store.errors = []) (ts : List Thing) :
    readWith m ts s = s := by
  unfold readWith
  induction ts with
  | nil => rfl
  | cons t ts ih => rw [List.foldl_cons, readThing_clean m h]; exact ih

theorem readAll_clean {s : State} (h : s.store.errors = []) (ts : List Thing) : readAll ts s = s := readWith_clean _ h ts

theorem takeTriggers_idle (n : Nat) {s : State} (h : s.allocator.triggers = 0) : takeTriggers n s = s := by
  cases n with
  | zero => rfl
  | succ n => simp [takeTriggers, h]

/-- Where no trigger was handed over, no event is taken (R53). -/
theorem settle_idle {s : State} (h : s.allocator.triggers = 0) : settle s = s := takeTriggers_idle _ h

theorem operation_calm {s : State} (he : s.store.errors = []) (ht : s.allocator.triggers = 0) (reads : List Thing)
    (body : State → State) : operation reads body s = settle (body s) := by
  rw [operation, readAll_clean he, settle_idle ht]

/-! ## Requests -/

theorem request_taken {s : State} {f : Frame} {length : Nat} (hr : s.power.running = true) (hf : Taken s f length)
    (code : Nat) (run : State → State) : request f code length true run s = .next (run s) := by
  simp [request, takes, hr, hf.1, hf.2]

/-- A frame that finds the part stopped or the port busy is without effect (R175, R178). -/
theorem request_not_taken {s : State} {f : Frame} (h : takes s f.party = false) (code length : Nat) (d : Bool)
    (run : State → State) : request f code length d run s = .next s := by
  simp [request, h]

/-- A request that does not decode is answered OUT_OF_RANGE (R179). -/
theorem request_refused {s : State} {f : Frame} {length : Nat} {d : Bool} (ht : takes s f.party = true)
    (h : f.length ≠ length ∨ d = false) (code : Nat) (run : State → State) :
    request f code length d run s = .next (refuse f.party code .outOfRange s) := by
  have : ¬(f.length = length ∧ d = true) := by rintro ⟨a, b⟩; rcases h with h | h <;> simp_all
  simp [request, ht, this]

/-- A refusal of the Link Unit where nothing is damaged: the response and nothing else (R179, R192). -/
theorem refuse_calm {s : State} (he : s.store.errors = []) (ht : s.allocator.triggers = 0) (p : Party) (code : Nat)
    (status : Status) : refuse p code status s = respond p code status (refusalFields code p s) s := by
  simp only [refuse, readAll_clean he, settle_idle ht, ite_self]

/-- A refusal without a field makes no read, whatever stands in the store (R192). -/
theorem refuse_bare {code : Nat} (h : code ≠ codeSchedule ∧ code ≠ codeCursor) (p : Party) (status : Status) (s : State) :
    refuse p code status s = respond p code status [] s := by
  simp [refuse, refusalReads, refusalFields, h.1, h.2]

/-- A request served where nothing is damaged: its event, the events that its triggers take, the response (R181). -/
theorem serve_calm {s : State} (he : s.store.errors = []) (ht : s.allocator.triggers = 0) (p : Party) (code : Nat)
    (reads : List Thing) (body : State → State) (answer : State → State → Status × List Field) :
    serve p code reads body answer s =
      respond p code (answer s (settle (body s))).1 (answer s (settle (body s))).2 (settle (body s)) := by
  simp only [serve, readAll_clean he, settle_idle ht]

theorem ownerRequest_calm {s : State} (he : s.store.errors = []) (ht : s.allocator.triggers = 0) {f : Frame} {c : Fin 8}
    (ho : ownerOf s c = f.party) (code : Nat) (reads : List Thing) (body : State → State)
    (answer : State → State → Status × List Field) :
    ownerRequest f code c reads body answer s = serve f.party code reads body answer s := by
  simp only [ownerRequest, readAll_clean he, settle_idle ht, ho, if_true]

/-- A request that is not the owner's is refused, with the consumer's state (R180). -/
theorem ownerRequest_notOwner {s : State} (he : s.store.errors = []) (ht : s.allocator.triggers = 0) {f : Frame}
    {c : Fin 8} (ho : ownerOf s c ≠ f.party) (code : Nat) (reads : List Thing) (body : State → State)
    (answer : State → State → Status × List Field) :
    ownerRequest f code c reads body answer s = respond f.party code .notOwner [stateField s c] s := by
  simp only [ownerRequest, readAll_clean he, settle_idle ht, ho, if_false]

theorem judged_taken {s : State} {status : State → Status} (h : isRefusing (status s) = false) (body : State → State) :
    judged status body s = body s := by
  simp [judged, h]

theorem judged_refused {s : State} {status : State → Status} (h : isRefusing (status s) = true) (body : State → State) :
    judged status body s = s := by
  simp [judged, h]

@[simp] theorem slotOf_val (c : Fin 8) : slotOf c = c := Fin.ext (Nat.mod_eq_of_lt c.isLt)

/-! ## The store where no word is in error -/

section
variable {s : State} (h : s.store.errors = [])
include h

theorem setItem_clean (i : Item) (v : Int) :
    setItem i v s = { s with contracts := { s.contracts with contract := writeItem s.contracts.contract i v } } := by
  unfold setItem; exact wrote_clean (by exact h) _

theorem setNomination_clean (c : Fin 8) (n : Nat) :
    setNomination c n s = setConsumer c { consumer s c with nomination := n } s := by
  unfold setNomination; exact wrote_clean (by exact h) _

theorem clearDamageMark_clean (c : Fin 8) :
    clearDamageMark c s = setConsumer c { consumer s c with damageMark := false } s := by
  unfold clearDamageMark; exact wrote_clean (by exact h) _

theorem bumpRevision_clean :
    bumpRevision s = { s with contracts := { s.contracts with
      revision := (s.contracts.revision + 1) % Config.revisionModulus } } := by
  unfold bumpRevision; exact wrote_clean (by exact h) _

theorem setProposals_clean (l : List Proposal) :
    setProposals l s = { s with contracts := { s.contracts with proposals := l } } := by
  unfold setProposals setProposalsFrom; exact wroteAll_clean (by exact h) _

theorem setSchedule_clean (l : List ScheduleEntry) :
    setSchedule l s = { s with exports := { s.exports with schedule := l } } := by
  unfold setSchedule setScheduleFrom; exact wroteAll_clean (by exact h) _

theorem setLatch_clean (l : Option Latch) : setLatch l s = { s with exports := { s.exports with latch := l } } := by
  unfold setLatch; exact wrote_clean (by exact h) _

theorem setLocked_clean (b : Bool) : setLocked b s = { s with contracts := { s.contracts with locked := b } } := by
  unfold setLocked; exact wrote_clean (by exact h) _

theorem setIdentity_clean (code : Nat) (name : List Byte) :
    setIdentity code name s = { s with contracts := { s.contracts with siteCode := code, siteName := name } } := by
  unfold setIdentity; exact wrote_clean (by exact h) _

theorem setNextProposal_clean (n : Nat) :
    setNextProposal n s = { s with contracts := { s.contracts with nextProposal := n } } := by
  unfold setNextProposal; exact wrote_clean (by exact h) _

theorem setCursor_clean (p : Party) (n : Nat) :
    setCursor p n s = { s with settlement := { s.settlement with
      cursors := s.settlement.cursors.set (partyIndex p) n } } := by
  unfold setCursor; exact wrote_clean (by exact h) _

theorem setGap_clean (p : Party) (b : Bool) :
    setGap p b s = { s with settlement := { s.settlement with
      gapMarks := s.settlement.gapMarks.set (partyIndex p) b } } := by
  unfold setGap; exact wrote_clean (by exact h) _

/-- In an empty ring the three cursors go to the next record number; otherwise none moves (R155). -/
theorem followNext_clean :
    followNext s = { s with settlement := { s.settlement with
      cursors := if s.settlement.archive.isEmpty then Vector.replicate 3 s.settlement.nextRecord
        else s.settlement.cursors } } := by
  have all : ((s.settlement.cursors.set (partyIndex .works) s.settlement.nextRecord).set (partyIndex .town)
      s.settlement.nextRecord).set (partyIndex .grid) s.settlement.nextRecord =
      Vector.replicate 3 s.settlement.nextRecord := by
    ext i hi
    simp only [partyIndex, Vector.getElem_set, Vector.getElem_replicate]
    (repeat' split) <;> first | rfl | (simp_all; omega)
  unfold followNext
  by_cases e : s.settlement.archive.isEmpty = true
  · rw [if_pos e, if_pos e, ← all]
    simp only [List.foldl]
    rw [setCursor_clean h .works, setCursor_clean (by exact h) .town, setCursor_clean (by exact h) .grid]
  · rw [if_neg e, if_neg e]

theorem setNextRecord_clean (n : Nat) :
    setNextRecord n s = { s with settlement := { s.settlement with
      nextRecord := n
      cursors := if s.settlement.archive.isEmpty then Vector.replicate 3 n else s.settlement.cursors } } := by
  unfold setNextRecord; rw [wrote_clean (by exact h)]; exact followNext_clean (by exact h)

theorem onOpen_clean (k : Fin 49) (f : OpenRecord → OpenRecord) :
    onOpen k f s = { s with settlement := { s.settlement with openRecord := s.settlement.openRecord.map f } } := by
  unfold onOpen
  split
  · rename_i e; rw [e]; simp only [Option.map_none]; rw [← e]
  · rename_i o e; rw [e]; exact wrote_clean (by exact h) _

@[simp] theorem onOpen_store_clean (k : Fin 49) (f : OpenRecord → OpenRecord) : (onOpen k f s).store = s.store := by
  rw [onOpen_clean h]

@[simp] theorem creditFlare_store_clean : (creditFlare s).store = s.store := by
  unfold creditFlare; simp [onOpen_store_clean h]

@[simp] theorem markEstimated_store_clean (ch : Fin 16) : (markEstimated ch s).store = s.store := by
  unfold markEstimated; (repeat' split) <;> simp [onOpen_store_clean h]

@[simp] theorem putInForce_store_clean (l : List (Item × Int)) : (putInForce l s).store = s.store := by
  unfold putInForce
  rw [foldl_keeps State.store _ (fun _ _ => by simp)]
  refine foldl_induct (fun t : State => t.store = s.store) _ _ (fun t ch _ ht => ?_) _ rfl
  rw [setItem_clean (by rw [ht, h]), ht]

end

/-! ## Triggers -/

section
variable (s : State)

@[simp] theorem setResult_triggers (r : Allocation) : (setResult r s).allocator.triggers = s.allocator.triggers := rfl
@[simp] theorem setResult_result (r : Allocation) : (setResult r s).allocator.result = r := rfl
@[simp] theorem setFlare_triggers (kw : Nat) : (setFlare kw s).allocator.triggers = s.allocator.triggers := rfl
@[simp] theorem trigger_triggers : (trigger s).allocator.triggers = s.allocator.triggers + 1 := rfl
@[simp] theorem takeTrigger_triggers : (takeTrigger s).allocator.triggers = s.allocator.triggers - 1 := rfl
@[simp] theorem trigger_result : (trigger s).allocator.result = s.allocator.result := rfl
@[simp] theorem takeTrigger_result : (takeTrigger s).allocator.result = s.allocator.result := rfl
@[simp] theorem releaseReservation_triggers (c : Fin 8) :
    (releaseReservation c s).allocator.triggers = s.allocator.triggers := rfl

@[simp] theorem creditFlare_triggers : (creditFlare s).allocator.triggers = s.allocator.triggers := by
  simp [creditFlare]

@[simp] theorem lowerGrant_triggers (c : Fin 8) (kw : Nat) :
    (lowerGrant c kw s).allocator.triggers = s.allocator.triggers := by
  unfold lowerGrant; split <;> simp

@[simp] theorem releaseGrant_triggers (c : Fin 8) : (releaseGrant c s).allocator.triggers = s.allocator.triggers := by
  simp [releaseGrant]

@[simp] theorem cutGrant_triggers (c : Fin 8) : (cutGrant c s).allocator.triggers = s.allocator.triggers := by
  unfold cutGrant; split <;> simp

@[simp] theorem cutLinked_triggers : (cutLinked s).allocator.triggers = s.allocator.triggers := by
  unfold cutLinked
  exact foldl_keeps (fun s : State => s.allocator.triggers) _ (fun _ _ => by split <;> simp) _ _

@[simp] theorem releaseForTrip_triggers (c : Fin 8) : (releaseForTrip c s).allocator.triggers = s.allocator.triggers := by
  unfold releaseForTrip; split <;> simp

@[simp] theorem tripBody_triggers (c : Fin 8) (cause : Cause) :
    (tripBody c cause s).allocator.triggers = s.allocator.triggers := by
  unfold tripBody
  extract_lets s'
  have h : s'.allocator.triggers = s.allocator.triggers := by simp [s']
  split
  · exact h
  · simp [h]

end

/-! ## The allocation event -/

/-- An event takes the flare credit and then the stages (R54). -/
theorem allocationEvent_clean {s : State} (h : s.store.errors = []) : allocationEvent s = runStages (creditFlare s) := by
  rw [allocationEvent, readAll_clean h]

end Sys2Proof.Machine
end

