-- ==== Sys2Proof/Laws/Allocate.lean ====
section
/-! SUPPORT. What an allocation event changes and what it leaves as it was (R54, R63, R64). -/

namespace Sys2Proof.Machine

/-! ## The stages touch consumer records and valve lines only -/

section
variable (s : State) (a : Nat)

theorem reserve_power : (reserve a s).state.power = s.power := by
  unfold reserve
  exact foldl_keeps (fun x : Reserving => x.state.power) _ (fun _ _ => by unfold reserveOne; split <;> simp) _ _

theorem shedding_power : (shedding a s).1.power = s.power := by
  unfold shedding
  exact foldl_keeps (fun x : State × List (Fin 8) => x.1.power) _ (fun _ _ => by unfold shedOne; split <;> simp) _ _

theorem planServed_power (r : Reserving) (l : List (Fin 8)) : (planServed a r s l).state.power = s.power := by
  unfold planServed; split <;> simp

theorem plan_power : (plan a s).state.power = s.power := by
  unfold plan
  extract_lets r x
  have hx : x.1.power = s.power := by
    unfold x
    rw [apply_ite Prod.fst, apply_ite State.power, shedding_power, ite_self]
    exact reserve_power s a
  clear_value x
  rw [apply_ite Plan.state, apply_ite State.power, planServed_power, hx, ite_self]

theorem reserve_freeIndex : (reserve a s).state.freeIndex = s.freeIndex := by
  unfold reserve
  exact foldl_keeps (fun x : Reserving => x.state.freeIndex) _ (fun _ _ => by unfold reserveOne; split <;> simp) _ _

theorem shedding_freeIndex : (shedding a s).1.freeIndex = s.freeIndex := by
  unfold shedding
  exact foldl_keeps (fun x : State × List (Fin 8) => x.1.freeIndex) _ (fun _ _ => by unfold shedOne; split <;> simp) _ _

theorem planServed_freeIndex (r : Reserving) (l : List (Fin 8)) : (planServed a r s l).state.freeIndex = s.freeIndex := by
  unfold planServed; split <;> simp

theorem plan_freeIndex : (plan a s).state.freeIndex = s.freeIndex := by
  unfold plan
  extract_lets r x
  have hx : x.1.freeIndex = s.freeIndex := by
    unfold x
    rw [apply_ite Prod.fst, apply_ite State.freeIndex, shedding_freeIndex, ite_self]
    exact reserve_freeIndex s a
  clear_value x
  rw [apply_ite Plan.state, apply_ite State.freeIndex, planServed_freeIndex, hx, ite_self]

theorem reserve_field : (reserve a s).state.field = s.field := by
  unfold reserve
  exact foldl_keeps (fun x : Reserving => x.state.field) _ (fun _ _ => by unfold reserveOne; split <;> simp) _ _

theorem shedding_field : (shedding a s).1.field = s.field := by
  unfold shedding
  exact foldl_keeps (fun x : State × List (Fin 8) => x.1.field) _ (fun _ _ => by unfold shedOne; split <;> simp) _ _

theorem planServed_field (r : Reserving) (l : List (Fin 8)) : (planServed a r s l).state.field = s.field := by
  unfold planServed; split <;> simp

theorem plan_field : (plan a s).state.field = s.field := by
  unfold plan
  extract_lets r x
  have hx : x.1.field = s.field := by
    unfold x
    rw [apply_ite Prod.fst, apply_ite State.field, shedding_field, ite_self]
    exact reserve_field s a
  clear_value x
  rw [apply_ite Plan.state, apply_ite State.field, planServed_field, hx, ite_self]

theorem reserve_metering : (reserve a s).state.metering = s.metering := by
  unfold reserve
  exact foldl_keeps (fun x : Reserving => x.state.metering) _ (fun _ _ => by unfold reserveOne; split <;> simp) _ _

theorem shedding_metering : (shedding a s).1.metering = s.metering := by
  unfold shedding
  exact foldl_keeps (fun x : State × List (Fin 8) => x.1.metering) _ (fun _ _ => by unfold shedOne; split <;> simp) _ _

theorem planServed_metering (r : Reserving) (l : List (Fin 8)) : (planServed a r s l).state.metering = s.metering := by
  unfold planServed; split <;> simp

theorem plan_metering : (plan a s).state.metering = s.metering := by
  unfold plan
  extract_lets r x
  have hx : x.1.metering = s.metering := by
    unfold x
    rw [apply_ite Prod.fst, apply_ite State.metering, shedding_metering, ite_self]
    exact reserve_metering s a
  clear_value x
  rw [apply_ite Plan.state, apply_ite State.metering, planServed_metering, hx, ite_self]

theorem reserve_band : (reserve a s).state.band = s.band := by
  unfold reserve
  exact foldl_keeps (fun x : Reserving => x.state.band) _ (fun _ _ => by unfold reserveOne; split <;> simp) _ _

theorem shedding_band : (shedding a s).1.band = s.band := by
  unfold shedding
  exact foldl_keeps (fun x : State × List (Fin 8) => x.1.band) _ (fun _ _ => by unfold shedOne; split <;> simp) _ _

theorem planServed_band (r : Reserving) (l : List (Fin 8)) : (planServed a r s l).state.band = s.band := by
  unfold planServed; split <;> simp

theorem plan_band : (plan a s).state.band = s.band := by
  unfold plan
  extract_lets r x
  have hx : x.1.band = s.band := by
    unfold x
    rw [apply_ite Prod.fst, apply_ite State.band, shedding_band, ite_self]
    exact reserve_band s a
  clear_value x
  rw [apply_ite Plan.state, apply_ite State.band, planServed_band, hx, ite_self]

theorem reserve_allocator : (reserve a s).state.allocator = s.allocator := by
  unfold reserve
  exact foldl_keeps (fun x : Reserving => x.state.allocator) _ (fun _ _ => by unfold reserveOne; split <;> simp) _ _

theorem shedding_allocator : (shedding a s).1.allocator = s.allocator := by
  unfold shedding
  exact foldl_keeps (fun x : State × List (Fin 8) => x.1.allocator) _ (fun _ _ => by unfold shedOne; split <;> simp) _ _

theorem planServed_allocator (r : Reserving) (l : List (Fin 8)) : (planServed a r s l).state.allocator = s.allocator := by
  unfold planServed; split <;> simp

theorem plan_allocator : (plan a s).state.allocator = s.allocator := by
  unfold plan
  extract_lets r x
  have hx : x.1.allocator = s.allocator := by
    unfold x
    rw [apply_ite Prod.fst, apply_ite State.allocator, shedding_allocator, ite_self]
    exact reserve_allocator s a
  clear_value x
  rw [apply_ite Plan.state, apply_ite State.allocator, planServed_allocator, hx, ite_self]

theorem reserve_exports : (reserve a s).state.exports = s.exports := by
  unfold reserve
  exact foldl_keeps (fun x : Reserving => x.state.exports) _ (fun _ _ => by unfold reserveOne; split <;> simp) _ _

theorem shedding_exports : (shedding a s).1.exports = s.exports := by
  unfold shedding
  exact foldl_keeps (fun x : State × List (Fin 8) => x.1.exports) _ (fun _ _ => by unfold shedOne; split <;> simp) _ _

theorem planServed_exports (r : Reserving) (l : List (Fin 8)) : (planServed a r s l).state.exports = s.exports := by
  unfold planServed; split <;> simp

theorem plan_exports : (plan a s).state.exports = s.exports := by
  unfold plan
  extract_lets r x
  have hx : x.1.exports = s.exports := by
    unfold x
    rw [apply_ite Prod.fst, apply_ite State.exports, shedding_exports, ite_self]
    exact reserve_exports s a
  clear_value x
  rw [apply_ite Plan.state, apply_ite State.exports, planServed_exports, hx, ite_self]

theorem reserve_contracts : (reserve a s).state.contracts = s.contracts := by
  unfold reserve
  exact foldl_keeps (fun x : Reserving => x.state.contracts) _ (fun _ _ => by unfold reserveOne; split <;> simp) _ _

theorem shedding_contracts : (shedding a s).1.contracts = s.contracts := by
  unfold shedding
  exact foldl_keeps (fun x : State × List (Fin 8) => x.1.contracts) _ (fun _ _ => by unfold shedOne; split <;> simp) _ _

theorem planServed_contracts (r : Reserving) (l : List (Fin 8)) : (planServed a r s l).state.contracts = s.contracts := by
  unfold planServed; split <;> simp

theorem plan_contracts : (plan a s).state.contracts = s.contracts := by
  unfold plan
  extract_lets r x
  have hx : x.1.contracts = s.contracts := by
    unfold x
    rw [apply_ite Prod.fst, apply_ite State.contracts, shedding_contracts, ite_self]
    exact reserve_contracts s a
  clear_value x
  rw [apply_ite Plan.state, apply_ite State.contracts, planServed_contracts, hx, ite_self]

theorem reserve_settlement : (reserve a s).state.settlement = s.settlement := by
  unfold reserve
  exact foldl_keeps (fun x : Reserving => x.state.settlement) _ (fun _ _ => by unfold reserveOne; split <;> simp) _ _

theorem shedding_settlement : (shedding a s).1.settlement = s.settlement := by
  unfold shedding
  exact foldl_keeps (fun x : State × List (Fin 8) => x.1.settlement) _ (fun _ _ => by unfold shedOne; split <;> simp) _ _

theorem planServed_settlement (r : Reserving) (l : List (Fin 8)) : (planServed a r s l).state.settlement = s.settlement := by
  unfold planServed; split <;> simp

theorem plan_settlement : (plan a s).state.settlement = s.settlement := by
  unfold plan
  extract_lets r x
  have hx : x.1.settlement = s.settlement := by
    unfold x
    rw [apply_ite Prod.fst, apply_ite State.settlement, shedding_settlement, ite_self]
    exact reserve_settlement s a
  clear_value x
  rw [apply_ite Plan.state, apply_ite State.settlement, planServed_settlement, hx, ite_self]

theorem reserve_store : (reserve a s).state.store = s.store := by
  unfold reserve
  exact foldl_keeps (fun x : Reserving => x.state.store) _ (fun _ _ => by unfold reserveOne; split <;> simp) _ _

theorem shedding_store : (shedding a s).1.store = s.store := by
  unfold shedding
  exact foldl_keeps (fun x : State × List (Fin 8) => x.1.store) _ (fun _ _ => by unfold shedOne; split <;> simp) _ _

theorem planServed_store (r : Reserving) (l : List (Fin 8)) : (planServed a r s l).state.store = s.store := by
  unfold planServed; split <;> simp

theorem plan_store : (plan a s).state.store = s.store := by
  unfold plan
  extract_lets r x
  have hx : x.1.store = s.store := by
    unfold x
    rw [apply_ite Prod.fst, apply_ite State.store, shedding_store, ite_self]
    exact reserve_store s a
  clear_value x
  rw [apply_ite Plan.state, apply_ite State.store, planServed_store, hx, ite_self]

theorem reserve_links : (reserve a s).state.links = s.links := by
  unfold reserve
  exact foldl_keeps (fun x : Reserving => x.state.links) _ (fun _ _ => by unfold reserveOne; split <;> simp) _ _

theorem shedding_links : (shedding a s).1.links = s.links := by
  unfold shedding
  exact foldl_keeps (fun x : State × List (Fin 8) => x.1.links) _ (fun _ _ => by unfold shedOne; split <;> simp) _ _

theorem planServed_links (r : Reserving) (l : List (Fin 8)) : (planServed a r s l).state.links = s.links := by
  unfold planServed; split <;> simp

theorem plan_links : (plan a s).state.links = s.links := by
  unfold plan
  extract_lets r x
  have hx : x.1.links = s.links := by
    unfold x
    rw [apply_ite Prod.fst, apply_ite State.links, shedding_links, ite_self]
    exact reserve_links s a
  clear_value x
  rw [apply_ite Plan.state, apply_ite State.links, planServed_links, hx, ite_self]

theorem reserve_pending : (reserve a s).state.pending = s.pending := by
  unfold reserve
  exact foldl_keeps (fun x : Reserving => x.state.pending) _ (fun _ _ => by unfold reserveOne; split <;> simp) _ _

theorem shedding_pending : (shedding a s).1.pending = s.pending := by
  unfold shedding
  exact foldl_keeps (fun x : State × List (Fin 8) => x.1.pending) _ (fun _ _ => by unfold shedOne; split <;> simp) _ _

theorem planServed_pending (r : Reserving) (l : List (Fin 8)) : (planServed a r s l).state.pending = s.pending := by
  unfold planServed; split <;> simp

theorem plan_pending : (plan a s).state.pending = s.pending := by
  unfold plan
  extract_lets r x
  have hx : x.1.pending = s.pending := by
    unfold x
    rw [apply_ite Prod.fst, apply_ite State.pending, shedding_pending, ite_self]
    exact reserve_pending s a
  clear_value x
  rw [apply_ite Plan.state, apply_ite State.pending, planServed_pending, hx, ite_self]

end

/-! ## The event as a whole -/

section
variable (s : State)

@[simp] theorem runStages_power : (runStages s).power = s.power := by
  unfold runStages
  rw [eventEvaluations_power, eventNotices_power]
  unfold applyPlan
  rw [startPeriod_power, setFlare_power, setResult_power, plan_power]

@[simp] theorem runStages_freeIndex : (runStages s).freeIndex = s.freeIndex := by
  unfold runStages
  rw [eventEvaluations_freeIndex, eventNotices_freeIndex]
  unfold applyPlan
  rw [startPeriod_freeIndex, setFlare_freeIndex, setResult_freeIndex, plan_freeIndex]

@[simp] theorem runStages_field : (runStages s).field = s.field := by
  unfold runStages
  rw [eventEvaluations_field, eventNotices_field]
  unfold applyPlan
  rw [startPeriod_field, setFlare_field, setResult_field, plan_field]

@[simp] theorem runStages_metering : (runStages s).metering = s.metering := by
  unfold runStages
  rw [eventEvaluations_metering, eventNotices_metering]
  unfold applyPlan
  rw [startPeriod_metering, setFlare_metering, setResult_metering, plan_metering]

@[simp] theorem runStages_band : (runStages s).band = s.band := by
  unfold runStages
  rw [eventEvaluations_band, eventNotices_band]
  unfold applyPlan
  rw [startPeriod_band, setFlare_band, setResult_band, plan_band]

@[simp] theorem runStages_exports : (runStages s).exports = s.exports := by
  unfold runStages
  rw [eventEvaluations_exports, eventNotices_exports]
  unfold applyPlan
  rw [startPeriod_exports, setFlare_exports, setResult_exports, plan_exports]

@[simp] theorem runStages_contracts : (runStages s).contracts = s.contracts := by
  unfold runStages
  rw [eventEvaluations_contracts, eventNotices_contracts]
  unfold applyPlan
  rw [startPeriod_contracts, setFlare_contracts, setResult_contracts, plan_contracts]

@[simp] theorem runStages_settlement : (runStages s).settlement = s.settlement := by
  unfold runStages
  rw [eventEvaluations_settlement, eventNotices_settlement]
  unfold applyPlan
  rw [startPeriod_settlement, setFlare_settlement, setResult_settlement, plan_settlement]

@[simp] theorem runStages_store : (runStages s).store = s.store := by
  unfold runStages
  rw [eventEvaluations_store, eventNotices_store]
  unfold applyPlan
  rw [startPeriod_store, setFlare_store, setResult_store, plan_store]

@[simp] theorem runStages_pending : (runStages s).pending = s.pending := by
  unfold runStages
  rw [eventEvaluations_pending, eventNotices_pending]
  unfold applyPlan
  rw [startPeriod_pending, setFlare_pending, setResult_pending, plan_pending]

end
/-! ## The result (R63) -/

section
variable (s : State)

theorem runStages_allocator : (runStages s).allocator =
    (applyPlan (plan (availableRate s) s) s).allocator := by
  unfold runStages
  rw [eventEvaluations_allocator, eventNotices_allocator]

/-- The result that an event leaves is the plan's, with the flare demand of stage 6 (R63). -/
theorem runStages_result : (runStages s).allocator.result =
    { planResult (plan (availableRate s) s) s (availableRate s) with
      flareDemand := if s.band = .highHigh then (plan (availableRate s) s).surplus else 0 } := by
  rw [runStages_allocator]
  generalize plan (availableRate s) s = p
  rfl

@[simp] theorem runStages_base : (runStages s).allocator.base = s.allocator.base := by
  rw [runStages_allocator]
  have ha := plan_allocator s (availableRate s)
  revert ha; generalize plan (availableRate s) s = p; intro ha
  show p.state.allocator.base = _
  rw [ha]

@[simp] theorem runStages_triggers : (runStages s).allocator.triggers = s.allocator.triggers := by
  rw [runStages_allocator]
  have ha := plan_allocator s (availableRate s)
  revert ha; generalize plan (availableRate s) s = p; intro ha
  show p.state.allocator.triggers = _
  rw [ha]

/-- The period timer is restarted at every event (R51). -/
theorem runStages_timer : (runStages s).allocator.timer =
    { start := s.allocator.base, length := 1000 * itemNat s .allocationPeriod } := by
  rw [runStages_allocator]
  have ha := plan_allocator s (availableRate s)
  have hc := plan_contracts s (availableRate s)
  revert ha hc; generalize plan (availableRate s) s = p; intro ha hc
  show Timer.mk p.state.allocator.base (1000 * itemNat p.state .allocationPeriod) = _
  rw [ha, itemNat_eq (s := s) (t := p.state) (by rw [hc])]

end

/-- A command that hands one trigger over is followed by one event (R53). -/
theorem settle_one {s : State} (h : s.store.errors = []) (ht : s.allocator.triggers = 1) :
    settle s = runStages (creditFlare (takeTrigger s)) := by
  have h1 : (takeTrigger s).store.errors = [] := h
  have h2 : (runStages (creditFlare (takeTrigger s))).allocator.triggers = 0 := by simp [ht]
  unfold settle
  rw [ht, h]
  simp only [List.length_nil, Nat.add_zero, takeTriggers, ht, Nat.one_ne_zero, if_false]
  exact allocationEvent_clean h1

/-! ## Consumers -/

@[simp] theorem withTimers_trans (a b c : Consumer) : withTimers (withTimers a b) c = withTimers a c := rfl
@[simp] theorem withTimers_self (a : Consumer) : withTimers a a = a := rfl

/-- An evaluation point changes nothing but four timers of its consumer (R88). -/
theorem consumer_evaluate (c d : Fin 8) (s : State) :
    consumer (evaluate c s) d = withTimers (consumer s d) (consumer (evaluate c s) d) := by
  by_cases h : d = c
  · subst h; simp [evaluate, evaluated, withTimers]
  · simp [evaluate, h]

theorem consumer_evaluateSome (c : Option (Fin 8)) (d : Fin 8) (s : State) :
    consumer (evaluateSome c s) d = withTimers (consumer s d) (consumer (evaluateSome c s) d) := by
  cases c with
  | none => rfl
  | some c => exact consumer_evaluate c d s

theorem consumer_eventEvaluations (p : Plan) (b s : State) (d : Fin 8) :
    consumer (eventEvaluations p b s) d =
      withTimers (consumer s d) (consumer (eventEvaluations p b s) d) := by
  unfold eventEvaluations
  refine foldl_induct (fun t : State => consumer t d = withTimers (consumer s d) (consumer t d)) _ _ (fun t c _ h => ?_) _ rfl
  split
  · rw [consumer_evaluate, h]; rfl
  · exact h

/-- An event leaves each consumer as its stages do, but for the four timers (R63, R64). -/
theorem consumer_runStages (s : State) (d : Fin 8) :
    consumer (runStages s) d =
      withTimers (consumer (plan (availableRate s) s).state d) (consumer (runStages s) d) := by
  unfold runStages
  generalize plan (availableRate s) s = p
  have h : (applyPlan p s).supervisor = p.state.supervisor := by unfold applyPlan; simp
  have h1 := consumer_eventEvaluations p s (eventNotices p s.allocator.result.grants (applyPlan p s)) d
  have h2 : consumer (eventNotices p s.allocator.result.grants (applyPlan p s)) d = consumer p.state d := by
    rw [consumer_eq (eventNotices_supervisor _ _ _), consumer_eq h]
  rw [h2] at h1
  exact h1

/-- Stage 1 changes a purge target, a reservation status and a shed flag, of candidates alone (R58). -/
theorem consumer_reserve (a : Nat) (s : State) (d : Fin 8) :
    (consumer (reserve a s).state d = withPurge (consumer s d) (consumer (reserve a s).state d)) ∧
    (isCandidate s d = false → consumer (reserve a s).state d = consumer s d) := by
  unfold reserve
  refine foldl_induct (fun x : Reserving =>
    consumer x.state d = withPurge (consumer s d) (consumer x.state d) ∧
    (isCandidate s d = false → consumer x.state d = consumer s d)) _ _ (fun x c hc h => ?_) _ ⟨rfl, fun _ => rfl⟩
  have hc : isCandidate s c = true := by
    simp only [byClass, List.mem_flatMap, List.mem_filter, Bool.and_eq_true] at hc
    obtain ⟨_, _, _, _, hc⟩ := hc
    exact hc
  by_cases e : d = c
  · subst e
    refine ⟨?_, fun hn => by rw [hc] at hn; cases hn⟩
    unfold reserveOne
    split
    · simp only [consumer_setConsumer_same]; rw [h.1]; rfl
    · simp only [consumer_setConsumer_same]; unfold losing; rw [h.1]; rfl
  · unfold reserveOne
    split
    · simpa only [consumer_setConsumer_ne e] using h
    · simpa only [consumer_setConsumer_ne e] using h

/-- Stage 1 leaves every state as it was (R58). -/
theorem lit_reserve (a : Nat) (s : State) (d : Fin 8) : lit (reserve a s).state d = lit s d := by
  unfold lit; rw [(consumer_reserve a s d).1]; rfl

/-- Stage 2 touches ACTIVE consumers alone (R59). -/
theorem consumer_shedding (a : Nat) (s : State) {d : Fin 8} (h : lit s d = false) :
    consumer (shedding a s).1 d = consumer s d := by
  unfold shedding
  refine foldl_induct (fun x : State × List (Fin 8) => consumer x.1 d = consumer s d) _ _ (fun x c hc hx => ?_) _ rfl
  have hc : lit s c = true := by
    simp only [shedOrder, List.mem_flatMap, List.mem_filter, Bool.and_eq_true] at hc
    obtain ⟨_, _, _, _, hc⟩ := hc
    exact hc
  have e : d ≠ c := by rintro rfl; rw [hc] at h; cases h
  unfold shedOne
  split
  · rw [consumer_putConsumer_ne e]; exact hx
  · exact hx

theorem toRestore_waiting {a r : Nat} {s : State} {c : Fin 8} (h : toRestore a r s = some c) : isWaiting s c = true := by
  unfold toRestore at h
  split at h
  · cases h
  · rename_i c' l e
    split at h
    · injection h with h
      have hm : c' ∈ byClass s (isWaiting s) := by rw [e]; exact List.mem_cons_self ..
      simp only [byClass, List.mem_flatMap, List.mem_filter, Bool.and_eq_true] at hm
      obtain ⟨_, _, _, _, hm⟩ := hm
      rw [← h]; exact hm
    · cases h

/-- Stage 4 touches a waiting consumer alone (R61). -/
theorem consumer_planServed (a : Nat) (r : Reserving) (s : State) (l : List (Fin 8)) {d : Fin 8}
    (h : isWaiting s d = false) : consumer (planServed a r s l).state d = consumer s d := by
  unfold planServed
  split
  · rename_i c e
    have hw : isWaiting s c = true := by
      split at e
      · exact toRestore_waiting e
      · cases e
    have e' : d ≠ c := by rintro rfl; rw [hw] at h; cases h
    exact consumer_putConsumer_ne e' _ _
  · rfl

/-- The stages leave a consumer that is neither ACTIVE nor waiting as stage 1 does (R57). -/
theorem consumer_plan (a : Nat) (s : State) {d : Fin 8} (hl : lit s d = false) (hw : (consumer s d).state ≠ .backup ∧
    (consumer s d).state ≠ .shed) : consumer (plan a s).state d = consumer (reserve a s).state d := by
  unfold plan
  extract_lets r x
  have hx : consumer x.1 d = consumer r.state d := by
    unfold x
    rw [apply_ite Prod.fst, apply_ite (fun s => consumer s d), consumer_shedding _ _ (by rw [lit_reserve, hl]), ite_self]
  have hs : (consumer r.state d).state = (consumer s d).state := by rw [(consumer_reserve a s d).1]; rfl
  have hwx : isWaiting x.1 d = false := by
    unfold isWaiting; rw [hx, hs]
    cases e : (consumer s d).state <;> simp_all
  clear_value x
  rw [apply_ite Plan.state, apply_ite (fun s => consumer s d), consumer_planServed _ _ _ _ hwx, hx, ite_self]

/-- A consumer in OFF or TRIPPED takes no part in an event; one in PURGING keeps everything but target, reservation status
and shed flag (R57, R58). -/
theorem event_keeps (s : State) {d : Fin 8} (h : (consumer s d).state = .off ∨ (consumer s d).state = .tripped ∨
    (consumer s d).state = .purging) :
    consumer (runStages s) d =
      withTimers (withPurge (consumer s d) (consumer (runStages s) d)) (consumer (runStages s) d) := by
  have hl : lit s d = false := by unfold lit; rcases h with h | h | h <;> rw [h] <;> rfl
  have hw : (consumer s d).state ≠ .backup ∧ (consumer s d).state ≠ .shed := by
    rcases h with h | h | h <;> rw [h] <;> decide
  have h1 := consumer_runStages s d
  rw [consumer_plan _ s hl hw, (consumer_reserve _ s d).1] at h1
  generalize consumer (runStages s) d = r at h1 ⊢
  generalize consumer (reserve (availableRate s) s).state d = w at h1
  have e : withPurge (consumer s d) r = withPurge (consumer s d) w := by rw [h1]; rfl
  rw [e]; exact h1

/-- A consumer that is not ACTIVE, not waiting and not purging toward ACTIVE keeps all but its timers (R57). -/
theorem event_leaves (s : State) {d : Fin 8} (h : (consumer s d).state = .off ∨ (consumer s d).state = .tripped ∨
    (consumer s d).state = .purging) (hc : isCandidate s d = false) :
    consumer (runStages s) d = withTimers (consumer s d) (consumer (runStages s) d) := by
  have hl : lit s d = false := by unfold lit; rcases h with h | h | h <;> rw [h] <;> rfl
  have hw : (consumer s d).state ≠ .backup ∧ (consumer s d).state ≠ .shed := by
    rcases h with h | h | h <;> rw [h] <;> decide
  have h1 := consumer_runStages s d
  rw [consumer_plan _ s hl hw, (consumer_reserve _ s d).2 hc] at h1
  exact h1

end Sys2Proof.Machine
end

