-- ==== Sys2Proof/Laws/PerInstr.lean ====
section
/-! SUPPORT. The family of statements made for each command: a well-formed request is read back from the body that encodes
it, every field at its value (Table 10-6-2). A command that is no request has no body. -/

namespace Sys2Proof.Laws

open Sys2Proof Sys2Proof.Machine

/-! ## Fields of a body -/

theorem natOfBytes_single (b : Byte) : natOfBytes [b] = b.toNat := by simp [natOfBytes]

/-- Fields after a run of bytes are the fields of what follows. -/
theorem fieldAt_append (pre body : List Byte) (i n : Nat) : fieldAt (pre ++ body) (pre.length + i) n = fieldAt body i n := by
  unfold fieldAt
  congr 1
  apply List.map_congr_left
  intro k _
  simp only [List.getD_eq_getElem?_getD]
  rw [Nat.add_assoc, List.getElem?_append_right (Nat.le_add_right _ _), Nat.add_sub_cancel_left]

theorem nameAt_append (pre body : List Byte) (i : Nat) : nameAt (pre ++ body) (pre.length + i) = nameAt body i := by
  unfold nameAt
  rw [fieldAt_append, Nat.add_assoc, fieldAt_append, Nat.add_assoc, fieldAt_append]

theorem toNat_byte {n : Nat} (h : n < 256) : (BitVec.ofNat 8 n).toNat = n := by simp [BitVec.toNat_ofNat]; omega

theorem natOfInt_lt (k : Nat) (i : Int) : natOfInt k i < 2 ^ (8 * k) := by
  unfold natOfInt
  have : (0 : Int) < ((2 ^ (8 * k) : Nat) : Int) := by exact_mod_cast Nat.two_pow_pos _
  have h := Int.emod_lt_of_pos i this
  have h0 := Int.emod_nonneg i (Int.ne_of_gt this)
  omega

/-- Two's complement is read back (R192). -/
theorem intOfNat_natOfInt_one {i : Int} (h : fitsSigned 1 i = true) : intOfNat 1 (natOfInt 1 i) = i := by
  simp only [fitsSigned, Bool.and_eq_true, decide_eq_true_eq] at h
  have h' : -128 ≤ i ∧ i < 128 := h
  have e : intOfNat 1 (natOfInt 1 i) = if (i % 256).toNat < 128 then ((i % 256).toNat : Int) else (i % 256).toNat - 256 := rfl
  rw [e]
  split <;> omega

theorem intOfNat_natOfInt_four {i : Int} (h : fitsSigned 4 i = true) : intOfNat 4 (natOfInt 4 i) = i := by
  simp only [fitsSigned, Bool.and_eq_true, decide_eq_true_eq] at h
  have h' : -2147483648 ≤ i ∧ i < 2147483648 := h
  have e : intOfNat 4 (natOfInt 4 i) =
      if (i % 4294967296).toNat < 2147483648 then ((i % 4294967296).toNat : Int) else (i % 4294967296).toNat - 4294967296 := rfl
  rw [e]
  split <;> omega

theorem bytesOfNat_two (n : Nat) : bytesOfNat 2 n = [BitVec.ofNat 8 (n / 256), BitVec.ofNat 8 n] := rfl

theorem bytesOfNat_four (n : Nat) : bytesOfNat 4 n =
    [BitVec.ofNat 8 (n / 256 / 256 / 256), BitVec.ofNat 8 (n / 256 / 256), BitVec.ofNat 8 (n / 256), BitVec.ofNat 8 n] := rfl

theorem bytesOfNat_six (n : Nat) : bytesOfNat 6 n =
    [BitVec.ofNat 8 (n / 256 / 256 / 256 / 256 / 256), BitVec.ofNat 8 (n / 256 / 256 / 256 / 256),
     BitVec.ofNat 8 (n / 256 / 256 / 256), BitVec.ofNat 8 (n / 256 / 256), BitVec.ofNat 8 (n / 256), BitVec.ofNat 8 n] := rfl

theorem fieldAt_one (body : List Byte) (i : Nat) : fieldAt body i 1 = (body.getD i 0).toNat := by
  simp [fieldAt, natOfBytes, List.range_succ]

theorem fieldAt_two (body : List Byte) (i : Nat) :
    fieldAt body i 2 = 256 * (body.getD i 0).toNat + (body.getD (i + 1) 0).toNat := by
  simp [fieldAt, natOfBytes, List.range_succ]

theorem fieldAt_four (body : List Byte) (i : Nat) :
    fieldAt body i 4 = 256 * (256 * (256 * (body.getD i 0).toNat + (body.getD (i + 1) 0).toNat) +
      (body.getD (i + 2) 0).toNat) + (body.getD (i + 3) 0).toNat := by
  simp [fieldAt, natOfBytes, List.range_succ]

theorem fieldAt_six (body : List Byte) (i : Nat) :
    fieldAt body i 6 = 256 * (256 * (256 * (256 * (256 * (body.getD i 0).toNat + (body.getD (i + 1) 0).toNat) +
      (body.getD (i + 2) 0).toNat) + (body.getD (i + 3) 0).toNat) + (body.getD (i + 4) 0).toNat) +
      (body.getD (i + 5) 0).toNat := by
  simp [fieldAt, natOfBytes, List.range_succ]

theorem fits_one {n : Nat} (h : fits 1 n = true) : n < 256 := by simpa [fits] using h
theorem fits_two {n : Nat} (h : fits 2 n = true) : n < 65536 := by simpa [fits] using h
theorem fits_four {n : Nat} (h : fits 4 n = true) : n < 4294967296 := by simpa [fits] using h
theorem fits_six {n : Nat} (h : fits 6 n = true) : n < 281474976710656 := by simpa [fits] using h

theorem name_fits {n : ItemName} (h : nameFits n = true) : n.group < 256 ∧ n.index < 256 ∧ n.item < 256 := by
  simpa [nameFits, fits, and_assoc] using h

/-! ## The items of PROPOSE -/

/-- The seven bytes of an item and its value. -/
def itemBytes (e : ItemName × Int) : List Byte := nameBytes e.1 ++ intBytes 4 e.2

theorem item_readBack {e : ItemName × Int} (hn : nameFits e.1 = true) (hv : fitsSigned 4 e.2 = true) (rest : List Byte) :
    (nameAt (itemBytes e ++ rest) 0, intOfNat 4 (fieldAt (itemBytes e ++ rest) 3 4)) = e := by
  obtain ⟨⟨g, i, k⟩, v⟩ := e
  obtain ⟨hg, hi, hk⟩ := name_fits hn
  have hlt : natOfInt 4 v < 4294967296 := natOfInt_lt 4 v
  have h4 := intOfNat_natOfInt_four hv
  refine Prod.ext ?_ ?_
  · simp only [nameAt, fieldAt_one, itemBytes, nameBytes, List.cons_append, List.nil_append, List.getD_cons_zero,
      List.getD_cons_succ, ItemName.mk.injEq]
    exact ⟨toNat_byte hg, toNat_byte hi, toNat_byte hk⟩
  · refine Eq.trans (congrArg (intOfNat 4) ?_) h4
    simp only [fieldAt_four, itemBytes, nameBytes, intBytes, bytesOfNat_four, List.cons_append, List.nil_append,
      List.getD_cons_zero, List.getD_cons_succ, BitVec.toNat_ofNat]
    omega

/-- The items are read back one after another. -/
theorem items_readBack (items : List (ItemName × Int)) (h : items.all (fun e => nameFits e.1 && fitsSigned 4 e.2) = true)
    (pre : List Byte) (i : Nat) (hp : pre.length = 2 + 7 * i) :
    ((List.range items.length).map fun k => (nameAt (pre ++ items.flatMap itemBytes) (2 + 7 * (i + k)),
      intOfNat 4 (fieldAt (pre ++ items.flatMap itemBytes) (5 + 7 * (i + k)) 4))) = items := by
  induction items generalizing pre i with
  | nil => rfl
  | cons e rest ih =>
    rw [List.all_cons, Bool.and_eq_true, Bool.and_eq_true] at h
    rw [List.length_cons, List.range_succ_eq_map, List.map_cons, List.map_map, List.flatMap_cons]
    congr 1
    · have h1 : 2 + 7 * (i + 0) = pre.length + 0 := by omega
      have h2 : 5 + 7 * (i + 0) = pre.length + 3 := by omega
      rw [h1, h2, nameAt_append, fieldAt_append]
      exact item_readBack h.1.1 h.1.2 _
    · have hl : (pre ++ itemBytes e).length = 2 + 7 * (i + 1) := by
        simp [itemBytes, nameBytes, intBytes, bytesOfNat_four]; omega
      have := ih h.2 (pre ++ itemBytes e) (i + 1) hl
      rw [List.append_assoc] at this
      refine Eq.trans ?_ this
      apply List.map_congr_left
      intro k _
      simp only [Function.comp, Nat.succ_eq_add_one]
      rw [show i + 1 + k = i + (k + 1) by omega]

/-! ## A field written by the encoder, read back -/

theorem read_one (pre : List Byte) (n : Nat) (rest : List Byte) (h : n < 256) :
    fieldAt (pre ++ (BitVec.ofNat 8 n :: rest)) pre.length 1 = n := by
  have := fieldAt_append pre (BitVec.ofNat 8 n :: rest) 0 1
  rw [Nat.add_zero] at this
  rw [this, fieldAt_one]
  exact toNat_byte h

theorem read_two (pre : List Byte) (n : Nat) (rest : List Byte) (h : n < 65536) :
    fieldAt (pre ++ (bytesOfNat 2 n ++ rest)) pre.length 2 = n := by
  have := fieldAt_append pre (bytesOfNat 2 n ++ rest) 0 2
  rw [Nat.add_zero] at this
  rw [this]
  simp only [fieldAt_two, bytesOfNat_two, List.cons_append, List.nil_append, List.getD_cons_zero, List.getD_cons_succ,
    BitVec.toNat_ofNat]
  omega

theorem read_four (pre : List Byte) (n : Nat) (rest : List Byte) (h : n < 4294967296) :
    fieldAt (pre ++ (bytesOfNat 4 n ++ rest)) pre.length 4 = n := by
  have := fieldAt_append pre (bytesOfNat 4 n ++ rest) 0 4
  rw [Nat.add_zero] at this
  rw [this]
  simp only [fieldAt_four, bytesOfNat_four, List.cons_append, List.nil_append, List.getD_cons_zero, List.getD_cons_succ,
    BitVec.toNat_ofNat]
  omega

theorem read_six (pre : List Byte) (n : Nat) (rest : List Byte) (h : n < 281474976710656) :
    fieldAt (pre ++ (bytesOfNat 6 n ++ rest)) pre.length 6 = n := by
  have := fieldAt_append pre (bytesOfNat 6 n ++ rest) 0 6
  rw [Nat.add_zero] at this
  rw [this]
  simp only [fieldAt_six, bytesOfNat_six, List.cons_append, List.nil_append, List.getD_cons_zero, List.getD_cons_succ,
    BitVec.toNat_ofNat]
  omega

theorem read_name (pre : List Byte) (name : ItemName) (rest : List Byte) (h : nameFits name = true) :
    nameAt (pre ++ (nameBytes name ++ rest)) pre.length = name := by
  have := nameAt_append pre (nameBytes name ++ rest) 0
  rw [Nat.add_zero] at this
  rw [this]
  obtain ⟨g, i, k⟩ := name
  obtain ⟨hg, hi, hk⟩ := name_fits h
  simp only [nameAt, fieldAt_one, nameBytes, List.cons_append, List.nil_append, List.getD_cons_zero, List.getD_cons_succ,
    ItemName.mk.injEq]
  exact ⟨toNat_byte hg, toNat_byte hi, toNat_byte hk⟩

theorem read_int (pre : List Byte) (v : Int) (rest : List Byte) (h : fitsSigned 4 v = true) :
    intOfNat 4 (fieldAt (pre ++ (intBytes 4 v ++ rest)) pre.length 4) = v := by
  refine Eq.trans (congrArg (intOfNat 4) ?_) (intOfNat_natOfInt_four h)
  exact read_four pre (natOfInt 4 v) rest (natOfInt_lt 4 v)

/-- A run of characters is read back when its length is (R124). -/
theorem read_text (pre name : List Byte) (k : Nat) (h : k = name.length) :
    ((List.range k).map fun i => (pre ++ name).getD (pre.length + i) 0) = name := by
  subst h
  apply List.ext_getElem (by simp)
  intro i h1 h2
  simp [List.getD_eq_getElem?_getD, List.getElem?_append_right, h2]

/-! ## One lemma for each command -/

/-- What the family says of a command. -/
def Encoding.Statement (i : Instr) : Prop :=
  ∀ (f : Frame) (body : List Byte), i.wellFormed = true → encodeBody i = some (f, body) → f.length = body.length →
    decodeBody f body = i

theorem Encoding.start (f : Frame) (n : Nat) : Encoding.Statement (.start f n) := by
  intro f' body hw he _
  simp only [Instr.wellFormed, Bool.and_eq_true] at hw
  obtain ⟨rfl, rfl⟩ := Prod.mk.inj (Option.some.inj he)
  exact congrArg (Instr.start f) (read_one [_] n [] (fits_one hw.2))

theorem Encoding.stop (f : Frame) (n : Nat) : Encoding.Statement (.stop f n) := by
  intro f' body hw he _
  simp only [Instr.wellFormed, Bool.and_eq_true] at hw
  obtain ⟨rfl, rfl⟩ := Prod.mk.inj (Option.some.inj he)
  exact congrArg (Instr.stop f) (read_one [_] n [] (fits_one hw.2))

theorem Encoding.clear (f : Frame) (n : Nat) : Encoding.Statement (.clear f n) := by
  intro f' body hw he _
  simp only [Instr.wellFormed, Bool.and_eq_true] at hw
  obtain ⟨rfl, rfl⟩ := Prod.mk.inj (Option.some.inj he)
  exact congrArg (Instr.clear f) (read_one [_] n [] (fits_one hw.2))

theorem Encoding.fuelBackup (f : Frame) (n : Nat) : Encoding.Statement (.fuelBackup f n) := by
  intro f' body hw he _
  simp only [Instr.wellFormed, Bool.and_eq_true] at hw
  obtain ⟨rfl, rfl⟩ := Prod.mk.inj (Option.some.inj he)
  exact congrArg (Instr.fuelBackup f) (read_one [_] n [] (fits_one hw.2))

theorem Encoding.fuelGas (f : Frame) (n : Nat) : Encoding.Statement (.fuelGas f n) := by
  intro f' body hw he _
  simp only [Instr.wellFormed, Bool.and_eq_true] at hw
  obtain ⟨rfl, rfl⟩ := Prod.mk.inj (Option.some.inj he)
  exact congrArg (Instr.fuelGas f) (read_one [_] n [] (fits_one hw.2))

theorem Encoding.nominate (f : Frame) (c rate : Nat) : Encoding.Statement (.nominate f c rate) := by
  intro f' body hw he _
  simp only [Instr.wellFormed, Bool.and_eq_true] at hw
  obtain ⟨rfl, rfl⟩ := Prod.mk.inj (Option.some.inj he)
  exact congr (congrArg (Instr.nominate f) (read_one [_] c _ (fits_one hw.1.2))) (read_four [_, _] rate [] (fits_four hw.2))

theorem Encoding.schedule (f : Frame) (start kw : Nat) : Encoding.Statement (.schedule f start kw) := by
  intro f' body hw he _
  simp only [Instr.wellFormed, Bool.and_eq_true] at hw
  obtain ⟨rfl, rfl⟩ := Prod.mk.inj (Option.some.inj he)
  exact congr (congrArg (Instr.schedule f) (read_six [_] start _ (fits_six hw.1.2)))
    (read_four (_ :: bytesOfNat 6 start) kw [] (fits_four hw.2))

theorem Encoding.write (f : Frame) (name : ItemName) (v : Int) : Encoding.Statement (.write f name v) := by
  intro f' body hw he _
  simp only [Instr.wellFormed, Bool.and_eq_true] at hw
  obtain ⟨rfl, rfl⟩ := Prod.mk.inj (Option.some.inj he)
  exact congr (congrArg (Instr.write f) (read_name [_] name _ hw.1.2)) (read_int (_ :: nameBytes name) v [] hw.2)

theorem Encoding.writeIdentity (f : Frame) (code : Nat) (name : List Byte) :
    Encoding.Statement (.writeIdentity f code name) := by
  intro f' body hw he _
  simp only [Instr.wellFormed, Bool.and_eq_true] at hw
  obtain ⟨rfl, rfl⟩ := Prod.mk.inj (Option.some.inj he)
  have hl := read_one (BitVec.ofNat 8 codeWriteIdentity :: bytesOfNat 4 code) name.length name (fits_one hw.2)
  have hc := read_four [BitVec.ofNat 8 codeWriteIdentity] code (bytesOfNat 1 name.length ++ name) (fits_four hw.1.2)
  have ht := read_text (BitVec.ofNat 8 codeWriteIdentity :: bytesOfNat 4 code ++ bytesOfNat 1 name.length) name _ hl
  exact Eq.trans (congrArg (fun x => Instr.writeIdentity f x _) hc) (congrArg (Instr.writeIdentity f code) ht)

theorem Encoding.propose (f : Frame) (items : List (ItemName × Int)) : Encoding.Statement (.propose f items) := by
  intro f' body hw he _
  simp only [Instr.wellFormed, Bool.and_eq_true] at hw
  obtain ⟨rfl, rfl⟩ := Prod.mk.inj (Option.some.inj he)
  have hl := read_one [BitVec.ofNat 8 codePropose] items.length (items.flatMap itemBytes) (fits_one hw.1.2)
  refine congrArg (Instr.propose f) (Eq.trans (congrArg (itemsAt _) hl) ?_)
  have h := items_readBack items hw.2 (shortBody codePropose items.length) 0 rfl
  simp only [Nat.zero_add] at h
  exact h

theorem Encoding.concur (f : Frame) (n : Nat) : Encoding.Statement (.concur f n) := by
  intro f' body hw he _
  simp only [Instr.wellFormed, Bool.and_eq_true] at hw
  obtain ⟨rfl, rfl⟩ := Prod.mk.inj (Option.some.inj he)
  exact congrArg (Instr.concur f) (read_two [_] n [] (fits_two hw.2))

theorem Encoding.reject (f : Frame) (n : Nat) : Encoding.Statement (.reject f n) := by
  intro f' body hw he _
  simp only [Instr.wellFormed, Bool.and_eq_true] at hw
  obtain ⟨rfl, rfl⟩ := Prod.mk.inj (Option.some.inj he)
  exact congrArg (Instr.reject f) (read_two [_] n [] (fits_two hw.2))

theorem Encoding.withdraw (f : Frame) (n : Nat) : Encoding.Statement (.withdraw f n) := by
  intro f' body hw he _
  simp only [Instr.wellFormed, Bool.and_eq_true] at hw
  obtain ⟨rfl, rfl⟩ := Prod.mk.inj (Option.some.inj he)
  exact congrArg (Instr.withdraw f) (read_two [_] n [] (fits_two hw.2))

theorem Encoding.mask (f : Frame) (n : Nat) : Encoding.Statement (.mask f n) := by
  intro f' body hw he _
  simp only [Instr.wellFormed, Bool.and_eq_true] at hw
  obtain ⟨rfl, rfl⟩ := Prod.mk.inj (Option.some.inj he)
  exact congrArg (Instr.mask f) (read_two [_] n [] (fits_two hw.2))

theorem Encoding.writeClock (f : Frame) (n : Nat) : Encoding.Statement (.writeClock f n) := by
  intro f' body hw he _
  simp only [Instr.wellFormed, Bool.and_eq_true] at hw
  obtain ⟨rfl, rfl⟩ := Prod.mk.inj (Option.some.inj he)
  exact congrArg (Instr.writeClock f) (read_four [_] n [] (fits_four hw.2))

theorem Encoding.trim (f : Frame) (d : Int) : Encoding.Statement (.trim f d) := by
  intro f' body hw he _
  simp only [Instr.wellFormed, Bool.and_eq_true] at hw
  obtain ⟨rfl, rfl⟩ := Prod.mk.inj (Option.some.inj he)
  refine congrArg (Instr.trim f) (Eq.trans (congrArg (intOfNat 1) ?_) (intOfNat_natOfInt_one hw.2))
  exact read_one [_] _ [] (natOfInt_lt 1 d)

theorem Encoding.archive (f : Frame) : Encoding.Statement (.archive f) := by
  intro f' body _ he _
  obtain ⟨rfl, rfl⟩ := Prod.mk.inj (Option.some.inj he)
  rfl

theorem Encoding.cursorOldest (f : Frame) : Encoding.Statement (.cursorOldest f) := by
  intro f' body _ he _
  obtain ⟨rfl, rfl⟩ := Prod.mk.inj (Option.some.inj he)
  rfl

theorem Encoding.cursorNewest (f : Frame) : Encoding.Statement (.cursorNewest f) := by
  intro f' body _ he _
  obtain ⟨rfl, rfl⟩ := Prod.mk.inj (Option.some.inj he)
  rfl

theorem Encoding.notice (f : Frame) : Encoding.Statement (.notice f) := by
  intro f' body _ he _
  obtain ⟨rfl, rfl⟩ := Prod.mk.inj (Option.some.inj he)
  rfl

theorem Encoding.cursorNumber (f : Frame) (n : Nat) : Encoding.Statement (.cursorNumber f n) := by
  intro f' body hw he _
  simp only [Instr.wellFormed, Bool.and_eq_true] at hw
  obtain ⟨rfl, rfl⟩ := Prod.mk.inj (Option.some.inj he)
  exact congrArg (Instr.cursorNumber f) (read_four [_, _] n [] (fits_four hw.2))

theorem Encoding.querySampleChannel (f : Frame) (n : Nat) : Encoding.Statement (.querySampleChannel f n) := by
  intro f' body hw he _
  simp only [Instr.wellFormed, Bool.and_eq_true] at hw
  obtain ⟨rfl, rfl⟩ := Prod.mk.inj (Option.some.inj he)
  exact congrArg (Instr.querySampleChannel f) (read_one [_, _] n [] (fits_one hw.2))

theorem Encoding.queryPulseChannel (f : Frame) (n : Nat) : Encoding.Statement (.queryPulseChannel f n) := by
  intro f' body hw he _
  simp only [Instr.wellFormed, Bool.and_eq_true] at hw
  obtain ⟨rfl, rfl⟩ := Prod.mk.inj (Option.some.inj he)
  exact congrArg (Instr.queryPulseChannel f) (read_one [_, _] n [] (fits_one hw.2))

theorem Encoding.queryConsumer (f : Frame) (n : Nat) : Encoding.Statement (.queryConsumer f n) := by
  intro f' body hw he _
  simp only [Instr.wellFormed, Bool.and_eq_true] at hw
  obtain ⟨rfl, rfl⟩ := Prod.mk.inj (Option.some.inj he)
  exact congrArg (Instr.queryConsumer f) (read_one [_, _] n [] (fits_one hw.2))

theorem Encoding.queryHolder (f : Frame) (n : Nat) : Encoding.Statement (.queryHolder f n) := by
  intro f' body hw he _
  simp only [Instr.wellFormed, Bool.and_eq_true] at hw
  obtain ⟨rfl, rfl⟩ := Prod.mk.inj (Option.some.inj he)
  exact congrArg (Instr.queryHolder f) (read_one [_, _] n [] (fits_one hw.2))

theorem Encoding.queryAllocation (f : Frame) (n : Nat) : Encoding.Statement (.queryAllocation f n) := by
  intro f' body hw he _
  simp only [Instr.wellFormed, Bool.and_eq_true] at hw
  obtain ⟨rfl, rfl⟩ := Prod.mk.inj (Option.some.inj he)
  exact congrArg (Instr.queryAllocation f) (read_one [_, _] n [] (fits_one hw.2))

theorem Encoding.queryTotals (f : Frame) (n : Nat) : Encoding.Statement (.queryTotals f n) := by
  intro f' body hw he _
  simp only [Instr.wellFormed, Bool.and_eq_true] at hw
  obtain ⟨rfl, rfl⟩ := Prod.mk.inj (Option.some.inj he)
  exact congrArg (Instr.queryTotals f) (read_one [_, _] n [] (fits_one hw.2))

theorem Encoding.queryExportSchedule (f : Frame) (n : Nat) : Encoding.Statement (.queryExportSchedule f n) := by
  intro f' body hw he _
  simp only [Instr.wellFormed, Bool.and_eq_true] at hw
  obtain ⟨rfl, rfl⟩ := Prod.mk.inj (Option.some.inj he)
  exact congrArg (Instr.queryExportSchedule f) (read_one [_, _] n [] (fits_one hw.2))

theorem Encoding.queryProposalTable (f : Frame) (n : Nat) : Encoding.Statement (.queryProposalTable f n) := by
  intro f' body hw he _
  simp only [Instr.wellFormed, Bool.and_eq_true] at hw
  obtain ⟨rfl, rfl⟩ := Prod.mk.inj (Option.some.inj he)
  exact congrArg (Instr.queryProposalTable f) (read_one [_, _] n [] (fits_one hw.2))

theorem Encoding.queryClock (f : Frame) (n : Nat) : Encoding.Statement (.queryClock f n) := by
  intro f' body hw he _
  simp only [Instr.wellFormed, Bool.and_eq_true] at hw
  obtain ⟨rfl, rfl⟩ := Prod.mk.inj (Option.some.inj he)
  exact congrArg (Instr.queryClock f) (read_one [_, _] n [] (fits_one hw.2))

theorem Encoding.queryIntegrityReport (f : Frame) (n : Nat) : Encoding.Statement (.queryIntegrityReport f n) := by
  intro f' body hw he _
  simp only [Instr.wellFormed, Bool.and_eq_true] at hw
  obtain ⟨rfl, rfl⟩ := Prod.mk.inj (Option.some.inj he)
  exact congrArg (Instr.queryIntegrityReport f) (read_one [_, _] n [] (fits_one hw.2))

theorem Encoding.queryIdentity (f : Frame) (n : Nat) : Encoding.Statement (.queryIdentity f n) := by
  intro f' body hw he _
  simp only [Instr.wellFormed, Bool.and_eq_true] at hw
  obtain ⟨rfl, rfl⟩ := Prod.mk.inj (Option.some.inj he)
  exact congrArg (Instr.queryIdentity f) (read_one [_, _] n [] (fits_one hw.2))

theorem Encoding.queryContractItem (f : Frame) (name : ItemName) : Encoding.Statement (.queryContractItem f name) := by
  intro f' body hw he _
  simp only [Instr.wellFormed, Bool.and_eq_true] at hw
  obtain ⟨rfl, rfl⟩ := Prod.mk.inj (Option.some.inj he)
  exact congrArg (Instr.queryContractItem f) (read_name [_, _] name [] hw.2)

/-! A command that is no request has no body. -/

theorem Encoding.pulseArrival (a : Fin 16) (b : Nat) (c : Nat) : Encoding.Statement (.pulseArrival a b c) := by
  intro f body _ he; cases he

theorem Encoding.zeroFlowExpiry (a : Fin 16) : Encoding.Statement (.zeroFlowExpiry a) := by
  intro f body _ he; cases he

theorem Encoding.sampleFrame (a : RawFrame) : Encoding.Statement (.sampleFrame a) := by
  intro f body _ he; cases he

theorem Encoding.freshnessExpiry (a : Fin 22) : Encoding.Statement (.freshnessExpiry a) := by
  intro f body _ he; cases he

theorem Encoding.allocationPeriodExpiry : Encoding.Statement .allocationPeriodExpiry := by
  intro f body _ he; cases he

theorem Encoding.purgeExpiry (a : Fin 8) : Encoding.Statement (.purgeExpiry a) := by
  intro f body _ he; cases he

theorem Encoding.overdrawMaskExpiry (a : Fin 8) : Encoding.Statement (.overdrawMaskExpiry a) := by
  intro f body _ he; cases he

theorem Encoding.lineLowMaskExpiry (a : Fin 8) : Encoding.Statement (.lineLowMaskExpiry a) := by
  intro f body _ he; cases he

theorem Encoding.passingMaskExpiry (a : Fin 8) : Encoding.Statement (.passingMaskExpiry a) := by
  intro f body _ he; cases he

theorem Encoding.lowDrawTimerExpiry (a : Fin 8) : Encoding.Statement (.lowDrawTimerExpiry a) := by
  intro f body _ he; cases he

theorem Encoding.recoveryDelayExpiry (a : Fin 8) : Encoding.Statement (.recoveryDelayExpiry a) := by
  intro f body _ he; cases he

theorem Encoding.proposalExpiry (a : Nat) : Encoding.Statement (.proposalExpiry a) := by
  intro f body _ he; cases he

theorem Encoding.regularBoundary : Encoding.Statement .regularBoundary := by
  intro f body _ he; cases he

theorem Encoding.scrubRead : Encoding.Statement .scrubRead := by
  intro f body _ he; cases he

theorem Encoding.startUpOperation (a : Strap) (b : Bool) : Encoding.Statement (.startUpOperation a b) := by
  intro f body _ he; cases he

theorem Encoding.supplyFall : Encoding.Statement .supplyFall := by
  intro f body _ he; cases he

theorem Encoding.resetAssertion (a : Nat) : Encoding.Statement (.resetAssertion a) := by
  intro f body _ he; cases he

theorem Encoding.unknownRequest (a : Frame) (b : Nat) (c : Nat) : Encoding.Statement (.unknownRequest a b c) := by
  intro f body _ he; cases he

theorem Encoding.badFrame (a : Party) (b : RawFrame) : Encoding.Statement (.badFrame a b) := by
  intro f body _ he; cases he

theorem Encoding.busyPortFrame (a : Party) (b : RawFrame) : Encoding.Statement (.busyPortFrame a b) := by
  intro f body _ he; cases he

theorem Encoding.responseSent (a : Party) : Encoding.Statement (.responseSent a) := by
  intro f body _ he; cases he

theorem Encoding.storeWordError (a : Fin 16384) : Encoding.Statement (.storeWordError a) := by
  intro f body _ he; cases he

theorem Encoding.backupSupplyLoss : Encoding.Statement .backupSupplyLoss := by
  intro f body _ he; cases he

end Sys2Proof.Laws
end

