-- ==== Sys2Proof/Laws/Power.lean ====
section
/-! SUPPORT. The start-up: what the words of the lost store hold, and what the choice of the restart kind can change by its
reads (R166, R167, R170, R172). -/

namespace Sys2Proof.Machine

/-- The words in error of a lost store stand in the canonical form (R165, log 24). -/
theorem lostErrors_in_order (free : Nat) : errorsInOrder (lostErrors free) = true := by
  simp only [errorsInOrder, lostErrors, Bool.and_eq_true, List.all_eq_true]
  refine ⟨decide_eq_true ?_, fun e he => ?_⟩
  · refine List.pairwise_lt_range.filterMap _ fun a b h x hx y hy => ?_
    simp only [Option.map_eq_some_iff] at hx hy
    obtain ⟨_, _, rfl⟩ := hx
    obtain ⟨_, _, rfl⟩ := hy
    exact h
  · simp only [List.mem_filterMap, List.mem_range, Option.map_eq_some_iff] at he
    obtain ⟨w, hw, _, _, rfl⟩ := he
    exact decide_eq_true hw

/-! ## What a read of the report can do (R170) -/

/-- Nothing differs but errors that are gone, the integrity report, the notices and the attention lines. -/
abbrev OnlyReported (s t : State) : Prop :=
  t = { s with
    store := { s.store with errors := t.store.errors, report := t.store.report }
    links := { s.links with notices := t.links.notices }
    lines := { s.lines with attn := t.lines.attn } } ∧
  ∀ e ∈ t.store.errors, e ∈ s.store.errors

theorem OnlyReported.same (s : State) : OnlyReported s s := ⟨.refl _, fun _ h => h⟩

theorem OnlyReported.trans {s t u : State} (h : OnlyReported s t) (h' : OnlyReported t u) : OnlyReported s u := by
  refine ⟨?_, fun e he => h.2 e (h'.2 e he)⟩
  have h1 := h.1
  have h2 := h'.1
  rw [h1] at h2
  exact h2

theorem OnlyReported.foldl {α : Type} {f : State → α → State} (h : ∀ s a, OnlyReported s (f s a)) (l : List α) (s : State) :
    OnlyReported s (l.foldl f s) := by
  induction l generalizing s with
  | nil => exact .same s
  | cons a l ih => exact (h s a).trans (ih _)

theorem clearWord_only (w : Nat) (s : State) : OnlyReported s (clearWord w s) :=
  ⟨Eq.refl _, fun _ h => (List.mem_filter.1 h).1⟩

theorem wrote_only (t : Thing) (s : State) : OnlyReported s (wrote t s) :=
  ⟨Eq.refl _, fun _ h => (List.mem_filter.1 h).1⟩

theorem zeroReportField_only (k : Fin 4) (s : State) : OnlyReported s (zeroReportField k s) := ⟨Eq.refl _, fun _ h => h⟩

theorem raiseNotice_only (ps : PartySet) (k : Fin 10) (d : Detail) (s : State) : OnlyReported s (raiseNotice ps k d s) :=
  OnlyReported.foldl (fun s p => by
    split
    · exact ⟨Eq.refl _, fun _ h => h⟩
    · exact .same s) _ s

theorem countCorrected_only (s : State) : OnlyReported s (countCorrected s) :=
  ⟨Eq.refl _, fun _ h => (List.mem_filter.1 h).1⟩

theorem countUncorrectable_only (r : RegionIndex) (s : State) : OnlyReported s (countUncorrectable r s) := by
  refine OnlyReported.trans ?_ (raiseNotice_only ..)
  exact ⟨Eq.refl _, fun _ h => (List.mem_filter.1 (List.mem_filter.1 h).1).1⟩

theorem OnlyReported.layout {s t : State} (h : OnlyReported s t) : t.store.layout = s.store.layout := by rw [h.1]

theorem readReport_only {m : Nat → State → State}
    (h : ∀ w (k : Fin 4) t, thingAt t.store.layout w = some (.report k) → OnlyReported t (m w t)) (k : Fin 4) (s : State) :
    OnlyReported s (readWith m [.report k] s) := by
  have step : ∀ (l : List Nat) (t : State), (∀ w ∈ l, thingAt t.store.layout w = some (.report k)) →
      OnlyReported t (l.foldl (fun s w => m w s) t) := by
    intro l
    induction l with
    | nil => exact fun t _ => .same t
    | cons w l ih =>
      intro t ht
      have hw := h w k t (ht w (List.mem_cons_self ..))
      exact hw.trans (ih _ fun v hv => by rw [hw.layout]; exact ht v (List.mem_cons_of_mem _ hv))
  refine step _ s fun w hw => ?_
  simp only [wordsInError, List.mem_map, List.mem_filter, beq_iff_eq] at hw
  obtain ⟨e, he, rfl⟩ := hw
  exact he.2

/-- The check of a word of the report changes nothing but what is reported (R166, R167, R170). -/
theorem checkWord_report_only (n w : Nat) (k : Fin 4) (s : State) (h : thingAt s.store.layout w = some (.report k)) :
    OnlyReported s (checkWord n w s) := by
  induction n generalizing w k s with
  | zero => exact .same s
  | succ n ih =>
    have read := readReport_only (m := checkWord n) fun w k t => ih w k t
    simp only [checkWord, h, meetError]
    split
    · exact .same s
    · exact (clearWord_only w s).trans ((read 0 _).trans (countCorrected_only _))
    · exact (wrote_only _ s).trans ((zeroReportField_only k _).trans ((read 1 _).trans (countUncorrectable_only ..)))

/-- A read of a field of the report by an operation. -/
theorem readAll_report_only (k : Fin 4) (s : State) : OnlyReported s (readAll [.report k] s) :=
  readReport_only (fun w k t => checkWord_report_only _ w k t) k s

/-- What the choice of the restart kind reads, and what it finds, changes nothing but what is reported (R172, R174). -/
theorem readSignature_only (s : State) (k : Fin 4) : OnlyReported s (readSignature s k) := by
  unfold readSignature
  split
  · exact (readAll_report_only 1 s).trans (countUncorrectable_only ..)
  · exact .foldl (fun s w => (clearWord_only w s).trans ((readAll_report_only 0 _).trans (countCorrected_only _))) _ s

theorem readSignatures_only (s : State) :
    OnlyReported { s with links := restartLinks .cold } (readSignatures s) := by
  unfold readSignatures
  exact OnlyReported.foldl readSignature_only _ _

/-- Where no word is in error the choice of the restart kind raises nothing. -/
theorem readSignatures_clean {s : State} (h : s.store.errors = []) :
    readSignatures s = { s with links := restartLinks .cold } := by
  have all : ∀ (l : List (Fin 4)) (t : State), t.store.errors = [] → l.foldl readSignature t = t := by
    intro l t ht
    induction l with
    | nil => rfl
    | cons k l ih => simpa [readSignature, signatureDamaged, readsDamaged, wordsInError_clean ht] using ih
  unfold readSignatures
  exact all _ _ h

end Sys2Proof.Machine
end

