-- ==== Sys2Proof/Laws/Stages.lean ====
section
/-! SUPPORT. What each stage of an allocation event does, slot by slot, and which notices the event raises: one lemma for
each stage, which says everything it can do (R58 to R62, R66, R86). -/

namespace Sys2Proof.Machine

/-! ## The order of class and slot (R57) -/

theorem comesBefore_irrefl (s : State) (c : Fin 8) : comesBefore s c c = false := by simp [comesBefore]

theorem comesBefore_asymm {s : State} {c d : Fin 8} (h : comesBefore s c d = true) : comesBefore s d c = false := by
  unfold comesBefore at *
  simp only [Bool.or_eq_true, Bool.and_eq_true, decide_eq_true_eq, beq_iff_eq, Bool.or_eq_false_iff,
    decide_eq_false_iff_not, Bool.and_eq_false_iff, beq_eq_false_iff_ne] at *
  omega

theorem comesBefore_total {s : State} {c d : Fin 8} (h : c ≠ d) : comesBefore s c d = true ∨ comesBefore s d c = true := by
  unfold comesBefore
  simp only [Bool.or_eq_true, Bool.and_eq_true, decide_eq_true_eq, beq_iff_eq]
  omega

theorem classOf_le (s : State) (c : Fin 8) : classOf s c ≤ 3 := Nat.min_le_left ..

theorem mem_byClass {s : State} {p : Fin 8 → Bool} {c : Fin 8} : c ∈ byClass s p ↔ p c = true := by
  have := classOf_le s c
  simp only [byClass, List.mem_flatMap, List.mem_filter, List.mem_finRange, true_and, Bool.and_eq_true, beq_iff_eq]
  constructor
  · rintro ⟨_, _, _, h⟩; exact h
  · intro h
    refine ⟨classOf s c, ?_, rfl, h⟩
    simp only [List.mem_cons, List.not_mem_nil, or_false]
    omega

theorem finRange_sorted : (List.finRange 8).Pairwise (· < ·) := by decide

theorem byClass_sorted (s : State) (p : Fin 8 → Bool) :
    (byClass s p).Pairwise fun c d => comesBefore s c d = true := by
  unfold byClass
  rw [List.pairwise_flatMap]
  constructor
  · intro k _
    rw [List.pairwise_filter]
    refine finRange_sorted.imp fun {a b} h ha hb => ?_
    simp only [Bool.and_eq_true, beq_iff_eq] at ha hb
    simp [comesBefore, ha.1, hb.1, h]
  · refine List.Pairwise.imp (R := (· < ·)) ?_ (by decide)
    intro j k hjk a ha b hb
    simp only [List.mem_filter, Bool.and_eq_true, beq_iff_eq] at ha hb
    simp only [comesBefore, ha.2.1, hb.2.1, Bool.or_eq_true, decide_eq_true_eq]
    exact Or.inl hjk

theorem sorted_nodup {s : State} {l : List (Fin 8)} (h : l.Pairwise fun c d => comesBefore s c d = true) : l.Nodup := by
  refine h.imp fun {a b} hab e => ?_
  subst e; rw [comesBefore_irrefl] at hab; cases hab

theorem byClass_perm (s : State) (p : Fin 8 → Bool) : (byClass s p).Perm ((List.finRange 8).filter p) :=
  (List.perm_ext_iff_of_nodup (sorted_nodup (byClass_sorted s p)) ((List.nodup_finRange 8).filter p)).2 fun c => by
    simp [mem_byClass]

/-- A sum over the slots of a list that are picked, whatever its order. -/
theorem sumOver_eq {p q : Fin 8 → Bool} {l : List (Fin 8)} (f : Fin 8 → Nat)
    (h : l.Perm ((List.finRange 8).filter p)) : sumOver (fun d => p d && q d) f = ((l.filter q).map f).sum := by
  unfold sumOver
  have e : (List.finRange 8).filter (fun d => p d && q d) = ((List.finRange 8).filter p).filter q := by
    rw [List.filter_filter]; congr 1; funext d; exact Bool.and_comm ..
  rw [e]
  exact (((h.filter q).map f).sum_nat).symm

/-- In a sorted list, what stands up to a slot is what does not come after it. -/
theorem filter_upTo {s : State} {pre post : List (Fin 8)} {c : Fin 8}
    (h : (pre ++ c :: post).Pairwise fun a b => comesBefore s a b = true) :
    (pre ++ c :: post).filter (fun d => !comesBefore s c d) = pre ++ [c] := by
  rw [List.pairwise_append, List.pairwise_cons] at h
  obtain ⟨_, ⟨h1, _⟩, h2⟩ := h
  rw [List.filter_append, List.filter_cons, comesBefore_irrefl]
  rw [List.filter_eq_self.2 fun a ha => by rw [comesBefore_asymm (h2 a ha c (List.mem_cons_self ..))]; rfl]
  rw [List.filter_eq_nil_iff.2 fun a ha => by rw [h1 a ha]; decide]
  rfl

/-! ## Stage 1 (R58) -/

theorem litFloor_congr {s t : State} {c : Fin 8} (hc : t.contracts = s.contracts) (he : t.exports = s.exports)
    (hs : t.settlement = s.settlement) (hn : (consumer t c).nomination = (consumer s c).nomination) :
    litFloor t c = litFloor s c := by
  unfold litFloor demand cappedNomination effectiveCeiling derivedRate scheduledExport isLinked flagItem consumerItem itemNat
    item
  rw [hc, he, hs, hn]

theorem litFloor_reserveOne (a fl : Nat) (x : Reserving) (c d : Fin 8) :
    litFloor (reserveOne a fl x c).state d = litFloor x.state d := by
  unfold reserveOne
  split
  all_goals
    refine litFloor_congr rfl rfl rfl ?_
    by_cases e : d = c
    · subst e; simp only [consumer_setConsumer_same]; rfl
    · simp only [consumer_setConsumer_ne e]


/-- The sum of the lit floors of a list. -/
def floorsOf (s : State) (l : List (Fin 8)) : Nat := (l.map (litFloor s)).sum

theorem floorsOf_congr {s t : State} (h : ∀ d, litFloor t d = litFloor s d) (l : List (Fin 8)) :
    floorsOf t l = floorsOf s l := by
  unfold floorsOf; rw [funext h]

/-- A slot outside the list is left alone. -/
theorem reserving_outside (a fl : Nat) (l : List (Fin 8)) (x : Reserving) {c : Fin 8} (h : c ∉ l) :
    consumer (l.foldl (reserveOne a fl) x).state c = consumer x.state c ∧
    (l.foldl (reserveOne a fl) x).given[c] = x.given[c] ∧ (c ∈ (l.foldl (reserveOne a fl) x).lost ↔ c ∈ x.lost) := by
  refine foldl_induct (fun y : Reserving => consumer y.state c = consumer x.state c ∧ y.given[c] = x.given[c] ∧
    (c ∈ y.lost ↔ c ∈ x.lost)) _ _ (fun y b hb hy => ?_) _ ⟨rfl, rfl, Iff.rfl⟩
  have e : c ≠ b := by rintro rfl; exact h hb
  unfold reserveOne
  split
  · refine ⟨by simpa only [consumer_setConsumer_ne e] using hy.1, ?_, hy.2.2⟩
    simp only [Fin.getElem_fin] at hy ⊢
    rw [Vector.getElem_set_ne _ _ (by intro q; exact e (Fin.ext q.symm))]; exact hy.2.1
  · refine ⟨by simpa only [consumer_setConsumer_ne e] using hy.1, hy.2.1, ?_⟩
    simp only [List.mem_append, List.mem_singleton, e, or_false]; exact hy.2.2

/-- What stage 1 does with one slot of its list: it holds while the floors up to it fit. -/
theorem reserving_inside (a fl : Nat) (pre post : List (Fin 8)) (c : Fin 8) (x : Reserving) (h : (pre ++ c :: post).Nodup)
    (hx : c ∉ x.lost) :
    if x.failed = false ∧ fl + x.sum + floorsOf x.state (pre ++ [c]) ≤ a then
      consumer ((pre ++ c :: post).foldl (reserveOne a fl) x).state c = holding (consumer x.state c) ∧
      ((pre ++ c :: post).foldl (reserveOne a fl) x).given[c] = litFloor x.state c ∧
      c ∉ ((pre ++ c :: post).foldl (reserveOne a fl) x).lost
    else
      consumer ((pre ++ c :: post).foldl (reserveOne a fl) x).state c = losing x.state c ∧
      ((pre ++ c :: post).foldl (reserveOne a fl) x).given[c] = x.given[c] ∧
      c ∈ ((pre ++ c :: post).foldl (reserveOne a fl) x).lost := by
  induction pre generalizing x with
  | nil =>
    simp only [List.nil_append, List.nodup_cons] at h ⊢
    have ho := reserving_outside a fl post (reserveOne a fl x c) h.1
    have e : floorsOf x.state [c] = litFloor x.state c := by simp [floorsOf]
    simp only [List.foldl_cons, e, ho.1, ho.2.1, ho.2.2]
    by_cases hc : x.failed = false ∧ fl + x.sum + litFloor x.state c ≤ a
    · rw [if_pos hc]; unfold reserveOne; simp [hc, hx]
    · rw [if_neg hc]; unfold reserveOne; simp [hc]
  | cons b pre ih =>
    rw [List.cons_append] at h
    have hb : c ≠ b := by
      rintro rfl; exact (List.nodup_cons.1 h).1 (List.mem_append_right _ (List.mem_cons_self ..))
    have hn := (List.nodup_cons.1 h).2
    have hs : consumer (reserveOne a fl x b).state c = consumer x.state c ∧
        (reserveOne a fl x b).given[c] = x.given[c] ∧ (c ∈ (reserveOne a fl x b).lost ↔ c ∈ x.lost) := by
      have := reserving_outside a fl [b] x (c := c) (by simpa using hb)
      simpa only [List.foldl_cons, List.foldl_nil] using this
    have hl : losing (reserveOne a fl x b).state c = losing x.state c := by
      have hk : (reserveOne a fl x b).state.contracts = x.state.contracts := by unfold reserveOne; split <;> rfl
      unfold losing hasBackup flagItem item; rw [hs.1, hk]
    have := ih (reserveOne a fl x b) hn (by rw [hs.2.2]; exact hx)
    rw [hs.1, hs.2.1, litFloor_reserveOne, floorsOf_congr (litFloor_reserveOne a fl x b), hl] at this
    have hcond : ((reserveOne a fl x b).failed = false ∧
          fl + (reserveOne a fl x b).sum + floorsOf x.state (pre ++ [c]) ≤ a) ↔
        (x.failed = false ∧ fl + x.sum + floorsOf x.state (b :: (pre ++ [c])) ≤ a) := by
      have e : floorsOf x.state (b :: (pre ++ [c])) = litFloor x.state b + floorsOf x.state (pre ++ [c]) := by
        simp [floorsOf]
      rw [e]
      by_cases hb : x.failed = false ∧ fl + x.sum + litFloor x.state b ≤ a
      · unfold reserveOne; simp only [hb, Bool.not_false, decide_true, Bool.and_self, if_true, true_and]; omega
      · unfold reserveOne
        rw [if_neg (by simpa using hb)]
        simp only [Bool.true_eq_false, false_and, false_iff]
        intro hq; exact hb ⟨hq.1, by omega⟩
    simp only [hcond] at this
    exact this

/-- The sum that stage 1 keeps is that of the reservations given. -/
theorem reserving_sum (a fl : Nat) (l : List (Fin 8)) (x : Reserving) (h : l.Nodup) (h0 : ∀ c ∈ l, x.given[c] = 0) :
    (l.foldl (reserveOne a fl) x).sum = x.sum + (l.map fun c => (l.foldl (reserveOne a fl) x).given[c]).sum := by
  induction l generalizing x with
  | nil => rfl
  | cons b l ih =>
    rw [List.nodup_cons] at h
    have hg : ∀ c ∈ l, (reserveOne a fl x b).given[c] = 0 := by
      intro c hc
      have := (reserving_outside a fl [b] x (c := c) (by simp; rintro rfl; exact h.1 hc)).2.1
      simp only [List.foldl_cons, List.foldl_nil] at this
      rw [this]; exact h0 c (List.mem_cons_of_mem _ hc)
    have := ih (reserveOne a fl x b) h.2 hg
    have hb := (reserving_outside a fl l (reserveOne a fl x b) h.1).2.1
    simp only [List.foldl_cons, List.map_cons, List.sum_cons, hb]
    rw [this]
    have : (reserveOne a fl x b).sum = x.sum + (reserveOne a fl x b).given[b] := by
      unfold reserveOne
      split
      · simp
      · simp [h0 b (List.mem_cons_self ..)]
    omega

/-- Stage 1 as a whole: a candidate holds a reservation of its lit floor where Φ and the floors of the candidates up to it
fit in the rate, and loses it otherwise; and the reservations add up (R58). -/
theorem reserve_spec (a : Nat) (s : State) :
    (∀ c, isCandidate s c = true →
      if floorSum s + sumOver (fun d => isCandidate s d && !comesBefore s c d) (litFloor s) ≤ a then
        consumer (reserve a s).state c = holding (consumer s c) ∧ (reserve a s).given[c] = litFloor s c ∧
        c ∉ (reserve a s).lost
      else
        consumer (reserve a s).state c = losing s c ∧ (reserve a s).given[c] = 0 ∧ c ∈ (reserve a s).lost) ∧
    (∀ c, isCandidate s c = false → consumer (reserve a s).state c = consumer s c ∧ (reserve a s).given[c] = 0 ∧
      c ∉ (reserve a s).lost) ∧
    (reserve a s).sum = sumOver (isCandidate s) fun c => (reserve a s).given[c] := by
  have hs := byClass_sorted s (isCandidate s)
  have hn := sorted_nodup hs
  have hp := byClass_perm s (isCandidate s)
  refine ⟨fun c hc => ?_, fun c hc => ?_, ?_⟩
  · obtain ⟨pre, post, e⟩ := List.append_of_mem (mem_byClass.2 hc)
    rw [sumOver_eq (litFloor s) hp, e, filter_upTo (by rw [← e]; exact hs)]
    have := reserving_inside a (floorSum s) pre post c
      { state := s, given := Vector.replicate 8 0, sum := 0, failed := false, lost := [] } (by rw [← e]; exact hn) (by simp)
    unfold reserve
    rw [← e] at this
    simpa [floorsOf] using this
  · have := reserving_outside a (floorSum s) (byClass s (isCandidate s))
      { state := s, given := Vector.replicate 8 0, sum := 0, failed := false, lost := [] } (c := c)
      (by rw [mem_byClass, hc]; decide)
    unfold reserve
    simpa using this
  · have := reserving_sum a (floorSum s) (byClass s (isCandidate s))
      { state := s, given := Vector.replicate 8 0, sum := 0, failed := false, lost := [] } hn (by simp)
    unfold reserve sumOver
    rw [this, Nat.zero_add]
    exact (hp.map _).sum_nat

/-! ## Stage 2 (R59) -/

theorem mem_shedOrder {s : State} {c : Fin 8} : c ∈ shedOrder s ↔ lit s c = true ∧ classOf s c ≠ 0 := by
  have := classOf_le s c
  simp only [shedOrder, List.mem_flatMap, List.mem_filter, List.mem_reverse, List.mem_finRange, true_and, Bool.and_eq_true,
    beq_iff_eq]
  constructor
  · rintro ⟨k, hk, e, h⟩
    refine ⟨h, ?_⟩
    rw [e]; rintro rfl; simp at hk
  · rintro ⟨h, hc⟩
    refine ⟨classOf s c, ?_, rfl, h⟩
    simp only [List.mem_cons, List.not_mem_nil, or_false]
    omega

theorem shedOrder_sorted (s : State) : (shedOrder s).Pairwise fun c d => comesBefore s d c = true := by
  unfold shedOrder
  rw [List.pairwise_flatMap]
  constructor
  · intro k _
    rw [List.pairwise_filter, List.pairwise_reverse]
    refine finRange_sorted.imp fun {a b} h ha hb => ?_
    simp only [Bool.and_eq_true, beq_iff_eq] at ha hb
    simp [comesBefore, ha.1, hb.1, h]
  · refine List.Pairwise.imp (R := (· > ·)) ?_ (by decide)
    intro j k hjk a ha b hb
    simp only [List.mem_filter, Bool.and_eq_true, beq_iff_eq] at ha hb
    simp only [comesBefore, ha.2.1, hb.2.1, Bool.or_eq_true, decide_eq_true_eq]
    exact Or.inl hjk

theorem shedOrder_nodup (s : State) : (shedOrder s).Nodup :=
  (shedOrder_sorted s).imp fun {a b} hab e => by subst e; rw [comesBefore_irrefl] at hab; cases hab

theorem litFloor_shedOne (a : Nat) (x : State × List (Fin 8)) (c d : Fin 8) :
    litFloor (shedOne a x c).1 d = litFloor x.1 d := by
  unfold shedOne
  split
  · refine litFloor_congr rfl rfl rfl ?_
    by_cases e : d = c
    · subst e; rw [consumer_putConsumer_same]; unfold shedRecord; split <;> rfl
    · rw [consumer_putConsumer_ne e]
  · rfl

theorem shedRecord_not_lit (s : State) (c : Fin 8) : ((shedRecord s c).state == .active) = false := by
  unfold shedRecord; split <;> rfl

/-- The shed record depends on the record, the contract and the time base alone. -/
theorem shedRecord_congr {s t : State} {c : Fin 8} (h : consumer t c = consumer s c) (hc : t.contracts = s.contracts)
    (hb : t.supervisor.base = s.supervisor.base) : shedRecord t c = shedRecord s c := by
  unfold shedRecord purging startTimer hasBackup flagItem consumerItem itemNat item
  rw [h, hc, hb]

theorem floorSum_eq (s : State) : floorSum s = sumOver (lit s) (litFloor s) := rfl

/-- Taking a slot out of a sum. -/
theorem sumOver_erase (p : Fin 8 → Bool) (f : Fin 8 → Nat) {c : Fin 8} (h : p c = true) :
    sumOver p f = f c + sumOver (fun d => p d && d != c) f := by
  unfold sumOver
  have hp : ((List.finRange 8).filter p).Perm (c :: (List.finRange 8).filter fun d => p d && d != c) := by
    refine (List.perm_ext_iff_of_nodup ((List.nodup_finRange 8).filter p) ?_).2 fun d => ?_
    · rw [List.nodup_cons]
      refine ⟨by simp, (List.nodup_finRange 8).filter _⟩
    · simp only [List.mem_filter, List.mem_finRange, true_and, List.mem_cons, Bool.and_eq_true, bne_iff_ne]
      by_cases e : d = c
      · subst e; simp [h]
      · simp [e]
  rw [(hp.map f).sum_nat, List.map_cons, List.sum_cons]

theorem sumOver_congr {p q : Fin 8 → Bool} {f g : Fin 8 → Nat} (h : ∀ c, p c = q c) (hf : ∀ c, p c = true → f c = g c) :
    sumOver p f = sumOver q g := by
  unfold sumOver
  rw [← funext h]
  congr 1
  exact List.map_congr_left fun c hc => hf c (List.mem_filter.1 hc).2

/-- Shedding a slot takes its floor out of Φ. -/
theorem floorSum_shed (x : State) {c : Fin 8} (h : lit x c = true) :
    floorSum x = litFloor x c + floorSum (putConsumer c (shedRecord x c) x) := by
  rw [floorSum_eq, floorSum_eq, sumOver_erase _ _ h]
  congr 1
  refine sumOver_congr (fun d => ?_) fun d _ => ?_
  · by_cases e : d = c
    · subst e; unfold lit; rw [consumer_putConsumer_same, shedRecord_not_lit]; simp
    · unfold lit; rw [consumer_putConsumer_ne e]; simp [e]
  · refine (litFloor_congr (s := x) (t := putConsumer c (shedRecord x c) x) rfl rfl rfl ?_).symm
    by_cases e : d = c
    · subst e; rw [consumer_putConsumer_same]; unfold shedRecord; split <;> rfl
    · rw [consumer_putConsumer_ne e]

/-- A slot outside the list is left alone. -/
theorem shedding_outside (a : Nat) (l : List (Fin 8)) (x : State × List (Fin 8)) {c : Fin 8} (h : c ∉ l) :
    consumer (l.foldl (shedOne a) x).1 c = consumer x.1 c ∧ (c ∈ (l.foldl (shedOne a) x).2 ↔ c ∈ x.2) := by
  refine foldl_induct (fun y : State × List (Fin 8) => consumer y.1 c = consumer x.1 c ∧ (c ∈ y.2 ↔ c ∈ x.2)) _ _
    (fun y b hb hy => ?_) _ ⟨rfl, Iff.rfl⟩
  have e : c ≠ b := by rintro rfl; exact h hb
  unfold shedOne
  split
  · rw [consumer_putConsumer_ne e]
    refine ⟨hy.1, ?_⟩
    simp only [List.mem_append, List.mem_singleton, e, or_false]; exact hy.2
  · exact hy

/-- What stage 2 does with one slot of its list: it is shed where Φ less the floors before it still exceeds A. -/
theorem shedding_inside (a : Nat) (pre post : List (Fin 8)) (c : Fin 8) (x : State × List (Fin 8))
    (h : (pre ++ c :: post).Nodup) (hl : ∀ d ∈ pre ++ c :: post, lit x.1 d = true) (hx : c ∉ x.2) :
    if a + floorsOf x.1 pre < floorSum x.1 then
      consumer ((pre ++ c :: post).foldl (shedOne a) x).1 c = shedRecord x.1 c ∧
      c ∈ ((pre ++ c :: post).foldl (shedOne a) x).2
    else
      consumer ((pre ++ c :: post).foldl (shedOne a) x).1 c = consumer x.1 c ∧
      c ∉ ((pre ++ c :: post).foldl (shedOne a) x).2 := by
  induction pre generalizing x with
  | nil =>
    simp only [List.nil_append, List.nodup_cons] at h ⊢
    have ho := shedding_outside a post (shedOne a x c) h.1
    have e : floorsOf x.1 [] = 0 := rfl
    simp only [List.foldl_cons, e, ho.1, ho.2, Nat.add_zero]
    by_cases hc : a < floorSum x.1
    · rw [if_pos hc]; unfold shedOne; simp [hc]
    · rw [if_neg hc]; unfold shedOne; simp [hc, hx]
  | cons b pre ih =>
    rw [List.cons_append] at h hl
    have hbn := (List.nodup_cons.1 h).1
    have hb : c ≠ b := by rintro rfl; exact hbn (List.mem_append_right _ (List.mem_cons_self ..))
    have ho : ∀ d, d ≠ b → consumer (shedOne a x b).1 d = consumer x.1 d ∧ (d ∈ (shedOne a x b).2 ↔ d ∈ x.2) := by
      intro d hd
      have := shedding_outside a [b] x (c := d) (by simpa using hd)
      simpa only [List.foldl_cons, List.foldl_nil] using this
    have hl' : ∀ d ∈ pre ++ c :: post, lit (shedOne a x b).1 d = true := by
      intro d hd
      have e : d ≠ b := by rintro rfl; exact hbn hd
      unfold lit; rw [(ho d e).1]; exact hl d (List.mem_cons_of_mem _ hd)
    have := ih (shedOne a x b) (List.nodup_cons.1 h).2 hl' (by rw [(ho c hb).2]; exact hx)
    have hr : shedRecord (shedOne a x b).1 c = shedRecord x.1 c := by
      refine shedRecord_congr (ho c hb).1 ?_ ?_
      · unfold shedOne; split <;> rfl
      · unfold shedOne; split <;> rfl
    rw [(ho c hb).1, hr, floorsOf_congr (litFloor_shedOne a x b)] at this
    have hcond : (a + floorsOf x.1 pre < floorSum (shedOne a x b).1) ↔ (a + floorsOf x.1 (b :: pre) < floorSum x.1) := by
      have e : floorsOf x.1 (b :: pre) = litFloor x.1 b + floorsOf x.1 pre := by simp [floorsOf]
      have hf := floorSum_shed x.1 (hl b (List.mem_cons_self ..))
      rw [e]
      by_cases hc : a < floorSum x.1
      · unfold shedOne; rw [if_pos hc]; simp only; omega
      · unfold shedOne; rw [if_neg hc]; omega
    simp only [hcond] at this
    exact this

/-- Stage 2 as a whole: an ACTIVE consumer is shed exactly where it is of class 1 to 3 and the floors of those not shed
before it still exceed the rate (R59). -/
theorem shedding_spec (a : Nat) (s : State) (c : Fin 8) :
    if lit s c = true ∧ classOf s c ≠ 0 ∧ a < sumOver (fun d => lit s d && !comesBefore s c d) (litFloor s) then
      consumer (shedding a s).1 c = shedRecord s c ∧ c ∈ (shedding a s).2
    else consumer (shedding a s).1 c = consumer s c ∧ c ∉ (shedding a s).2 := by
  by_cases hm : c ∈ shedOrder s
  · have hc := mem_shedOrder.1 hm
    have hn := shedOrder_nodup s
    have hs := shedOrder_sorted s
    obtain ⟨pre, post, e⟩ := List.append_of_mem hm
    have := shedding_inside a pre post c (s, []) (by rw [← e]; exact hn)
      (fun d hd => (mem_shedOrder.1 (by rw [e]; exact hd)).1) (by simp)
    rw [← e] at this
    have hsplit : floorSum s = sumOver (fun d => lit s d && !comesBefore s c d) (litFloor s) + floorsOf s pre := by
      have hpre : floorsOf s pre = sumOver (fun d => lit s d && comesBefore s c d) (litFloor s) := by
        unfold floorsOf sumOver
        refine ((List.Perm.map _ ((List.perm_ext_iff_of_nodup ?_ ((List.nodup_finRange 8).filter _)).2 fun d => ?_)).sum_nat)
        · rw [e] at hn; exact (List.nodup_append.1 hn).1
        · simp only [List.mem_filter, List.mem_finRange, true_and, Bool.and_eq_true]
          rw [e, List.pairwise_append, List.pairwise_cons] at hs
          constructor
          · intro hd
            exact ⟨(mem_shedOrder.1 (by rw [e]; exact List.mem_append_left _ hd)).1,
              hs.2.2 d hd c (List.mem_cons_self ..)⟩
          · rintro ⟨hd, hb⟩
            have hd0 : classOf s d ≠ 0 := by
              simp only [comesBefore, Bool.or_eq_true, Bool.and_eq_true, decide_eq_true_eq, beq_iff_eq] at hb
              omega
            have : d ∈ pre ++ c :: post := by rw [← e]; exact mem_shedOrder.2 ⟨hd, hd0⟩
            rcases List.mem_append.1 this with h | h
            · exact h
            · rcases List.mem_cons.1 h with h | h
              · subst h; rw [comesBefore_irrefl] at hb; cases hb
              · rw [comesBefore_asymm (hs.2.1.1 d h)] at hb; cases hb
      rw [hpre, floorSum_eq]
      unfold sumOver
      rw [← List.sum_append, ← List.map_append]
      refine (List.Perm.map _ ?_).sum_nat
      rw [show (List.finRange 8).filter (fun d => lit s d && !comesBefore s c d) =
          ((List.finRange 8).filter (lit s)).filter (fun d => !comesBefore s c d) by
            rw [List.filter_filter]; congr 1; funext d; exact Bool.and_comm ..,
        show (List.finRange 8).filter (fun d => lit s d && comesBefore s c d) =
          ((List.finRange 8).filter (lit s)).filter (fun d => comesBefore s c d) by
            rw [List.filter_filter]; congr 1; funext d; exact Bool.and_comm ..]
      exact (List.perm_append_comm.trans (List.filter_append_perm _ _)).symm
    have hcond : (a + floorsOf s pre < floorSum s) ↔ (lit s c = true ∧ classOf s c ≠ 0 ∧
        a < sumOver (fun d => lit s d && !comesBefore s c d) (litFloor s)) := by
      rw [hsplit]
      constructor
      · intro h; exact ⟨hc.1, hc.2, by omega⟩
      · rintro ⟨_, _, h⟩; omega
    unfold shedding
    simp only [hcond] at this
    exact this
  · have := shedding_outside a (shedOrder s) (s, []) hm
    rw [if_neg fun h => hm (mem_shedOrder.2 ⟨h.1, h.2.1⟩)]
    unfold shedding
    simpa using this

/-! ## Stages 3 and 5 (R60, R62) -/

theorem mem_take_sorted {l : List (Fin 8)} (h : l.Pairwise (· < ·)) {c : Fin 8} (hc : c ∈ l) (n : Nat) :
    c ∈ l.take n ↔ (l.filter (· < c)).length < n := by
  induction l generalizing n with
  | nil => cases hc
  | cons b l ih =>
    rw [List.pairwise_cons] at h
    cases n with
    | zero => simp
    | succ n =>
      rw [List.take_succ_cons, List.mem_cons]
      rcases List.mem_cons.1 hc with rfl | hm
      · have : l.filter (· < c) = [] := List.filter_eq_nil_iff.2 fun d hd => by
          have := h.1 d hd; simp only [decide_eq_true_eq]; omega
        simp [this]
      · have hb : b < c := h.1 c hm
        have e : c ≠ b := by omega
        rw [List.filter_cons_of_pos (by simpa using hb), List.length_cons, ih h.2 hm n]
        simp only [e, false_or]
        omega

/-- The sharing of an amount over slots in ascending order is that of R60 and R62. -/
theorem shares_eq_partOf (p : Fin 8 → Bool) (w : Fin 8 → Nat) (amount : Nat) (c : Fin 8) :
    shares w ((List.finRange 8).filter p) amount c = if p c = true then partOf p w amount c else 0 := by
  unfold shares partOf
  by_cases hp : p c = true
  · have hm : ((List.finRange 8).filter p).contains c = true := by simp [hp]
    simp only [hm, hp, if_true]
    unfold sumOver
    congr 1
    by_cases hw : 0 < w c
    · have hs : (((List.finRange 8).filter p).filter fun d => decide (0 < w d)).Pairwise (· < ·) :=
        (finRange_sorted.filter _).filter _
      have hc : c ∈ ((List.finRange 8).filter p).filter fun d => decide (0 < w d) := by simp [hp, hw]
      have hl := mem_take_sorted hs hc (amount -
        (((List.finRange 8).filter p).map fun d => w d * amount / (((List.finRange 8).filter p).map w).sum).sum)
      have e : ((((List.finRange 8).filter p).filter fun d => decide (0 < w d)).filter (· < c)).length =
          (((List.finRange 8).filter fun d => p d && 0 < w d && d < c).map fun _ => 1).sum := by
        rw [List.filter_filter, List.filter_filter]
        have : ∀ l : List (Fin 8), (l.map fun _ => 1).sum = l.length := by
          intro l; induction l with
          | nil => rfl
          | cons b l ih => simp only [List.map_cons, List.sum_cons, List.length_cons, ih]; omega
        rw [this]
        congr 2
        funext d
        cases p d <;> cases h1 : decide (0 < w d) <;> cases h2 : decide (d < c) <;> rfl
      rw [e] at hl
      simp only [List.contains_iff_mem, hl, hw, true_and]
    · have hn : c ∉ (((List.finRange 8).filter p).filter fun d => decide (0 < w d)).take (amount -
          (((List.finRange 8).filter p).map fun d => w d * amount / (((List.finRange 8).filter p).map w).sum).sum) := by
        intro h
        have := (List.mem_filter.1 (List.mem_of_mem_take h)).2
        exact hw (by simpa using this)
      simp only [List.contains_iff_mem, hn, hw, false_and, if_false]
  · simp [hp]

/-- The wants of a class (R62). -/
def wantsOf (s : State) (k : Nat) : Nat := sumOver (fun d => lit s d && classOf s d == k) (wantOf s)

theorem classSlots (s : State) (k : Nat) : ((List.finRange 8).filter fun c => classOf s c == k && lit s c) =
    (List.finRange 8).filter fun d => lit s d && classOf s d == k := by
  congr 1; funext d; exact Bool.and_comm ..

theorem nominationPass_left (s : State) (x : Vector Nat 8 × Nat) (k : Nat) :
    (nominationPass s x k).2 = x.2 - wantsOf s k := by
  unfold nominationPass wantsOf sumOver wantOf
  rw [classSlots]
  extract_lets slots want total
  have e : (slots.map fun c => demand s c - litFloor s c).sum = total := rfl
  clear_value total
  split
  · simp only [slots] at e ⊢; rw [e]
  · simp only [slots] at e ⊢; rw [e]; omega

theorem nominationPass_at (s : State) (x : Vector Nat 8 × Nat) (k : Nat) (c : Fin 8) :
    (nominationPass s x k).1[c] = x.1[c] + if lit s c = true ∧ classOf s c = k then
      (if wantsOf s k ≤ x.2 then wantOf s c
        else partOf (fun d => lit s d && classOf s d == k) (wantOf s) x.2 c) else 0 := by
  unfold nominationPass
  rw [classSlots]
  have hw : (((List.finRange 8).filter fun d => lit s d && classOf s d == k).map fun c => demand s c - litFloor s c).sum =
      wantsOf s k := rfl
  simp only [hw]
  split
  · rename_i h
    simp [wantOf]
  · rename_i h
    have := shares_eq_partOf (fun d => lit s d && classOf s d == k) (wantOf s) x.2 c
    simp only [Fin.getElem_fin, Vector.getElem_ofFn, Bool.and_eq_true, beq_iff_eq] at this ⊢
    exact congrArg (x.1[c.val] + ·) this

theorem sumOver_below (s : State) (f : Fin 8 → Nat) (k : Nat) :
    sumOver (fun d => lit s d && classOf s d < k + 1) f =
      sumOver (fun d => lit s d && classOf s d < k) f + sumOver (fun d => lit s d && classOf s d == k) f := by
  unfold sumOver
  rw [← List.sum_append, ← List.map_append]
  refine (List.Perm.map _ ?_).sum_nat
  have h1 := List.filter_append_perm (fun d => decide (classOf s d < k))
    ((List.finRange 8).filter fun d => lit s d && decide (classOf s d < k + 1))
  rw [List.filter_filter, List.filter_filter] at h1
  refine h1.symm.trans (List.Perm.of_eq ?_)
  congr 2
  · funext d
    cases lit s d <;> simp only [Bool.false_and, Bool.and_false, Bool.true_and]
    rw [← Bool.decide_and]; congr 1; ext; omega
  · funext d
    cases lit s d <;> simp only [Bool.false_and, Bool.and_false, Bool.true_and]
    rw [← decide_not, ← Bool.decide_and, Bool.beq_eq_decide_eq]; congr 1; ext; omega

theorem sumOver_none (f : Fin 8 → Nat) (s : State) : sumOver (fun d => lit s d && decide (classOf s d < 0)) f = 0 := by
  unfold sumOver
  rw [List.filter_eq_nil_iff.2 fun d _ => by simp]
  rfl

/-- Stage 5: each ACTIVE consumer has its lit floor, and of its want all where its class can have all, its part otherwise;
the rate left for a class is what the classes before it leave (R62). -/
theorem floorsAndNominations_spec (s : State) (left : Nat) (c : Fin 8) :
    (floorsAndNominations s left).1[c] = if lit s c = true then
      litFloor s c +
        (if wantsOf s (classOf s c) ≤ left - sumOver (fun d => lit s d && classOf s d < classOf s c) (wantOf s) then wantOf s c
        else partOf (fun d => lit s d && classOf s d == classOf s c) (wantOf s)
          (left - sumOver (fun d => lit s d && classOf s d < classOf s c) (wantOf s)) c)
      else 0 := by
  have e1 := sumOver_below s (wantOf s) 0
  have e2 := sumOver_below s (wantOf s) 1
  have e3 := sumOver_below s (wantOf s) 2
  rw [sumOver_none] at e1
  have e0 := sumOver_none (wantOf s) s
  change _ = 0 + wantsOf s 0 at e1
  change _ = _ + wantsOf s 1 at e2
  change _ = _ + wantsOf s 2 at e3
  unfold floorsAndNominations
  simp only [List.foldl_cons, List.foldl_nil, nominationPass_at, nominationPass_left]
  simp only [Fin.getElem_fin, Vector.getElem_ofFn]
  by_cases hl : lit s c = true
  · have hk := classOf_le s c
    simp only [hl, true_and, if_true, Fin.eta]
    generalize hj : classOf s c = j at *
    match j, hk with
    | 0, _ => simp only [e0]; simp
    | 1, _ => simp only [Nat.zero_add] at e1; simp only [e1]; simp
    | 2, _ => simp only [Nat.zero_add, Nat.reduceAdd] at e1 e2; simp only [e2, e1, Nat.sub_add_eq]; simp
    | 3, _ => simp only [Nat.zero_add, Nat.reduceAdd] at e1 e2 e3; simp only [e3, e2, e1, Nat.sub_add_eq]; simp
  · simp [hl]

/-- Stage 3: the rate is shared over the ACTIVE consumers in proportion to their lit floors (R60). -/
theorem proRata_spec (a : Nat) (s : State) (c : Fin 8) :
    (proRata a s)[c] = if lit s c = true then partOf (lit s) (litFloor s) a c else 0 := by
  unfold proRata
  simp only [Fin.getElem_fin, Vector.getElem_ofFn]
  exact shares_eq_partOf (lit s) (litFloor s) a c

/-! ## Stage 4 (R61) -/

/-- The consumer that stage 4 restores is the first that waits, and its floor and the restore margin fit in the rate left. -/
theorem toRestore_eq_some {a r : Nat} {s : State} {c : Fin 8} : toRestore a r s = some c ↔
    isWaiting s c = true ∧ (∀ d, isWaiting s d = true → comesBefore s d c = false) ∧
    litFloor s c + itemNat s (.holder hRestoreMargin) ≤ a - floorSum s - r := by
  have hs := byClass_sorted s (isWaiting s)
  have hm : ∀ d, d ∈ byClass s (isWaiting s) ↔ isWaiting s d = true := fun d => mem_byClass
  unfold toRestore
  generalize byClass s (isWaiting s) = l at *
  cases l with
  | nil =>
    simp only [reduceCtorEq, false_iff]
    rintro ⟨h, _⟩
    exact absurd ((hm c).2 h) (by simp)
  | cons b l =>
    rw [List.pairwise_cons] at hs
    have hb : isWaiting s b = true := (hm b).1 (List.mem_cons_self ..)
    have hf : ∀ d, isWaiting s d = true → comesBefore s d b = false := by
      intro d hd
      rcases List.mem_cons.1 ((hm d).2 hd) with rfl | h
      · exact comesBefore_irrefl s d
      · exact comesBefore_asymm (hs.1 d h)
    simp only
    constructor
    · intro h
      split at h
      · injection h with h; subst h; exact ⟨hb, hf, by assumption⟩
      · cases h
    · rintro ⟨hw, h1, h2⟩
      have e : b = c := Decidable.byContradiction fun hne => by
        rcases comesBefore_total (s := s) hne with h | h
        · rw [h1 b hb] at h; cases h
        · rw [hf c hw] at h; cases h
      subst e
      rw [if_pos h2]

/-! ## Notices (R66, R86, R185) -/

/-- An occurrence goes to one record of one party (R184). -/
theorem notices_raiseFor (p q : Party) (k j : Fin 10) (d : Detail) (s : State) :
    (raiseFor p k d s).links.notices[partyIndex q][j] =
      if q = p ∧ j = k then addOccurrence d s.links.notices[partyIndex q][j] else s.links.notices[partyIndex q][j] := by
  have e : (raiseFor p k d s).links.notices = s.links.notices.set (partyIndex p)
    (s.links.notices[partyIndex p].set k (addOccurrence d (s.links.notices[partyIndex p])[k])) := rfl
  rw [e]
  by_cases hp : q = p
  · subst hp
    rw [show (s.links.notices.set (partyIndex q) (s.links.notices[partyIndex q].set k
      (addOccurrence d (s.links.notices[partyIndex q])[k])))[partyIndex q] = s.links.notices[partyIndex q].set k
        (addOccurrence d (s.links.notices[partyIndex q])[k]) from Vector.getElem_set_self ..]
    by_cases hk : j = k
    · subst hk
      rw [if_pos ⟨rfl, rfl⟩]
      exact Vector.getElem_set_self ..
    · rw [getElem_set_fin _ hk, if_neg fun h => hk h.2]
  · rw [getElem_set_fin _ fun h => hp (partyIndex_inj h), if_neg fun h => hp h.1]

/-- One occurrence for each party of a set (R185). -/
theorem notices_raiseNotice (ps : PartySet) (q : Party) (k j : Fin 10) (d : Detail) (s : State) :
    (raiseNotice ps k d s).links.notices[partyIndex q][j] =
      if hasParty ps q = true ∧ j = k then addOccurrence d s.links.notices[partyIndex q][j]
      else s.links.notices[partyIndex q][j] := by
  have one : ∀ (p : Party) (t : State), (if hasParty ps p then raiseFor p k d t else t).links.notices[partyIndex q][j] =
      if (hasParty ps p = true ∧ q = p) ∧ j = k then addOccurrence d t.links.notices[partyIndex q][j]
      else t.links.notices[partyIndex q][j] := by
    intro p t
    by_cases h : hasParty ps p = true
    · rw [if_pos h, notices_raiseFor]; simp [h]
    · rw [if_neg h]; simp [h]
  unfold raiseNotice
  simp only [List.foldl_cons, List.foldl_nil, one]
  cases q <;> simp

theorem hasParty_withWorks (p q : Party) : hasParty (withWorks p) q = true ↔ q = p ∨ q = .works := by
  cases p <;> cases q <;> decide

/-- The notices of an event as its rules count them: in ascending slot order, SHED for the owner and WORKS, GRANT for the
owner, and no other class (R66, R86, R186). -/
theorem notices_eventNotices (p : Plan) (old : Vector Nat 8) (s : State) (q : Party) (j : Fin 10) :
    (eventNotices p old s).links.notices[partyIndex q][j] =
      if j = clsShed then (List.finRange 8).foldl (fun n c =>
        if q ≠ ownerOf s c ∧ q ≠ .works then n
        else if p.shed.contains c then addOccurrence (.shed c false) n
        else if p.restored = some c then addOccurrence (.shed c true) n else n) s.links.notices[partyIndex q][j]
      else if j = clsGrant then (List.finRange 8).foldl (fun n c =>
        if q = ownerOf s c ∧ p.grants[c] ≠ old[c] then addOccurrence (.grant c p.grants[c]) n else n)
        s.links.notices[partyIndex q][j]
      else s.links.notices[partyIndex q][j] := by
  have hne : clsShed ≠ clsGrant := by decide
  have shedFold : ∀ (l : List (Fin 8)) (t : State), (∀ c, ownerOf t c = ownerOf s c) →
      (l.foldl (fun s c => if p.shed.contains c then noticeShed c false s
        else if p.restored = some c then noticeShed c true s else s) t).links.notices[partyIndex q][j] =
      if j = clsShed then l.foldl (fun n c =>
        if q ≠ ownerOf s c ∧ q ≠ .works then n
        else if p.shed.contains c then addOccurrence (.shed c false) n
        else if p.restored = some c then addOccurrence (.shed c true) n else n) t.links.notices[partyIndex q][j]
      else t.links.notices[partyIndex q][j] := by
    intro l
    induction l with
    | nil => intro t _; simp
    | cons c l ih =>
      intro t ht
      have ho : ∀ b d, ownerOf (noticeShed c b t) d = ownerOf t d := fun b d => by unfold ownerOf item; rw [noticeShed_contracts]
      have hn : ∀ b, (noticeShed c b t).links.notices[partyIndex q][j] = if (q = ownerOf s c ∨ q = .works) ∧ j = clsShed then
          addOccurrence (.shed c b) t.links.notices[partyIndex q][j] else t.links.notices[partyIndex q][j] := by
        intro b; unfold noticeShed; rw [notices_raiseNotice]; simp only [hasParty_withWorks, ht]
      rw [List.foldl_cons, List.foldl_cons]
      by_cases h1 : p.shed.contains c = true
      · simp only [h1, if_true]
        rw [ih _ (fun d => (ho false d).trans (ht d)), hn]
        by_cases hj : j = clsShed <;> by_cases hq : q = ownerOf s c <;> by_cases hw : q = .works <;> simp_all
      · by_cases h2 : p.restored = some c
        · rw [if_neg h1, if_pos h2, ih _ (fun d => (ho true d).trans (ht d)), hn, if_neg h1, if_pos h2]
          by_cases hj : j = clsShed
          · simp only [hj, and_true, if_true]
            by_cases hq : q = ownerOf s c ∨ q = .works
            · rw [if_pos hq, if_neg (by rcases hq with h | h <;> simp [h])]
            · rw [if_neg hq, if_pos (by simpa using hq)]
          · simp [hj]
        · rw [if_neg h1, if_neg h2, ih _ ht, if_neg h1, if_neg h2]
          by_cases hj : j = clsShed <;> simp [hj]
  have shedContracts : ∀ (l : List (Fin 8)) (t : State), (l.foldl (fun s c => if p.shed.contains c then noticeShed c false s
      else if p.restored = some c then noticeShed c true s else s) t).contracts = t.contracts := by
    intro l t
    refine foldl_induct (fun u : State => u.contracts = t.contracts) _ _ (fun u c _ h => ?_) _ rfl
    split
    · rw [noticeShed_contracts]; exact h
    · split
      · rw [noticeShed_contracts]; exact h
      · exact h
  have grantFold : ∀ (l : List (Fin 8)) (t : State), (∀ c, ownerOf t c = ownerOf s c) →
      (l.foldl (fun s c => if p.grants[c] ≠ old[c] then noticeGrant c p.grants[c] s else s)
        t).links.notices[partyIndex q][j] =
      if j = clsGrant then l.foldl (fun n c =>
        if q = ownerOf s c ∧ p.grants[c] ≠ old[c] then addOccurrence (.grant c p.grants[c]) n else n)
        t.links.notices[partyIndex q][j]
      else t.links.notices[partyIndex q][j] := by
    intro l
    induction l with
    | nil => intro t _; simp
    | cons c l ih =>
      intro t ht
      rw [List.foldl_cons, List.foldl_cons]
      by_cases h1 : p.grants[c] ≠ old[c]
      · rw [if_pos h1, ih _ (fun d => by unfold ownerOf item; rw [noticeGrant_contracts]; exact ht d)]
        have hn : (noticeGrant c p.grants[c] t).links.notices[partyIndex q][j] = if q = ownerOf s c ∧ j = clsGrant then
            addOccurrence (.grant c p.grants[c]) t.links.notices[partyIndex q][j]
            else t.links.notices[partyIndex q][j] := by
          unfold noticeGrant; rw [notices_raiseNotice]; simp only [hasParty_onlyParty, ht, beq_iff_eq]
        rw [hn]
        by_cases hj : j = clsGrant <;> by_cases hq : q = ownerOf s c <;> simp_all
      · rw [if_neg h1, ih _ ht]
        by_cases hj : j = clsGrant <;> simp_all
  unfold eventNotices
  rw [grantFold _ _ (fun c => by unfold ownerOf item; rw [shedContracts]), shedFold _ _ (fun _ => rfl)]
  by_cases h1 : j = clsShed
  · rw [if_neg (h1 ▸ hne), if_pos h1, if_pos h1]
  · rw [if_neg h1, if_neg h1]
end Sys2Proof.Machine
end

