-- ==== Sys2Proof/Laws/Tick.lean ====
section
/-! SUPPORT. The clock as it is set, and the queue that the passing of a millisecond leaves: every event that has come due,
each once, in an order that is left open (log 2, log 11). -/

namespace Sys2Proof.Machine

theorem insertAt_perm (n : Nat) (e : Instr) (l : List Instr) : (insertAt n e l).Perm (e :: l) := by
  induction l generalizing n with
  | nil => cases n <;> exact .refl _
  | cons x rest ih =>
    cases n with
    | zero => exact .refl _
    | succ n => exact ((ih n).cons x).trans (.swap e x rest)

/-- An event joins the queue, wherever its place is. -/
theorem arrange_pending_perm (s : State) (e : Instr) : (arrange s e).pending.Perm (e :: s.pending) := by
  unfold arrange
  split
  · rename_i h; rw [List.isEmpty_iff.mp h]
  · exact insertAt_perm _ _ _

/-- Arranging events changes nothing but the queue and the use of open values. -/
theorem arrange_eq (s : State) (e : Instr) :
    arrange s e = { s with pending := (arrange s e).pending, freeIndex := (arrange s e).freeIndex } := by
  unfold arrange; split <;> rfl

theorem foldl_arrange_pending_perm (l : List Instr) (s : State) : (l.foldl arrange s).pending.Perm (l ++ s.pending) := by
  induction l generalizing s with
  | nil => exact .refl _
  | cons e l ih =>
    exact (ih (arrange s e)).trans (((arrange_pending_perm s e).append_left l).trans List.perm_middle)

theorem foldl_arrange_eq (l : List Instr) (s : State) :
    l.foldl arrange s =
      { s with pending := (l.foldl arrange s).pending, freeIndex := (l.foldl arrange s).freeIndex } := by
  induction l generalizing s with
  | nil => rfl
  | cons e l ih => rw [List.foldl_cons, ih (arrange s e), arrange_eq s e]

/-- Setting the clock sets it to a time of its range, the one given where that lies in it, and changes nothing else but the use
of an open value where it does not (R142, log 7). -/
theorem setClock_eq (t : Nat) (s : State) : ∃ v : Nat, v < Config.clockModulus ∧ (t < Config.clockModulus → v = t) ∧
    setClock t s = { s with
      freeIndex := s.freeIndex + (if t < Config.clockModulus then 0 else 1)
      settlement := { s.settlement with clock := some v } } := by
  by_cases h : t < Config.clockModulus
  · exact ⟨t, h, fun _ => rfl, by simp [setClock, h]⟩
  · exact ⟨Config.clockBeyond s.freeIndex % Config.clockModulus, Nat.mod_lt _ (by decide), fun g => absurd g h, by
      simp [setClock, useFree, h]⟩

/-- After a millisecond on an empty queue a running part's queue holds the events then due, in some order. -/
theorem tick_pending_perm {s : State} (h : s.power.running = true) (e : s.pending = []) :
    (tick s).pending.Perm (dueEvents (tickBases (tickClock s))) := by
  have q : (tickBases (tickClock s)).pending = [] := by
    rw [← e]; unfold tickBases tickClock setClock useFree; (repeat' split) <;> rfl
  unfold tick
  rw [if_pos h]
  exact (foldl_arrange_pending_perm _ _).trans (by rw [q, List.append_nil])

end Sys2Proof.Machine
end

