-- ==== Sys2Proof/Tests/Slice0.lean ====
section
/-! SUPPORT. Tests on fixed values, each taken from the manual or worked out by hand from its rules, and a witness for the
hypotheses of every obligation that has some. -/

namespace Sys2Proof.Tests

open Sys2Proof Sys2Proof.Machine

/- Each theorem here is one kernel evaluation; one after another they take no thread each. -/
set_option Elab.async false

/-! ## Small states -/

/-- The next state of a command. -/
def after (i : Instr) (s : State) : State :=
  match exec i s with
  | .next t => t
  | .fault _ => s
  | .refused _ => s

abbrev w (n : Nat) : Frame := ⟨.works, n⟩
abbrev g (n : Nat) : Frame := ⟨.grid, n⟩

def withItem (i : Item) (v : Int) (s : State) : State :=
  { s with contracts := { s.contracts with contract := writeItem s.contracts.contract i v } }

def withProposals (l : List Proposal) (s : State) : State := { s with contracts := { s.contracts with proposals := l } }

def withStore (f : Store → Store) (s : State) : State := { s with store := f s.store }

/-- The three time bases in ms at one moment. -/
def atTime (n : Nat) (s : State) : State :=
  { s with
    field := { s.field with arrivalBase := n }, allocator := { s.allocator with base := n }
    supervisor := { s.supervisor with base := n } }

/-- A sample record that is VALID with a value. -/
def measured (k : Fin 22) (v : Int) (s : State) : State :=
  setSample k { state := .valid, lastValid := some v, uncertain := false, timer := some ⟨0, 10000⟩ } s

/-- A channel whose last pulse came at 0. -/
def firstAt (ch : Fin 16) (s : State) : State :=
  setChannel ch { freshChannel with state := .first, lastArrival := some 0, lastEnergy := some 0 } s

/-- A channel that flows at a rate in kW, last pulse now. -/
def flowing (ch : Fin 16) (kw : Nat) (s : State) : State :=
  setChannel ch
    { freshChannel with
      state := .flowing, lastArrival := some s.field.arrivalBase, period := some 1000, lastEnergy := some 0, rate := kw } s

def inState (c : Fin 8) (st : ConsumerState) (s : State) : State := setConsumer c { consumer s c with state := st } s

/-- A consumer that purges toward a target, its timer due. -/
def purgesTo (c : Fin 8) (target : PurgeTarget) (s : State) : State :=
  setConsumer c { consumer s c with state := .purging, target := some target, purgeTimer := some ⟨0, 60000⟩ } (atTime 60000 s)

def record (number start stop : Nat) : OpenRecord :=
  { number := number, start := start, stop := stop, band := 0, heatPrice := 0, gasPrice := 0, revision := 0
    opening := Vector.replicate 16 0, estimatedGas := Vector.replicate 12 false, estimatedHeat := Vector.replicate 3 false
    reverse := Vector.replicate 3 0, short := false, clockStep := false, outage := false, commissioning := true
    contractChanged := false, contractDamaged := false, flare := 0, trimmed := false }

/-- A RUNNING clock at `k` with a record open from `start` to `stop`. -/
def clocked (k start stop : Nat) (s : State) : State :=
  { s with
    settlement := { s.settlement with clock := some k, openRecord := some (record 1 start stop), nextRecord := 2 }
    exports := { s.exports with latch := some ⟨0, .default⟩ } }

def scheduled (starts : List Nat) (s : State) : State :=
  { s with exports := { s.exports with schedule := starts.map fun t => ⟨t, 100⟩ } }

def entry (number : Nat) (items : List (ItemRef × Int)) (parties concurred : PartySet) : Proposal :=
  { number := number, proposer := .works, items := items, parties := parties, concurred := concurred, staged := false
    expiry := some 1800, deferred := false }

/-- An archive record with a number. -/
def closed (number : Nat) : ArchiveRecord := archiveRecord .regular State.reset (record number 0 900)

def archived (numbers : List Nat) (s : State) : State :=
  { s with settlement := { s.settlement with archive := numbers.map closed } }

def stopped (s : State) : State := { s with power := { s.power with running := false } }

/-! ## Well-formedness -/

theorem test_wellFormed_accepts : (Instr.start (w 2) 255).wellFormed = true ∧ (Instr.mask (w 64) 65535).wellFormed = true := by
  decide

theorem test_wellFormed_refuses_length : (Instr.notice (w 0)).wellFormed = false ∧ (Instr.notice (w 65)).wellFormed = false := by
  decide

theorem test_wellFormed_refuses_wide_fields :
    (Instr.start (w 2) 256).wellFormed = false ∧ (Instr.concur (w 3) 65536).wellFormed = false ∧
    (Instr.nominate (w 6) 0 4294967296).wellFormed = false ∧ (Instr.schedule (g 11) 281474976710656 0).wellFormed = false ∧
    (Instr.trim (w 2) 128).wellFormed = false ∧ (Instr.trim (w 2) (-129)).wellFormed = false ∧
    (Instr.write (w 8) ⟨0, 0, 0⟩ 2147483648).wellFormed = false := by decide

theorem test_wellFormed_refuses_names :
    (Instr.write (w 8) ⟨256, 0, 0⟩ 0).wellFormed = false ∧ (Instr.queryContractItem (w 5) ⟨0, 256, 0⟩).wellFormed = false ∧
    (Instr.propose (w 9) [(⟨0, 0, 256⟩, 0)]).wellFormed = false := by decide

theorem test_wellFormed_refuses_known_request_as_unknown :
    (Instr.unknownRequest (w 2) 0x10 0).wellFormed = false ∧ (Instr.unknownRequest (w 3) 0x01 11).wellFormed = false ∧
    (Instr.unknownRequest (w 3) 0x01 12).wellFormed = true ∧ (Instr.unknownRequest (w 1) 0x02 0).wellFormed = true := by decide

theorem test_wellFormed_refuses_good_frame_as_bad :
    (Instr.badFrame .works { chars := [0x00, 0x02, 0x10, 0x03, 0xD9, 0xB0], stopError := false }).wellFormed = false ∧
    (Instr.badFrame .works { chars := [0x00, 0x02, 0x10, 0x03, 0xD9, 0xB0], stopError := true }).wellFormed = true := by
  decide +kernel

theorem test_wellFormed_refuses_number_zero : (Instr.proposalExpiry 0).wellFormed = false := by decide

/-! ## Frames (10-6) -/

/-- R191 gives the check of the characters "123456789". -/
theorem test_crc : crc [0x31, 0x32, 0x33, 0x34, 0x35, 0x36, 0x37, 0x38, 0x39] = 0x29B1#16 := by decide +kernel

theorem test_short_and_long_frames_are_bad :
    goodRequest { chars := [0x00, 0x00, 0x84, 0xC0], stopError := false } = false ∧
    goodRequest { chars := [], stopError := false } = false := by decide +kernel

/-- No row of the opcode table has bits. -/
theorem test_table_words : decodeTableWord 0 0 = none ∧ State.reset.withFetchWord 0 0 = State.reset := by
  exact ⟨rfl, rfl⟩

/-! ## Energy (chapter 2, worked cases) -/

theorem test_energy_S0 : gasEnergy 10000 110000 2000 3300 = 33381152 := by decide

theorem test_energy_C2 : gasEnergy 1000 110000 2000 8000 = 8092400 := by decide

theorem test_heat_coefficient : heatCoefficient 6250 = 4111 ∧ heatCoefficient 0 = 4216 ∧ heatCoefficient 18000 = 3952 := by
  decide

/-- Pulse a of H1: 5,996 Wh more, on a remainder of 300,000,000. -/
theorem test_heat_H1 :
    (after (.pulseArrival 13 200 200) (measured 17 11500 (measured 18 6250
      (setTotal 13 48200000 300000000 State.reset)))).metering.totals[13] = 48205996 := by decide +kernel

theorem test_total_wraps :
    (after (.pulseArrival 15 200 200) (setTotal 15 9999999999990 0 State.reset)).metering.totals[15] = 9990 := by
  decide +kernel

/-! ## Holder bands (chapter 3) -/

theorem test_bands : bandOf coldBandSet 49999 = .lowLow ∧ bandOf coldBandSet 50000 = .low ∧
    bandOf coldBandSet 100000 = .normal ∧ bandOf coldBandSet 300000 = .high ∧ bandOf coldBandSet 350000 = .highHigh := by
  decide

/-- With hysteresis 5,000 the band falls from NORMAL below 95,000 only. -/
theorem test_hysteresis : nextBand coldBandSet .normal 95000 = .normal ∧ nextBand coldBandSet .normal 94999 = .low := by
  decide

/-! ## Start-up (chapter 9) -/

/-- The part as it comes: unpowered, a store that holds nothing. -/
def blank : State :=
  { State.reset with
    power := { State.reset.power with running := false, mainSupply := false }, lines := lowLines
    store := { State.reset.store with signature := Vector.replicate 4 false } }

theorem test_cold_start_gives_reset : exec (.startUpOperation .low false) blank = .next State.reset := by
  have h : after (.startUpOperation .low false) blank = State.reset := by decide +kernel
  exact congrArg Host.Outcome.next h

theorem test_reset_attention_lines : State.reset.lines.attn = Vector.replicate 3 true := by decide

/-- A restart keeps the store and takes the OPEN entries away. -/
theorem test_restart_discards_open_entries :
    (after (.startUpOperation .low false)
      (stopped (withProposals [entry 1 [(.lock, 1)] allParties (onlyParty .works)] State.reset))).contracts.proposals = [] := by
  decide +kernel

/-! ## Commands -/

theorem test_noise_saturates :
    (channel (after (.pulseArrival 0 200 200)
      (setChannel 0 { channel (firstAt 0 State.reset) 0 with noise := 65535 } State.reset)) 0).noise = 65535 := by
  decide +kernel

theorem test_start_reports_purging :
    (after (.start (w 2) 0) State.reset).links.ports[0] = some ⟨0x10, .done, [.u8 1, .u8 1, .u8 0]⟩ := by decide +kernel

theorem test_nominate_clamps :
    (after (.nominate (w 6) 0 5000) State.reset).links.ports[0] = some ⟨0x12, .clamped, [.u8 0]⟩ := by decide +kernel

theorem test_clear_outside_tripped :
    (after (.clear (w 2) 0) State.reset).links.ports[0] = some ⟨0x13, .wrongState, [.u8 0]⟩ := by decide +kernel

theorem test_fuel_gas_outside_backup :
    (after (.fuelGas (w 2) 0) State.reset).links.ports[0] = some ⟨0x15, .wrongState, [.u8 0]⟩ := by decide +kernel

theorem test_schedule_needs_clock :
    (after (.schedule (g 11) 900 0) State.reset).links.ports[2] = some ⟨0x20, .clockUnset, [.u32 0]⟩ := by decide +kernel

theorem test_write_interval_length_choice :
    (after (.write (w 8) ⟨7, 0, 0⟩ 1000) State.reset).links.ports[0] = some ⟨0x40, .outOfRange, []⟩ ∧
    item (after (.write (w 8) ⟨7, 0, 0⟩ 1800) State.reset) .intervalLength = 1800 := by decide +kernel

theorem test_write_bumps_revision :
    (after (.write (w 8) ⟨3, 0, 0⟩ 5) State.reset).contracts.revision = 1 := by decide +kernel

theorem test_propose_opens :
    (after (.propose (w 9) [(⟨9, 0, 0⟩, 1)]) State.reset).links.ports[0] = some ⟨0x30, .done, [.u16 1, .u8 0]⟩ := by
  decide +kernel

/-- A holder item is WORKS' alone, so its proposal is STAGED at once. -/
theorem test_propose_stages :
    (after (.propose (w 9) [(⟨2, 0, 8⟩, 1)]) State.reset).links.ports[0] = some ⟨0x30, .done, [.u16 1, .u8 1]⟩ := by
  decide +kernel

theorem test_write_clock_opens_short_record :
    ((after (.writeClock (w 5) 1000) State.reset).settlement.openRecord.map fun o => (o.number, o.start, o.stop, o.short)) =
      some (1, 1000, 1800, true) := by decide +kernel

theorem test_trim_clamps :
    (after (.trim (w 2) 20) (clocked 890 0 900 State.reset)).settlement.clock = some 899 := by decide +kernel

theorem test_boundary_numbers :
    ((after .regularBoundary (clocked 900 0 900 State.reset)).settlement.archive.map (·.number)) = [1] ∧
    ((after .regularBoundary (clocked 900 0 900 State.reset)).settlement.nextRecord) = 3 := by decide +kernel

/-- R155 and R156: in an empty ring every cursor stands at the next record number, and finds the first record once it joins. -/
theorem test_cursors_of_an_empty_ring :
    (after (.writeClock (w 5) 0) State.reset).settlement.cursors = #v[2, 2, 2] ∧
    (after .regularBoundary (clocked 900 0 900 State.reset)).settlement.cursors = #v[1, 1, 1] := by decide +kernel

/-- R91: a line minimum of 0 keeps the condition false, also below 0. -/
theorem test_line_minimum_zero : lineLowHolds (measured 7 (-1) State.reset) 0 = false := by decide +kernel

theorem test_archive_empty :
    (after (.archive (w 1)) State.reset).links.ports[0] = some ⟨0x60, .none, []⟩ := by decide +kernel

theorem test_cursor_not_found :
    (after (.cursorNumber (w 6) 7) (archived [5, 6] State.reset)).links.ports[0] = some ⟨0x61, .notFound, [.u32 1]⟩ := by
  decide +kernel

theorem test_notice_returns_restart :
    (after (.notice (w 1)) State.reset).links.ports[0] = some ⟨0x51, .done, [.u8 2, .u8 1, .u8 1, .u8 2]⟩ ∧
    (after (.notice (w 1)) State.reset).lines.attn[0] = false := by decide +kernel

theorem test_mask_excludes_alarms :
    (after (.mask (w 3) 1023) State.reset).links.ports[0] = some ⟨0x50, .done, [.u16 1020]⟩ := by decide +kernel

theorem test_unknown_request :
    (after (.unknownRequest (w 1) 0x02 0) State.reset).links.ports[0] = some ⟨0x02, .unknown, []⟩ ∧
    (after (.unknownRequest (w 3) 0x01 12) State.reset).links.ports[0] = some ⟨0x01, .outOfRange, []⟩ := by decide +kernel

theorem test_query_identity_starts_with_the_name :
    ((after (.queryIdentity (w 3) 0) State.reset).links.ports[0].map fun r => r.fields.take 2) =
      some [.text partName, .u8 3] := by decide +kernel

theorem test_second_error_is_uncorrectable :
    (after (.storeWordError 5) (after (.storeWordError 5) State.reset)).store.errors = [(5, .uncorrectable)] := by decide +kernel

theorem test_supply_fall_drops_lines : (after .supplyFall State.reset).lines = lowLines := by decide +kernel

theorem test_short_reset_pulse : after (.resetAssertion 99) State.reset = State.reset := rfl

/-- A second is 1,000 steps: the clock carries at the last. -/
theorem test_tick_carries :
    (tick { clocked 5 0 900 State.reset with settlement := { (clocked 5 0 900 State.reset).settlement with
      clockMillis := 999 } }).settlement.clock = some 6 := by decide +kernel

/-! ## Witnesses: each meets the hypotheses of the obligation in its name, a clause after another, at the ends of the
ranges that the clause names -/

def okFrame (k : Fin 22) (code : Nat) (v : Int) : RawFrame := { chars := sampleChars k code v, stopError := false }

def queued (l : List Instr) (s : State) : State := { s with pending := l }

/-- A consumer with timers that started at 0 and ran for 5 s, in a state, at 5 s. -/
def masked (c : Fin 8) (st : ConsumerState) (s : State) : State :=
  setConsumer c { consumer s c with
    state := st, overdrawTimer := some ⟨0, 5000⟩, lineLowTimer := some ⟨0, 5000⟩, passingTimer := some ⟨0, 5000⟩
    lowDrawTimer := some ⟨0, 5000⟩ } (atTime 5000 s)

/-- A TRIPPED consumer whose recovery delay has run. -/
def recovering (c : Fin 8) (count : Nat) (s : State) : State :=
  setConsumer c { consumer s c with
    state := .tripped, causes := addCause noCauses .lineLow, recoveryCount := count, recoveryTimer := some ⟨0, 5000⟩ }
    (withItem (.consumer c cRecoveryMode) 1 (atTime 5000 s))

theorem witness_EmptyQueueLetsOneMillisecondPass :
    State.reset.pending = [] ∧ State.reset.power.running = true ∧ State.reset.settlement.clock = none ∧
    blank.pending = [] ∧ blank.power.running = false ∧
    (∀ m ∈ [0, 998, 999], (fun s : State => s.pending = [] ∧ s.settlement.clock = some 281474976710654 ∧
      s.settlement.clockMillis = m) { clocked 281474976710654 0 900 State.reset with
        settlement := { (clocked 281474976710654 0 900 State.reset).settlement with clockMillis := m } }) ∧
    (fun s : State => (s.contracts.proposals.map (·.number)).Nodup ∧ s.contracts.proposals.length = 2)
      (withProposals [entry 1 [] allParties allParties, entry 2 [] allParties allParties] State.reset) := by decide +kernel

theorem witness_FramesDecodeToWhatTheyCarry :
    (Instr.start (w 2) 255).wellFormed = true ∧ encodeBody (.start (w 2) 255) = some (w 2, [0x10, 0xFF]) ∧
    (Instr.trim (w 2) (-128)).wellFormed = true ∧ encodeBody (.trim (w 2) (-128)) = some (w 2, [0x43, 0x80]) := by
  decide +kernel

theorem witness_RequestsRefusedBeforeTheirBlock :
    Calm State.reset ∧ portBusy State.reset .town = false ∧ resolveName ⟨0, 8, 0⟩ = none ∧ resolveName ⟨7, 6, 6⟩ = none ∧
    ownerOf State.reset 0 ≠ Party.town ∧ ownerOf State.reset 7 ≠ Party.town ∧
    (∀ n ∈ [1, 5, 7, 64], (w n).length ≠ 6) ∧
    (∀ n ∈ [0, 1, 2, 3, 4, 5, 6, 10, 12, 64], (w n).length ≠ 11) ∧ (w 11).party ≠ .grid ∧
    (w 8).length ≠ 2 + 7 * [((⟨9, 0, 0⟩ : ItemName), (1 : Int))].length := by decide +kernel

theorem witness_FramesThatReachNoBlock :
    encodeBody (.notice (w 1)) = some (w 1, [0x51]) ∧ (stopped State.reset).power.running = false ∧
    (setPort .works (some ⟨0x51, .none, []⟩) State.reset).links.ports[partyIndex (w 1).party] ≠ none ∧
    State.reset.power.running = true ∧ portBusy State.reset (w 1).party = false ∧ Calm State.reset ∧
    parseSample { chars := [], stopError := false } = none ∧
    parseSample { okFrame 0 0 0 with stopError := true } = none ∧ 0x20 ∈ knownCodes ∧ 0x61 ∈ knownCodes ∧
    0x02 ∉ knownCodes := by decide +kernel

theorem witness_FirstPulseIsAccepted :
    Calm State.reset ∧ ∀ ch ∈ ([0, 4, 12, 15] : List (Fin 16)), (channel State.reset ch).state = .noFlow := by decide +kernel

theorem witness_LaterPulseFormsARate : ∀ ch ∈ ([0, 4, 12, 15] : List (Fin 16)),
    (fun s : State => Calm s ∧ (channel s ch).state ≠ .noFlow ∧ (channel s ch).lastArrival = some 0 ∧
      itemNat s (minSpacingItem ch) = sinceArrival s 0) (atTime 10 (firstAt ch State.reset)) := by decide +kernel

theorem witness_EarlyPulseIsNoise :
    (fun s : State => Calm s ∧ (channel s 0).state ≠ .noFlow ∧ (channel s 0).lastArrival = some 0 ∧
      sinceArrival s 0 < itemNat s (minSpacingItem 0)) (atTime 9 (firstAt 0 State.reset)) := by decide +kernel

/-- Channels 0, 11, 12, 14 and 15: the ends of the three clauses. -/
theorem witness_EnergyIsCountedExactly :
    Calm State.reset ∧ (∀ ch ∈ ([0, 11, 12, 14, 15] : List (Fin 16)), passesSpacing State.reset ch = true) ∧
    (∃ t, exec (.pulseArrival 0 200 200) State.reset = .next t) ∧ (∃ t, exec (.pulseArrival 11 200 200) State.reset = .next t) ∧
    (∃ t, exec (.pulseArrival 12 200 200) State.reset = .next t) ∧ (∃ t, exec (.pulseArrival 14 200 200) State.reset = .next t) ∧
    ∃ t, exec (.pulseArrival 15 200 200) State.reset = .next t :=
  ⟨by decide +kernel, by decide +kernel, ⟨_, rfl⟩, ⟨_, rfl⟩, ⟨_, rfl⟩, ⟨_, rfl⟩, ⟨_, rfl⟩⟩

theorem witness_ReverseHeatPulseAddsNothing :
    (fun s : State => Calm s ∧ passesSpacing s 12 = true ∧ s.settlement.openRecord = some (record 1 0 900) ∧
      max 0 (min 18000 (valueInUse s 15)) < max 0 (min 18000 (valueInUse s 16)))
      (measured 15 5000 (measured 16 9000 (clocked 5 0 900 State.reset))) := by decide +kernel

theorem witness_ZeroFlowExpiryEmptiesTheChannel :
    (fun s : State => Calm s ∧ (channel s 4).state ≠ .noFlow ∧ (channel s 4).lastArrival = some 0 ∧
      1000 * itemNat s (zeroFlowItem 4) = sinceArrival s 0) (atTime 60000 (firstAt 4 State.reset)) := by decide +kernel

theorem witness_ValidFrameMakesTheRecordValid : Calm State.reset ∧
    (∀ v ∈ [item State.reset (.rangeLow 7), item State.reset (.rangeHigh 7)],
      parseSample (okFrame 7 1 v) = some (7, .uncertain, v) ∧ item State.reset (.rangeLow 7) ≤ v ∧
        v ≤ item State.reset (.rangeHigh 7)) ∧
    (sample State.reset 7).state ≠ .valid ∧ Calm (measured 7 200 State.reset) ∧
    (sample (measured 7 200 State.reset) 7).state = .valid := by decide +kernel

theorem witness_InvalidFrameAndExpiryHoldTheRecord :
    (fun s : State => Calm s ∧ (sample s 7).state = .valid ∧ (sample s 7).timer = some ⟨0, 10000⟩ ∧
      10000 = sinceArrival s 0 ∧ parseSample (okFrame 7 2 0) = some (7, .bad, 0) ∧
      parseSample (okFrame 7 0 (item s (.rangeLow 7) - 1)) = some (7, .good, item s (.rangeLow 7) - 1) ∧
      parseSample (okFrame 7 0 (item s (.rangeHigh 7) + 1)) = some (7, .good, item s (.rangeHigh 7) + 1))
      (atTime 10000 (measured 7 200 State.reset)) ∧
    (sample State.reset 7).state ≠ .valid := by decide +kernel

theorem witness_BandOfALevel : coldBandSet.ordered = true ∧ 0 ≤ coldBandSet.hysteresis := by decide

/-- A level that raises the band, and one that leaves HIGHHIGH. -/
theorem witness_LevelFrameMovesTheBand :
    Calm State.reset ∧ parseSample (okFrame 6 0 100000) = some (6, .good, 100000) ∧
    item State.reset (.rangeLow 6) ≤ 100000 ∧ 100000 ≤ item State.reset (.rangeHigh 6) ∧
    (after (.sampleFrame (okFrame 6 0 100000)) State.reset).band = .normal ∧
    (after (.sampleFrame (okFrame 6 0 344999)) { State.reset with band := .highHigh }).band = .high ∧
    (after (.sampleFrame (okFrame 6 0 345000)) { State.reset with band := .highHigh }).band = .highHigh := by decide +kernel

/-- A lit consumer of class 0, and the floors at their sum. -/
theorem witness_AllocationEventDistributesTheAvailableRate :
    (fun s : State => s.store.errors = [] ∧ lit s 0 = true ∧ classOf s 0 = 0 ∧ floorSum s ≤ availableRate s)
      (withItem (.consumer 0 cClass) 0 (inState 0 .active State.reset)) := by decide +kernel

/-- One rate in, 1,000 kW; consumers 0 of class 3 and 1 of class 1 ACTIVE with floors of 700, consumer 2 a candidate,
consumer 3 waiting: the highest class is shed, the candidate loses its reservation, the wait goes on. -/
def contended (floor : Nat) : State :=
  let floored := fun (c : Fin 8) (cls : Int) (s : State) => withItem (.consumer c cFloor) floor
    (withItem (.consumer c cClass) cls (withItem (.consumer c cCeiling) 5000 (withItem (.consumer c cHardCeiling) 5000
      (setConsumer c { consumer s c with nomination := 5000 } s))))
  let s := floored 0 3 (floored 1 1 (floored 2 2 (floored 3 0 (flowing 0 1000
    (withItem (.source 0 sInService) 1 (withItem (.holder hMargin) 0 (withItem (.holder hFillLL) 0
      (withItem (.holder hFillL) 0 (atTime 30000 State.reset)))))))))
  inState 0 .active (inState 1 .active
    (setConsumer 2 { consumer s 2 with state := .purging, target := some .active, reservation := .awaiting }
      (setConsumer 3 { consumer s 3 with state := .shed, shedFlag := true } s)))

theorem witness_PeriodExpiryReplacesTheResult :
    (fun s : State => Calm s ∧ s.allocator.timer.start + s.allocator.timer.length = s.allocator.base)
      (atTime 30000 State.reset) ∧
    (fun s : State => Calm s ∧ s.allocator.timer.start + s.allocator.timer.length ≤ s.allocator.base ∧ lit s 0 = true ∧
      lit s 1 = true ∧ isCandidate s 2 = true ∧ isWaiting s 3 = true ∧ availableRate s = 1000) (contended 700) ∧
    ((after .allocationPeriodExpiry (contended 700)).supervisor.consumers.toList.take 4).map
      (fun r => (r.state, r.shedFlag)) =
        [(.shed, true), (.active, false), (.purging, true), (.shed, true)] ∧
    (after .allocationPeriodExpiry (contended 700)).allocator.result.grants[(1 : Fin 8)] = 1000 := by decide +kernel

theorem witness_StartBeginsAPurge :
    Calm State.reset ∧ Taken State.reset (w 2) 2 ∧ ownerOf State.reset 7 = (w 2).party ∧
    (consumer State.reset 7).state = .off ∧ (consumer State.reset 7).damageMark = false ∧
    (consumer (setConsumer 7 { consumer State.reset 7 with damageMark := true } State.reset) 7).damageMark = true ∧
    (consumer (inState 7 .active State.reset) 7).state ≠ .off := by decide +kernel

theorem witness_StopLeadsToOff :
    (∀ st ∈ [ConsumerState.off, .active, .backup, .shed, .tripped, .purging], (fun s : State => Calm s ∧ Taken s (w 2) 2 ∧
      ownerOf s 0 = (w 2).party ∧ (consumer s 0).state = st) (inState 0 st State.reset)) ∧
    (consumer (after (.stop (w 2) 0) (purgesTo 0 .active State.reset)) 0).target = some .off := by decide +kernel

/-- A nomination at the ceiling, and one above it with a grant to cut. -/
theorem witness_NominateClampsAndCuts :
    (fun s : State => Calm s ∧ Taken s (w 6) 6 ∧ ownerOf s 0 = (w 6).party ∧ effectiveCeiling s 0 = 400 ∧
      (consumer (after (.nominate (w 6) 0 400) s) 0).nomination = 400 ∧
      (consumer (after (.nominate (w 6) 0 401) s) 0).nomination = 400)
      (withItem (.consumer 0 cCeiling) 400 (withItem (.consumer 0 cHardCeiling) 400 State.reset)) := by decide +kernel

theorem witness_ClearRechecksATrippedConsumer :
    (fun s : State => Calm s ∧ Taken s (w 2) 2 ∧ ownerOf s 0 = (w 2).party ∧ (consumer s 0).state = .tripped ∧
      recheckPasses s 0 = true ∧ recheckPasses (flowing 4 3000 s) 0 = false) (inState 0 .tripped State.reset) ∧
    (consumer (inState 0 .off State.reset) 0).state ≠ .tripped := by decide +kernel

theorem witness_FuelBackupPurgesTowardBackup :
    (fun s : State => Calm s ∧ Taken s (w 2) 2 ∧ ownerOf s 0 = (w 2).party ∧ hasBackup s 0 = true ∧
      (consumer s 0).state = .active) (withItem (.consumer 0 cBackupPresent) 1 (inState 0 .active State.reset)) ∧
    hasBackup State.reset 0 = false ∧ (consumer State.reset 0).state ≠ .active := by decide +kernel

theorem witness_FuelGasPurgesTowardActive :
    (fun s : State => Calm s ∧ Taken s (w 2) 2 ∧ ownerOf s 0 = (w 2).party ∧ (consumer s 0).state = .backup)
      (inState 0 .backup State.reset) ∧ (consumer State.reset 0).state ≠ .backup := by decide +kernel

/-- Each of the four targets, the pressure at the threshold; then target ACTIVE of class 3, the floors one kW past A. -/
theorem witness_ConfirmedPurgeEntersItsTarget :
    (∀ target ∈ [PurgeTarget.backup, .shed, .off, .active], (fun s : State => Calm s ∧ (consumer s 0).state = .purging ∧
      (consumer s 0).purgeTimer = some ⟨0, 60000⟩ ∧ 60000 = s.supervisor.base ∧ (sample s (lineChannel 0)).state = .valid ∧
      valueInUse s (lineChannel 0) = item s (.consumer 0 cPurgeThreshold) ∧ (consumer s 0).target = some target ∧
      classOf s 0 = 0)
      (withItem (.consumer 0 cClass) 0 (purgesTo 0 target
        (measured 7 (item State.reset (.consumer 0 cPurgeThreshold)) State.reset)))) ∧
    (fun s : State => Calm s ∧ (consumer s 0).state = .purging ∧ (consumer s 0).purgeTimer = some ⟨0, 60000⟩ ∧
      (consumer s 0).target = some .active ∧ classOf s 0 = 3 ∧ floorSum s + litFloor s 0 = availableRate s + 1 ∧
      (consumer (after (.purgeExpiry 0) s) 0).state = .shed)
      (flowing 0 1000 (purgesTo 0 .active (measured 7 (item State.reset (.consumer 0 cPurgeThreshold)) (inState 1 .off
        (inState 2 .off (contended 1001)))))) := by decide +kernel

theorem witness_FailedPurgeTrips :
    (fun s : State => Calm s ∧ (consumer s 0).state = .purging ∧ (consumer s 0).purgeTimer = some ⟨0, 60000⟩ ∧
      60000 = s.supervisor.base ∧ (sample s (lineChannel 0)).state ≠ .valid) (purgesTo 0 .active State.reset) ∧
    (fun s : State => item s (.consumer 0 cPurgeThreshold) + 1 = valueInUse s (lineChannel 0))
      (purgesTo 0 .off (measured 7 (item State.reset (.consumer 0 cPurgeThreshold) + 1) State.reset)) := by decide +kernel

theorem witness_MaskExpiryTripsOrStops :
    (fun s : State => Calm s ∧ (consumer s 0).overdrawTimer = some ⟨0, 5000⟩ ∧ (consumer s 0).lineLowTimer = some ⟨0, 5000⟩ ∧
      5000 = s.supervisor.base ∧ (consumer s 0).state = .active ∧ overdrawLimit s 0 < draw s 0 ∧
      item s (.consumer 0 cLineMinimum) ≠ 0 ∧ valueInUse s (lineChannel 0) < item s (.consumer 0 cLineMinimum))
      (measured 7 0 (withItem (.consumer 0 cLineMinimum) 1 (flowing 4 3000 (masked 0 .active State.reset)))) ∧
    (fun s : State => (consumer s 0).state = .active ∧ item s (.consumer 0 cLineMinimum) = 0 ∧ valueInUse s (lineChannel 0) < 0)
      (measured 7 (-1) (masked 0 .active State.reset)) ∧
    (fun s : State => Calm s ∧ (consumer s 0).state = .active ∧ draw s 0 ≤ overdrawLimit s 0 ∧
      item s (.consumer 0 cLineMinimum) ≠ 0 ∧ item s (.consumer 0 cLineMinimum) ≤ valueInUse s (lineChannel 0))
      (measured 7 1 (withItem (.consumer 0 cLineMinimum) 1 (masked 0 .active State.reset))) ∧
    (fun s : State => Calm s ∧ (consumer s 0).passingTimer = some ⟨0, 5000⟩ ∧ (consumer s 0).state = .off ∧
      consumerItem s 0 cPassingThreshold < draw s 0) (flowing 4 3000 (masked 0 .off State.reset)) ∧
    (fun s : State => Calm s ∧ (consumer s 0).passingTimer = some ⟨0, 5000⟩ ∧ (consumer s 0).state = .tripped ∧
      (consumer s 0).causes.valvePassing = false ∧ consumerItem s 0 cPassingThreshold < draw s 0)
      (flowing 4 3000 (masked 0 .tripped State.reset)) ∧
    draw (masked 0 .tripped State.reset) 0 ≤ consumerItem (masked 0 .tripped State.reset) 0 cPassingThreshold := by
  decide +kernel

theorem witness_LowDrawExpiryOnlyReports :
    (fun s : State => Calm s ∧ (consumer s 0).lowDrawTimer = some ⟨0, 5000⟩ ∧ 5000 = s.supervisor.base ∧
      (consumer s 0).state = .active ∧ draw s 0 < grant s 0 * consumerItem s 0 cLowPct / 100)
      (setResult { State.reset.allocator.result with grants := State.reset.allocator.result.grants.set 0 1000 }
        (withItem (.consumer 0 cLowPct) 100 (masked 0 .active State.reset))) ∧
    (fun s : State => grant s 0 * consumerItem s 0 cLowPct / 100 ≤ draw s 0) (masked 0 .active State.reset) := by
  decide +kernel

theorem witness_RecoveryExpiryPurgesOrWaits :
    ∀ n ∈ [0, 2], (fun s : State => Calm s ∧ (consumer s 0).recoveryTimer = some ⟨0, 5000⟩ ∧ 5000 = s.supervisor.base ∧
      (consumer s 0).state = .tripped ∧ isAuto s 0 = true ∧ (consumer s 0).recoveryCount < 3 ∧
      recheckPasses s 0 = true ∧ recheckPasses (flowing 4 3000 s) 0 = false) (recovering 0 n State.reset) := by decide +kernel

/-- With the clock at 950 the gate of two intervals opens at 2,700 and the reach ends at 8,100. -/
theorem witness_ScheduleChecksAndInsertsTheEntry :
    (fun s : State => Calm s ∧ ScheduleOrdered s ∧ Taken s (g 11) 11 ∧ s.settlement.clock ≠ none ∧
      currentRegularStart s + itemNat s (.exportItem xGate) * itemNat s .intervalLength = 2700 ∧
      currentRegularStart s + 8 * itemNat s .intervalLength = 8100 ∧ s.exports.schedule.length = 7)
      (scheduled [1800, 2700, 3600, 4500, 5400, 6300, 7200] (clocked 950 900 1800 State.reset)) ∧
    (fun s : State => Calm s ∧ ScheduleOrdered s ∧ s.exports.schedule.length = 8 ∧
      (∀ e ∈ s.exports.schedule, e.start ≠ 8100) ∧ ∃ e ∈ s.exports.schedule, e.start = 2700)
      (scheduled [900, 1800, 2700, 3600, 4500, 5400, 6300, 7200] (clocked 950 900 1800 State.reset)) ∧
    ScheduleOrdered State.reset ∧ State.reset.settlement.clock = none ∧ (w 11).party ≠ .grid := by decide +kernel

/-- Every clause of what a change does: a source's item, one that can lower a demand, the two recovery modes, a zero-flow
timeout already passed and one that is not. -/
theorem witness_WritePutsTheValueInForce :
    Calm State.reset ∧ Taken State.reset (w 8) 8 ∧ resolveName ⟨0, 0, 1⟩ = some (.item (.consumer 0 cClass)) ∧
    State.reset.contracts.locked = false ∧ itemInRange (.consumer 0 cClass) 0 = true ∧
    itemInRange (.consumer 0 cClass) 3 = true ∧ (consumer State.reset 0).state = .off ∧
    resolveName ⟨7, 0, 0⟩ = some (.item .intervalLength) ∧ State.reset.settlement.clock = none ∧
    consistent (projected State.reset) [(.consumer 0 cClass, 0)] = true ∧
    consistent (projected State.reset) [(.intervalLength, 3600)] = true ∧
    (∀ e ∈ [((⟨1, 3, 0⟩ : ItemName), Item.source 3 sInService, (1 : Int)), (⟨0, 7, 3⟩, .consumer 7 cCeiling, 4000000),
        (⟨0, 0, 18⟩, .consumer 0 cRecoveryMode, 1), (⟨0, 0, 18⟩, .consumer 0 cRecoveryMode, 0),
        (⟨1, 0, 3⟩, .source 0 sZeroFlow, 1), (⟨6, 0, 0⟩, .exportItem xHeatRate, 1000),
        (⟨6, 0, 1⟩, .exportItem xDefaultExport, 0)],
      resolveName e.1 = some (.item e.2.1) ∧ itemInRange e.2.1 e.2.2 = true ∧
      consistent (projected State.reset) [e.2] = true) ∧
    (fun s : State => (consumer s 0).state = .tripped ∧ (consumer s 0).recoveryCount < 3) (recovering 0 2 State.reset) ∧
    LowersDemand (withItem (.consumer 0 cLinked) 1 State.reset) 0 (.exportItem xHeatRate) ∧
    ∀ n ∈ [999, 1000], (fun s : State => zeroFlowChannel (.source 0 sZeroFlow) = some 0 ∧ (channel s 0).state ≠ .noFlow ∧
      (channel s 0).lastArrival = some 0 ∧ sinceArrival s 0 = n) (atTime n (firstAt 0 State.reset)) := by decide +kernel

theorem witness_WriteIsRefusedAtItsFirstFailingCheck :
    Calm State.reset ∧ Taken State.reset (w 8) 8 ∧ resolveName ⟨8, 0, 0⟩ = some .offset ∧ resolveName ⟨9, 0, 0⟩ = some .lock ∧
    entryNaming State.reset (.item .allocationPeriod) = none ∧ itemInRange .allocationPeriod 4 = false ∧
    entryNaming (withProposals [entry 1 [(.item .allocationPeriod, 5)] allParties (onlyParty .works)] State.reset)
      (.item .allocationPeriod) ≠ none ∧
    isStructural (.consumer 0 cOwner) = true ∧ itemInRange (.consumer 0 cOwner) 2 = true ∧
    (consumer (inState 0 .active State.reset) 0).state ≠ .off ∧
    (clocked 0 0 900 State.reset).settlement.clock ≠ none ∧ itemInRange (.holder hTLL) 100001 = true ∧
    consistent (projected State.reset) [(.holder hTLL, 100001)] = false := by decide +kernel

theorem witness_WriteIdentityReplacesBothFields :
    Calm State.reset ∧ Taken State.reset (w 30) (6 + 24) ∧ State.reset.contracts.locked = false ∧
    (List.replicate 24 0x7E#8).length = 24 ∧ (∀ b ∈ List.replicate 24 0x7E#8, 0x20 ≤ b.toNat ∧ b.toNat ≤ 0x7E) ∧
    Taken State.reset (w 31) (6 + (List.replicate 25 0x20#8).length) ∧ (0x7F#8).toNat > 0x7E := by decide +kernel

theorem witness_ProposeOpensAnEntry :
    (fun s : State => Calm s ∧ Taken s (w 9) 9 ∧ resolveItems [(⟨9, 0, 0⟩, 1)] = some [(.lock, 1)] ∧
      hasParty (refSet (projected s) .lock) .works = true ∧ entryNaming s .lock = none ∧ s.contracts.proposals.length < 8 ∧
      refInRange .lock 1 = true ∧ consistent (projected s) (heldItems [(.lock, 1)]) = true ∧ s.contracts.locked = false)
      State.reset ∧
    (fun s : State => s.settlement.clock ≠ none ∧ hasParty (refSet (projected s) .offset) .works = true ∧
      refInRange .offset 86400 = true) (clocked 5 0 900 State.reset) ∧
    resolveItems [(⟨2, 0, 8⟩, 1), (⟨2, 0, 9⟩, 2)] = some [(.item (.holder hMargin), 1), (.item (.holder hRestoreMargin), 2)] ∧
    (fun s : State => (∀ x ∈ s.contracts.proposals, x.number ≠ 7) ∧ s.contracts.proposals.length = 7)
      (withProposals ([1, 2, 3, 4, 5, 6, 8].map fun n => entry n [] allParties (onlyParty .grid)) State.reset) ∧
    ∀ e ∈ [((0 : Fin 9), Party.works, ([] : List (ItemRef × Int)), State.reset),
        (1, .grid, [(.item (.holder hMargin), 1)], State.reset), (2, .works, [(.offset, 1)], State.reset),
        (3, .works, [(.lock, 1)], withProposals [entry 1 [(.lock, 1)] allParties (onlyParty .grid)] State.reset),
        (4, .works, [(.lock, 1)], withProposals ([1, 2, 3, 4, 5, 6, 7, 8].map fun n =>
          entry n [] allParties (onlyParty .grid)) State.reset),
        (5, .works, [(.lock, 2)], State.reset), (6, .works, [(.item (.holder hTLL), 100001)], State.reset),
        (7, .works, [(.item (.consumer 0 cHardCeiling), 5)], setLocked true State.reset),
        (8, .works, [(.item (.consumer 0 cHardCeiling), 5)], State.reset)],
      Calm e.2.2.2 ∧ passesCheck e.2.1 e.2.2.1 e.2.2.2 e.1 = false ∧
      ∀ j : Fin 9, j < e.1 → passesCheck e.2.1 e.2.2.1 e.2.2.2 j = true := by
  decide +kernel

/-- Each path of CONCUR by WORKS on an entry that GRID proposed. -/
theorem witness_ConcurJoinsAndCompletes :
    Calm State.reset ∧ Taken State.reset (w 3) 3 ∧ entryOf State.reset 1 = none ∧
    ∀ e ∈ [entry 1 [(.lock, 1)] (onlyParty .grid) (onlyParty .grid), entry 1 [(.lock, 1)] allParties (onlyParty .works),
        entry 1 [(.lock, 1)] allParties (onlyParty .grid), entry 1 [(.lock, 1)] (withWorks .grid) (onlyParty .grid),
        entry 1 [(.item .allocationPeriod, 5)] (withWorks .grid) (onlyParty .grid)],
      (fun s : State => Calm s ∧ entryOf s 1 = some e ∧ (addParty e.concurred .works = e.parties ↔ e.parties = withWorks .grid))
        (withProposals [e] State.reset) := by decide +kernel

/-- A step to 0, one below 0, and one to the greatest time that the clock holds. -/
theorem witness_CompletedClockStepMovesTheClock :
    (∀ d ∈ [(-50 : Int), -51], (fun s : State => Calm s ∧ ScheduleOrdered s ∧
      entryOf s 1 = some (entry 1 [(.offset, d)] (withWorks .grid) (onlyParty .grid)) ∧
      addParty (onlyParty .grid) .works = withWorks .grid ∧ s.settlement.clock = some 50 ∧
      s.settlement.openRecord = some (record 1 0 900))
      (withProposals [entry 1 [(.offset, d)] (withWorks .grid) (onlyParty .grid)] (clocked 50 0 900 State.reset))) ∧
    ((281474976710605 : Int) + 50 < 281474976710656) := by decide +kernel

theorem witness_RejectAndWithdrawRemoveAnOpenEntry :
    Calm State.reset ∧ Taken State.reset (w 3) 3 ∧ entryOf State.reset 1 = none ∧
    ∀ e ∈ [entry 1 [(.lock, 1)] allParties (onlyParty .works), entry 1 [(.lock, 1)] (onlyParty .grid) (onlyParty .grid),
        { entry 1 [(.lock, 1)] allParties allParties with staged := true, expiry := none },
        { entry 1 [(.lock, 1)] allParties (onlyParty .grid) with proposer := .grid }],
      (fun s : State => Calm s ∧ entryOf s 1 = some e) (withProposals [e] State.reset) := by decide +kernel

theorem witness_ProposalExpiryRemovesAnOpenEntry :
    ∀ base ∈ [1799, 1800], (fun s : State => Calm s ∧ s.contracts.base = base ∧
      (entryOf s 1).bind (·.expiry) = some 1800)
      (withProposals [entry 1 [(.lock, 1)] allParties (onlyParty .works)]
        { State.reset with contracts := { State.reset.contracts with base := base } }) := by decide +kernel

/-- The clauses of a boundary on recovery: an AUTO consumer that is TRIPPED, with and without a running delay. -/
theorem witness_RecoveryAtBoundary :
    ∀ tm ∈ [none, some ⟨0, 5000⟩], (fun s : State => (consumer s 0).state = .tripped ∧ isAuto s 0 = true ∧
      (consumer s 0).recoveryTimer = tm ∧ s.contracts.proposals = [])
      ((fun s => setConsumer 0 { consumer s 0 with recoveryTimer := tm } s) (recovering 0 3 State.reset)) := by decide +kernel

theorem witness_WriteClockOpensOrSteps :
    Calm State.reset ∧ ScheduleOrdered State.reset ∧ Taken State.reset (w 5) 5 ∧ State.reset.contracts.locked = false ∧
    State.reset.settlement.openRecord = none ∧
    (fun s : State => Calm s ∧ ScheduleOrdered s ∧ s.settlement.clock = some 899 ∧
      s.settlement.openRecord = some (record 1 0 900)) (clocked 899 0 900 State.reset) ∧
    (setLocked true State.reset).contracts.locked = true := by decide +kernel

/-- Corrections to the last second of the record and past it, to its first second and before it. -/
theorem witness_TrimMovesTheClockOnce :
    ∀ k ∈ [880, 881, 20, 19], (fun s : State => Calm s ∧ Taken s (w 2) 2 ∧ s.settlement.clock = some k ∧
      s.settlement.openRecord = some (record 1 0 900) ∧ (record 1 0 900).trimmed = false) (clocked k 0 900 State.reset) := by
  decide +kernel

/-- A trim that would carry the clock past its greatest value (R142, log 7). -/
theorem witness_TrimMovesTheClockOnce_beyond :
    (fun s : State => Calm s ∧ Taken s (w 2) 2 ∧ s.settlement.clock = some 281474976710650 ∧
      s.settlement.openRecord = some (record 1 281474976709800 281474976710700) ∧
      281474976710656 ≤ 281474976710650 + 20 ∧ 281474976710650 + 20 < 281474976710700)
      (clocked 281474976710650 281474976709800 281474976710700 State.reset) := by
  decide +kernel

/-- An OPEN entry and four STAGED ones: of a consumer that is not OFF, one that applies, one inconsistent with it, and one
more that applies. -/
def fiveEntries : List Proposal :=
  entry 1 [(.lock, 1)] allParties (onlyParty .works) ::
    ([(2, [(.item (.consumer 0 cOwner), 1)]), (3, [(.item (.holder hTLL), 60000)]), (4, [(.item (.holder hTL), 59999)]),
      (5, [(.item .allocationPeriod, 5)])] : List (Nat × List (ItemRef × Int))).map fun e =>
        { entry e.1 e.2 allParties allParties with staged := true, expiry := none }

theorem witness_RegularBoundaryClosesAndOpens :
    (∀ k ∈ [899, 900], (fun s : State => Calm s ∧ ScheduleOrdered s ∧ s.settlement.clock = some k ∧
      s.settlement.openRecord = some (record 1 0 900)) (scheduled [900, 1800] (clocked k 0 900 State.reset))) ∧
    (fun s : State => Calm s ∧ ScheduleOrdered s ∧ s.settlement.clock = some 900 ∧
      (fates (fun c => (consumer s c).state != .off) s.contracts.contract s.contracts.proposals).map (·.2) =
        [.kept, .deferred, .applied, .discarded, .applied])
      (withProposals fiveEntries (inState 0 .active (clocked 900 0 900 State.reset))) := by
  decide +kernel

theorem witness_ArchiveReadsAtTheCursor :
    (fun s : State => Calm s ∧ Taken s (w 1) 1 ∧ s.settlement.gapMarks[partyIndex (w 1).party] = false ∧
      s.settlement.archive.find? (·.number == s.settlement.cursors[partyIndex (w 1).party]) = some (closed 1) ∧
      s.settlement.archive.head? = some (closed 1)) (archived [1, 2] State.reset) ∧
    (fun s : State => s.store.knownDamaged[placeOf 1] = true)
      (withStore (fun f => { f with knownDamaged := f.knownDamaged.set 1 true }) (archived [1, 2] State.reset)) ∧
    State.reset.settlement.archive = [] ∧
    ∀ r ∈ (archived [2, 3] State.reset).settlement.archive, r.number ≠ 1 := by decide +kernel

theorem witness_CursorMovesWithinTheRing :
    Calm State.reset ∧ State.reset.settlement.archive = [] ∧
    (fun s : State => Calm s ∧ Taken s (w 6) 6 ∧ s.settlement.archive.head? = some (closed 5) ∧
      s.settlement.archive.getLast? = some (closed 6) ∧ (closed 5).number = 5 ∧ (closed 6).number = 6)
      (archived [5, 6] State.reset) := by decide +kernel

theorem witness_ScrubReadMovesTheSweep :
    State.reset.power.running = true ∧ State.reset.allocator.triggers = 0 ∧ State.reset.store.errors = [] ∧
    State.reset.store.sweepPos + 1 < 16384 ∧
    (∀ n ∈ [16382, 16383], (withStore (fun f => { f with sweepPos := n }) State.reset).store.sweepPos = n) ∧
    (fun s : State => s.store.errors = [(s.store.sweepPos, .oneBit)] ∧ thingAt s.store.layout s.store.sweepPos = some (.totals 0))
      (withStore (fun f => { f with sweepPos := 1, errors := [(1, .oneBit)] }) State.reset) ∧
    ∀ e ∈ [(1, Thing.totals 0), (36, .totals 12), (45, .totals 15), (48, .contract (.consumer 0 cOwner)), (395, .nomination 0),
        (410, .damageMark 7), (411, .proposal 0), (523, .proposal 7), (539, .commissioning), (540, .revision),
        (541, .nextProposal), (542, .identity), (550, .schedule 0), (571, .schedule 7), (574, .latch), (576, .openRecord 0),
        (585, .openRecord 7), (615, .openRecord 22), (643, .openRecord 48), (644, .archive 0), (12044, .archive 95),
        (12164, .heatAccount), (12168, .gasAccount), (12172, .cursor .works), (12177, .gapMark .grid), (12178, .nextRecord),
        (12179, .report 0), (12183, .report 3), (12184, .marks), (0, .signature 0), (8192, .signature 2)],
      (fun s : State => s.power.running = true ∧ s.allocator.triggers = 0 ∧
        s.store.errors = [(s.store.sweepPos, .uncorrectable)] ∧ s.store.sweepPos + 1 < 16384 ∧
        thingAt s.store.layout s.store.sweepPos = some e.2)
        (withStore (fun f => { f with sweepPos := e.1, errors := [(e.1, .uncorrectable)] })
          (withProposals fiveEntries (scheduled [900] (archived [1, 2] (clocked 5 0 900 State.reset))))) := by decide +kernel

/-- Word 48 of the layout that reset names holds the first item of consumer 0, and word 260 one of no consumer. -/
theorem witness_DamagedItemFallsToItsDefault :
    ∀ e ∈ [(48, Item.consumer 0 cOwner), (260, .holder hMargin)], (fun s : State => s.power.running = true ∧
      s.allocator.triggers = 0 ∧ s.store.errors = [(s.store.sweepPos, .uncorrectable)] ∧ s.store.sweepPos + 1 < 16384 ∧
      thingAt s.store.layout s.store.sweepPos = some (.contract e.2))
      (withStore (fun f => { f with sweepPos := e.1, errors := [(e.1, .uncorrectable)] }) State.reset) := by decide +kernel

/-- Word 0 holds a signature word; words 12179 and 12180 of the layout that reset names the corrected and the uncorrectable
count. -/
def damagedSignature (errors : List (Nat × WordError)) : State :=
  stopped (withStore (fun f => { f with errors := errors }) State.reset)

theorem witness_ColdStartGivesTheResetState :
    blank.power.running = false ∧ signatureValid blank = false ∧
    (fun s : State => s.power.running = false ∧ signatureValid s = false ∧ readsDamaged s (.report 1) = true ∧
      signatureDamaged s 0 = true) (damagedSignature [(0, .uncorrectable), (12180, .uncorrectable)]) ∧
    (fun s : State => s.power.running = false ∧ signatureValid s = false ∧ readsDamaged s (.report 0) = true ∧
      wordsInError (.signature 0) s ≠ [] ∧ signatureDamaged s 0 = false)
      (damagedSignature [(0, .oneBit), (4096, .uncorrectable), (12179, .uncorrectable)]) := by
  decide +kernel

/-- At a cold start the damage of the uncorrectable count is told before that of the signature word being counted (R170), and
one that is cut short leaves the signature not valid (R173). -/
theorem test_cold_start_tells_of_the_report_first :
    (readSignature (damagedSignature [(0, .uncorrectable), (12180, .uncorrectable)]) 0).links.notices[0][clsIntegrity] =
      { pending := true, count := 2, detail := some (.integrity ⟨10, 0⟩) } ∧
    signatureValid (after (.startUpOperation .low true) (damagedSignature [(0, .uncorrectable), (12180, .uncorrectable)])) =
      false := by decide +kernel

theorem witness_RestartKeepsTheStore :
    (fun s : State => s.power.running = false ∧ s.store.errors = [] ∧ signatureValid s = true ∧
      s.settlement.clock = some 899 ∧ s.settlement.openRecord = some (record 1 0 900))
      (stopped (clocked 899 0 900 State.reset)) := by decide +kernel

theorem witness_RestartPastTheEndClosesTheRecord :
    (fun s : State => s.power.running = false ∧ s.store.errors = [] ∧ signatureValid s = true ∧ ScheduleOrdered s ∧
      s.settlement.clock = some 900 ∧ s.settlement.openRecord = some (record 1 0 900) ∧ 0 < itemNat s .intervalLength ∧
      ∀ e ∈ s.contracts.proposals, e.staged = true → ∀ x ∈ e.items, x.1 ≠ .item .intervalLength)
      (stopped (withProposals fiveEntries (clocked 900 0 900 State.reset))) ∧
    (fates (fun _ => false) State.reset.contracts.contract (fiveEntries.filter (·.staged))).map (·.2) =
      [.applied, .applied, .discarded, .applied] := by decide +kernel

theorem witness_SuppliesResetAndStoreErrors :
    State.reset.power.backupSupply = true ∧ State.reset.power.mainSupply = true ∧ blank.power.mainSupply = false ∧
    (after .backupSupplyLoss State.reset).power.backupSupply = false ∧ errorsInOrder State.reset.store.errors = true := by
  decide +kernel

theorem witness_QueriesChangeNothing :
    Calm State.reset ∧ portBusy State.reset (w 3).party = false ∧ (w 3).length = 3 ∧ (w 5).length = 5 := by decide +kernel

theorem witness_MaskSetsTheEffectiveMask :
    Calm State.reset ∧ Taken State.reset (w 3) 3 ∧ (1023 < 1024) ∧ Taken State.reset ⟨.grid, 3⟩ 3 := by decide +kernel

/-- RESTART, class 2, pends at reset and is the lowest; with it masked nothing is left. -/
theorem witness_NoticeReturnsTheLowestClass :
    (fun s : State => Calm s ∧ Taken s (w 1) 1 ∧ s.links.notices[partyIndex (w 1).party][(2 : Fin 10)].pending = true ∧
      s.links.masks[partyIndex (w 1).party][(2 : Fin 10)] = false ∧
      s.links.notices[partyIndex (w 1).party][(2 : Fin 10)].detail = some (.restart .cold) ∧
      ∀ j : Fin 10, j < 2 → s.links.notices[partyIndex (w 1).party][j].pending = false) State.reset ∧
    ∀ j : Fin 10, (after (.notice (w 1)) State.reset).links.notices[partyIndex (w 1).party][j].pending = false := by
  decide +kernel

/-- The conditions of the invariants hold at reset with commands waiting, and a step from there answers a next state. -/
theorem witness_LinesFollowTheirStates :
    LinesFollow (queued [.start (w 2) 0] State.reset) ∧ NoticesSound (queued [.start (w 2) 0] State.reset) ∧
    ∃ t, step (queued [.start (w 2) 0] State.reset) = .next t := ⟨by decide +kernel, by decide +kernel, ⟨_, rfl⟩⟩

theorem witness_ConsumersStayConsistent :
    ConsumersConsistent (queued [.start (w 2) 0] State.reset) ∧ FieldConsistent (queued [.start (w 2) 0] State.reset) ∧
    ∃ t, step (queued [.start (w 2) 0] State.reset) = .next t := ⟨by decide +kernel, by decide +kernel, ⟨_, rfl⟩⟩

theorem witness_AllocationStaysSound :
    (fun s : State => ConsumersConsistent s ∧ AllocationSound s ∧ GrantsWithinLimits s) (queued [.start (w 2) 0] State.reset) ∧
    ∃ t, step (queued [.start (w 2) 0] State.reset) = .next t := ⟨by decide +kernel, ⟨_, rfl⟩⟩

theorem witness_ArchiveStaysOrdered :
    (fun s : State => OneOpenRecord s ∧ ArchiveOrdered s ∧ TotalsInRange s)
      (queued [.writeClock (w 5) 1000] State.reset) ∧
    ∃ t, step (queued [.writeClock (w 5) 1000] State.reset) = .next t := ⟨by decide +kernel, ⟨_, rfl⟩⟩

theorem witness_ContractStaysInRange :
    ContractInRange (queued [.write (w 8) ⟨3, 0, 0⟩ 5] State.reset) ∧ ProposalsSound (queued [.write (w 8) ⟨3, 0, 0⟩ 5] State.reset) ∧
    ∃ t, step (queued [.write (w 8) ⟨3, 0, 0⟩ 5] State.reset) = .next t := by
  refine ⟨fun i => ?_, by decide +kernel, ⟨_, rfl⟩⟩
  have h : allItems.all (fun i => itemInRange i (item State.reset i)) = true := by decide +kernel
  have m : i ∈ allItems := by cases i <;> simp [allItems]
  exact List.all_eq_true.mp h i m

theorem witness_ScheduleStaysOrdered :
    (fun s : State => ScheduleOrdered s ∧ StoreSound s)
      (queued [.schedule (g 11) 2700 0] (clocked 950 900 1800 State.reset)) ∧
    ∃ t, step (queued [.schedule (g 11) 2700 0] (clocked 950 900 1800 State.reset)) = .next t :=
  ⟨by decide +kernel, ⟨_, rfl⟩⟩

end Sys2Proof.Tests
end

section
/-! The band of a level (3-2): R38's table as a relation between a band and a level, and the band set's order rule, by which
the ranges of the table lie side by side in the order of the bands. -/

namespace Sys2Proof.Proofs.Holder

open Sys2Proof Sys2Proof.Machine

/-- The order rule in arithmetic (3-1). -/
theorem ordered_iff (b : BandSet) :
    b.ordered = true ↔ b.tLL + b.hysteresis < b.tL ∧ b.tL + b.hysteresis < b.tH ∧ b.tH + b.hysteresis < b.tHH := by
  simp [BandSet.ordered, and_assoc]

theorem thresholds_increase {b : BandSet} (ordered : b.ordered = true) (nonneg : 0 ≤ b.hysteresis) :
    b.tLL < b.tL ∧ b.tL < b.tH ∧ b.tH < b.tHH := by
  obtain ⟨hL, hH, hHH⟩ := (ordered_iff b).mp ordered
  exact ⟨by omega, by omega, by omega⟩

/-- The levels of a band, row by row as R38's table gives them. -/
def InRangeOf (b : BandSet) (level : Int) : Band → Prop
  | .lowLow   => level < b.tLL
  | .low      => b.tLL ≤ level ∧ level < b.tL
  | .normal   => b.tL ≤ level ∧ level < b.tH
  | .high     => b.tH ≤ level ∧ level < b.tHH
  | .highHigh => b.tHH ≤ level

/-- Whatever the band set, a level lies in the range of its band. -/
theorem inRangeOf_bandOf (b : BandSet) (level : Int) : InRangeOf b level (bandOf b level) := by
  unfold bandOf
  split
  next hLL => exact hLL
  next hLL =>
    split
    next hL => exact ⟨Int.not_lt.mp hLL, hL⟩
    next hL =>
      split
      next hH => exact ⟨Int.not_lt.mp hL, hH⟩
      next hH =>
        split
        next hHH => exact ⟨Int.not_lt.mp hH, hHH⟩
        next hHH => exact Int.not_lt.mp hHH

/-- Where the order rule holds, the ranges lie in the order of the bands: of two levels the higher has no lower band. -/
theorem bandCode_le_of_inRangeOf {b : BandSet} {l m : Int} {lower upper : Band} (ordered : b.ordered = true)
    (nonneg : 0 ≤ b.hysteresis) (hl : InRangeOf b l lower) (hm : InRangeOf b m upper) (le : l ≤ m) :
    bandCode lower ≤ bandCode upper := by
  obtain ⟨hL, hH, hHH⟩ := thresholds_increase ordered nonneg
  cases lower <;> cases upper <;> simp only [InRangeOf, bandCode] at hl hm ⊢ <;> omega

/-- Different bands have different codes: the code gives the constructor back. -/
theorem bandCode_injective : Function.Injective bandCode :=
  Function.LeftInverse.injective (g := Band.ofNat) fun band => by cases band <;> rfl

/-- The ranges are disjoint where the order rule holds, so the table's row decides the band. -/
theorem inRangeOf_iff_bandOf_eq {b : BandSet} (ordered : b.ordered = true) (nonneg : 0 ≤ b.hysteresis) (level : Int)
    (band : Band) : InRangeOf b level band ↔ bandOf b level = band := by
  constructor
  · intro inRange
    have own := inRangeOf_bandOf b level
    exact bandCode_injective (Nat.le_antisymm (bandCode_le_of_inRangeOf ordered nonneg own inRange (Int.le_refl level))
      (bandCode_le_of_inRangeOf ordered nonneg inRange own (Int.le_refl level)))
  · rintro rfl
    exact inRangeOf_bandOf b level

theorem bandCode_bandOf_mono {b : BandSet} (ordered : b.ordered = true) (nonneg : 0 ≤ b.hysteresis) {l m : Int}
    (le : l ≤ m) : bandCode (bandOf b l) ≤ bandCode (bandOf b m) :=
  bandCode_le_of_inRangeOf ordered nonneg (inRangeOf_bandOf b l) (inRangeOf_bandOf b m) le

/-- Settles O16: the rows of R38's table are the ranges of the bands, and the ranges lie in the order of the bands. -/
theorem bandOfALevel : Obligations.BandOfALevel := by
  unfold Obligations.BandOfALevel
  constructor
  · intro b level ordered nonneg
    have row := inRangeOf_iff_bandOf_eq ordered nonneg level
    exact ⟨row .lowLow, row .low, row .normal, row .high, row .highHigh⟩
  · intro b l m ordered nonneg le
    exact bandCode_bandOf_mono ordered nonneg le

end Sys2Proof.Proofs.Holder
end

section
/-! What an allocation event leaves where it was and where it leaves a consumer that purges: the layer of facts about the
event (4-4) that the requests of the consumers' owners stand on. -/

namespace Sys2Proof.Proofs.Event

open Sys2Proof Sys2Proof.Machine

/-! ## What no notice moves -/

/-- The lines and the parts of the links that no notice moves: every line but attention, the ports and the masks. -/
structure Standing where
  gasEn    : Vector Bool 8
  backupEn : Vector Bool 8
  flareEn  : Bool
  ports    : Vector (Option Response) 3
  masks    : Vector (Vector Bool 10) 3

def standing (s : State) : Standing :=
  ⟨s.lines.gasEn, s.lines.backupEn, s.lines.flareEn, s.links.ports, s.links.masks⟩

theorem raiseNotice_standing (ps : PartySet) (k : Fin 10) (d : Detail) (s : State) :
    standing (raiseNotice ps k d s) = standing s :=
  foldl_keeps standing _ (fun _ _ => by split <;> rfl) _ _

theorem noticeGrant_standing (c : Fin 8) (kw : Nat) (s : State) : standing (noticeGrant c kw s) = standing s :=
  raiseNotice_standing ..

theorem noticeShed_standing (c : Fin 8) (restored : Bool) (s : State) : standing (noticeShed c restored s) = standing s :=
  raiseNotice_standing ..

theorem eventNotices_standing (p : Plan) (old : Vector Nat 8) (s : State) :
    standing (eventNotices p old s) = standing s := by
  have grants : ∀ (t : State) (c : Fin 8),
      standing (if p.grants[c] ≠ old[c] then noticeGrant c p.grants[c] t else t) = standing t := by
    intro t c
    split
    · exact noticeGrant_standing ..
    · rfl
  have sheds : ∀ (t : State) (c : Fin 8), standing (if p.shed.contains c then noticeShed c false t
      else if p.restored = some c then noticeShed c true t else t) = standing t := by
    intro t c
    split
    · exact noticeShed_standing ..
    · split
      · exact noticeShed_standing ..
      · rfl
  exact (foldl_keeps standing _ grants _ _).trans (foldl_keeps standing _ sheds _ _)

theorem lowerGrant_standing (c : Fin 8) (kw : Nat) (s : State) : standing (lowerGrant c kw s) = standing s := by
  unfold lowerGrant
  split
  · exact noticeGrant_standing ..
  · rfl

/-- An event answers no request and masks no class. -/
theorem runStages_ports_masks (s : State) :
    (runStages s).links.ports = s.links.ports ∧ (runStages s).links.masks = s.links.masks := by
  have plain := plan_links s (availableRate s)
  unfold runStages
  generalize plan (availableRate s) s = p at plain ⊢
  have applied : (applyPlan p s).links = s.links := plain
  have noticed := eventNotices_standing p s.allocator.result.grants (applyPlan p s)
  rw [eventEvaluations_links, ← applied]
  exact ⟨congrArg Standing.ports noticed, congrArg Standing.masks noticed⟩

/-! ## Valve lines -/

/-- Neither valve line of the consumer is asserted (R75). -/
def ValvesClosed (s : State) (c : Fin 8) : Prop := s.lines.gasEn[c] = false ∧ s.lines.backupEn[c] = false

theorem valvesClosed_of_standing {s t : State} (h : standing t = standing s) {c : Fin 8} (closed : ValvesClosed s c) :
    ValvesClosed t c := by
  have gas : t.lines.gasEn = s.lines.gasEn := congrArg Standing.gasEn h
  have backup : t.lines.backupEn = s.lines.backupEn := congrArg Standing.backupEn h
  unfold ValvesClosed
  rw [gas, backup]
  exact closed

/-- The valve lines follow the state, and two states alone assert one (R75). -/
theorem valvesClosed_putConsumer_same (c : Fin 8) {r : Consumer} (ha : r.state ≠ .active) (hb : r.state ≠ .backup)
    (s : State) : ValvesClosed (putConsumer c r s) c := by
  have record : consumer (setConsumer c r s) c = r := consumer_setConsumer_same c r s
  simp [ValvesClosed, putConsumer, refreshValves, record, ha, hb]

theorem valvesClosed_putConsumer {c : Fin 8} (d : Fin 8) {r : Consumer} (ha : r.state ≠ .active) (hb : r.state ≠ .backup)
    {s : State} (closed : ValvesClosed s c) : ValvesClosed (putConsumer d r s) c := by
  by_cases e : c = d
  · subst e
    exact valvesClosed_putConsumer_same c ha hb s
  · obtain ⟨gas, backup⟩ := closed
    exact ⟨(getElem_set_fin _ e _).trans gas, (getElem_set_fin _ e _).trans backup⟩

theorem reserve_lines (a : Nat) (s : State) : (reserve a s).state.lines = s.lines :=
  foldl_keeps (fun x : Reserving => x.state.lines) _ (fun _ _ => by unfold reserveOne; split <;> rfl) _ _

/-- A shed consumer is PURGING or SHED (R59, R85). -/
theorem shedRecord_state (s : State) (c : Fin 8) :
    (shedRecord s c).state ≠ .active ∧ (shedRecord s c).state ≠ .backup := by
  unfold shedRecord
  split <;> exact ⟨nofun, nofun⟩

/-- A restored consumer is PURGING (R61). -/
theorem restored_state (s : State) (c : Fin 8) : (restored s c).state ≠ .active ∧ (restored s c).state ≠ .backup :=
  ⟨nofun, nofun⟩

theorem valvesClosed_shedding (a : Nat) {s : State} {c : Fin 8} (closed : ValvesClosed s c) :
    ValvesClosed (shedding a s).1 c := by
  refine foldl_induct (fun x : State × List (Fin 8) => ValvesClosed x.1 c) _ _ (fun x d _ h => ?_) _ closed
  unfold shedOne
  split
  · obtain ⟨ha, hb⟩ := shedRecord_state x.1 d
    exact valvesClosed_putConsumer d ha hb h
  · exact h

theorem valvesClosed_planServed (a : Nat) (r : Reserving) {s : State} (l : List (Fin 8)) {c : Fin 8}
    (closed : ValvesClosed s c) : ValvesClosed (planServed a r s l).state c := by
  unfold planServed
  split
  · obtain ⟨ha, hb⟩ := restored_state s _
    exact valvesClosed_putConsumer _ ha hb closed
  · exact closed

theorem valvesClosed_plan (a : Nat) {s : State} {c : Fin 8} (closed : ValvesClosed s c) :
    ValvesClosed (plan a s).state c := by
  have reserved : ValvesClosed (reserve a s).state c := by
    unfold ValvesClosed
    rw [reserve_lines]
    exact closed
  unfold plan
  extract_lets r x
  have afterShedding : ValvesClosed x.1 c := by
    unfold x
    split
    · exact valvesClosed_shedding a reserved
    · exact reserved
  clear_value x
  split
  · exact afterShedding
  · exact valvesClosed_planServed _ _ _ afterShedding

/-- An event asserts no valve line: it lights no consumer, and a restored one begins with a purge (R59, R61). -/
theorem valvesClosed_runStages {s : State} {c : Fin 8} (closed : ValvesClosed s c) : ValvesClosed (runStages s) c := by
  have planned := valvesClosed_plan (availableRate s) closed
  unfold runStages
  generalize plan (availableRate s) s = p at planned ⊢
  have applied : ValvesClosed (applyPlan p s) c := planned
  have noticed := valvesClosed_of_standing (eventNotices_standing p s.allocator.result.grants _) applied
  unfold ValvesClosed
  rw [eventEvaluations_lines]
  exact noticed

/-! ## Grants -/

theorem planServed_grant_of_not_lit (a : Nat) (r : Reserving) (s : State) (l : List (Fin 8)) {c : Fin 8}
    (h : lit (planServed a r s l).state c = false) : (planServed a r s l).grants[c] = 0 := by
  revert h
  unfold planServed
  split
  all_goals
    intro h
    simp only at h ⊢
    rw [floorsAndNominations_spec, h]
    rfl

/-- The stages grant to ACTIVE consumers alone (R60, R62). -/
theorem plan_grant_of_not_lit (a : Nat) (s : State) {c : Fin 8} (h : lit (plan a s).state c = false) :
    (plan a s).grants[c] = 0 := by
  revert h
  unfold plan
  extract_lets r x
  split
  · intro h
    simp only at h ⊢
    rw [proRata_spec, h]
    rfl
  · exact planServed_grant_of_not_lit _ _ _ _

/-- A consumer that purges leaves the stages with what stage 1 gave it. -/
theorem consumer_plan_purging (a : Nat) {s : State} {c : Fin 8} (h : (consumer s c).state = .purging) :
    consumer (plan a s).state c = consumer (reserve a s).state c := by
  have unlit : lit s c = false := by
    unfold lit
    rw [h]
    rfl
  exact consumer_plan a s unlit (by rw [h]; exact ⟨nofun, nofun⟩)

theorem runStages_grant (s : State) (c : Fin 8) :
    grant (runStages s) c = (plan (availableRate s) s).grants[c] := by
  unfold grant
  rw [runStages_result]
  generalize plan (availableRate s) s = p
  rfl

theorem runStages_grant_purging {s : State} {c : Fin 8} (h : (consumer s c).state = .purging) :
    grant (runStages s) c = 0 := by
  have unlit : lit (plan (availableRate s) s).state c = false := by
    unfold lit
    rw [consumer_plan_purging _ h, (consumer_reserve _ s c).1]
    show ((consumer s c).state == .active) = false
    rw [h]
    rfl
  rw [runStages_grant]
  exact plan_grant_of_not_lit _ s unlit

/-! ## Reservations -/

theorem hasBackup_eq {s t : State} (h : t.contracts = s.contracts) (c : Fin 8) : hasBackup t c = hasBackup s c := by
  unfold hasBackup flagItem
  rw [item_eq (congrArg ContractUnit.contract h)]

/-- An event gives an AWAITING candidate its reservation or takes it away (R58). -/
theorem reserved_runStages {s : State} {c : Fin 8} (candidate : isCandidate s c = true)
    (awaiting : (consumer s c).reservation = .awaiting) : Reserved (runStages s) c := by
  have both : (consumer s c).state = .purging ∧ (consumer s c).target = some .active := by
    simpa [isCandidate] using candidate
  obtain ⟨purges, target⟩ := both
  have left := consumer_runStages s c
  rw [consumer_plan_purging _ purges] at left
  have stage1 := (reserve_spec (availableRate s) s).1 c candidate
  unfold Reserved
  rw [left, hasBackup_eq (runStages_contracts s)]
  split at stage1
  · obtain ⟨held, -, -⟩ := stage1
    left
    rw [held]
    exact ⟨rfl, target, if_pos awaiting⟩
  · obtain ⟨lost, -, -⟩ := stage1
    right
    rw [lost]
    exact ⟨rfl, rfl, rfl⟩

/-! ## The rest of the part -/

theorem outsideAllocationKept_trans {s t u : State} (first : OutsideAllocationKept s t)
    (second : OutsideAllocationKept t u) : OutsideAllocationKept s u := by
  obtain ⟨power, free, field, metering, band, exports, contracts, store, pending, masks, settlement, record⟩ := first
  obtain ⟨power', free', field', metering', band', exports', contracts', store', pending', masks', settlement', record'⟩ :=
    second
  exact ⟨power'.trans power, free'.trans free, field'.trans field, metering'.trans metering, band'.trans band,
    exports'.trans exports, contracts'.trans contracts, store'.trans store, pending'.trans pending, masks'.trans masks,
    settlement'.trans settlement, record'.trans record⟩

theorem creditFlare_outside {s : State} (clean : s.store.errors = []) : OutsideAllocationKept s (creditFlare s) := by
  refine ⟨creditFlare_power s, creditFlare_freeIndex s, creditFlare_field s, creditFlare_metering s, creditFlare_band s,
    creditFlare_exports s, creditFlare_contracts s, creditFlare_store_clean clean, creditFlare_pending s, ?_⟩
  rw [creditFlare_links]
  unfold SettlementKept creditFlare
  rw [setResult_settlement, onOpen_clean clean]
  refine ⟨rfl, rfl, ?_⟩
  simp only [Option.map_map]
  rfl

theorem runStages_outside (s : State) : OutsideAllocationKept s (runStages s) := by
  have settled := runStages_settlement s
  refine ⟨runStages_power s, runStages_freeIndex s, runStages_field s, runStages_metering s, runStages_band s,
    runStages_exports s, runStages_contracts s, runStages_store s, runStages_pending s, (runStages_ports_masks s).2, ?_, ?_⟩
  · unfold SettlementKept
    rw [settled]
  · rw [settled]

theorem evaluate_outside (c : Fin 8) (s : State) : OutsideAllocationKept s (evaluate c s) :=
  ⟨rfl, rfl, rfl, rfl, rfl, rfl, rfl, rfl, rfl, rfl, rfl, rfl⟩

theorem putConsumer_outside (c : Fin 8) (r : Consumer) (s : State) : OutsideAllocationKept s (putConsumer c r s) :=
  ⟨rfl, rfl, rfl, rfl, rfl, rfl, rfl, rfl, rfl, rfl, rfl, rfl⟩

theorem releaseGrant_outside (c : Fin 8) (s : State) : OutsideAllocationKept s (releaseGrant c s) := by
  have settled := releaseGrant_settlement s c
  refine ⟨releaseGrant_power s c, releaseGrant_freeIndex s c, releaseGrant_field s c, releaseGrant_metering s c,
    releaseGrant_band s c, releaseGrant_exports s c, releaseGrant_contracts s c, releaseGrant_store s c,
    releaseGrant_pending s c, congrArg Standing.masks (lowerGrant_standing c 0 s), ?_, ?_⟩
  · unfold SettlementKept
    rw [settled]
  · rw [settled]

theorem lowerGrant_base (c : Fin 8) (kw : Nat) (s : State) : (lowerGrant c kw s).allocator.base = s.allocator.base := by
  unfold lowerGrant
  split
  · rw [noticeGrant_allocator]
    rfl
  · rfl

theorem creditFlare_base (s : State) : (creditFlare s).allocator.base = s.allocator.base := by
  unfold creditFlare
  show (onOpen 47 _ s).allocator.base = s.allocator.base
  rw [onOpen_allocator]

/-! ## A purge and the event that follows it -/

/-- A trigger on a state that waits for none is one event (R53). -/
theorem settle_trigger {s : State} (clean : s.store.errors = []) (idle : s.allocator.triggers = 0) :
    settle (trigger s) = runStages (creditFlare s) := by
  have one : (trigger s).allocator.triggers = 1 := by rw [trigger_triggers, idle]
  exact settle_one (s := trigger s) clean one

/-- The state `t` follows on the state `s` by the purge of a consumer, begun with the record `r`, and one event. -/
structure PurgeBegun (s : State) (c : Fin 8) (r : Consumer) (t : State) : Prop where
  /-- The event moves timers, and target, reservation and shed flag of the purging consumer (R58). -/
  record : consumer t c = withTimers (withPurge r (consumer t c)) (consumer t c)
  /-- It moves only the timers where the purge does not lead to ACTIVE. -/
  recordElsewhere : r.target ≠ some .active → consumer t c = withTimers r (consumer t c)
  /-- Toward ACTIVE, stage 1 decides. -/
  reserved : r.target = some .active → r.reservation = .awaiting → Reserved t c
  valves : ValvesClosed t c
  grant : grant t c = 0
  timer : t.allocator.timer = { start := s.allocator.base, length := 1000 * itemNat s .allocationPeriod }
  timeBase : t.allocator.result.timeBase = some s.allocator.base
  ports : t.links.ports = s.links.ports
  outside : OutsideAllocationKept s t

theorem purgeBegun_settle {s : State} (clean : s.store.errors = []) (idle : s.allocator.triggers = 0) (c : Fin 8)
    {r : Consumer} (purges : r.state = .purging) :
    PurgeBegun s c r (settle (trigger (evaluate c (putConsumer c r s)))) := by
  have beginning : OutsideAllocationKept s (evaluate c (putConsumer c r s)) :=
    outsideAllocationKept_trans (putConsumer_outside c r s) (evaluate_outside c _)
  have evaluatedRecord : consumer (evaluate c (putConsumer c r s)) c =
      withTimers r (consumer (evaluate c (putConsumer c r s)) c) := by
    have := consumer_evaluate c c (putConsumer c r s)
    rwa [consumer_putConsumer_same] at this
  have closed : ValvesClosed (evaluate c (putConsumer c r s)) c :=
    valvesClosed_putConsumer_same c (by rw [purges]; nofun) (by rw [purges]; nofun) s
  rw [settle_trigger (s := evaluate c (putConsumer c r s)) clean idle]
  have allocator : (evaluate c (putConsumer c r s)).allocator = s.allocator := rfl
  have links : (evaluate c (putConsumer c r s)).links = s.links := rfl
  have clean' : (evaluate c (putConsumer c r s)).store.errors = [] := clean
  generalize evaluate c (putConsumer c r s) = begun at *
  have before : consumer (creditFlare begun) c = withTimers r (consumer begun c) :=
    (consumer_eq (creditFlare_supervisor begun) c).trans evaluatedRecord
  have purges' : (consumer (creditFlare begun) c).state = .purging := by
    rw [before]
    exact purges
  have base : (creditFlare begun).allocator.base = s.allocator.base := by rw [creditFlare_base, allocator]
  have outside := outsideAllocationKept_trans beginning (creditFlare_outside clean')
  have contracts : (creditFlare begun).contracts = s.contracts := by
    obtain ⟨-, -, -, -, -, -, contracts, -⟩ := outside
    exact contracts
  have candidate : isCandidate (creditFlare begun) c = (r.target == some .active) := by
    unfold isCandidate
    rw [purges', before]
    rfl
  constructor
  case record =>
    have kept := event_keeps (creditFlare begun) (.inr (.inr purges'))
    rw [before] at kept
    exact kept
  case recordElsewhere =>
    intro elsewhere
    have kept := event_leaves (creditFlare begun) (.inr (.inr purges')) (by rw [candidate]; simpa using elsewhere)
    rw [before] at kept
    exact kept
  case reserved =>
    intro target awaiting
    exact reserved_runStages (by rw [candidate, target]; rfl) (by rw [before]; exact awaiting)
  case valves =>
    refine valvesClosed_runStages ?_
    unfold ValvesClosed
    rw [creditFlare_lines]
    exact closed
  case grant => exact runStages_grant_purging purges'
  case timer => rw [runStages_timer, base, itemNat_eq (congrArg ContractUnit.contract contracts)]
  case timeBase =>
    rw [runStages_result]
    exact congrArg some base
  case ports => rw [(runStages_ports_masks _).1, creditFlare_links, links]
  case outside => exact outsideAllocationKept_trans outside (runStages_outside _)

end Sys2Proof.Proofs.Event
end

section
/-! The owner's requests to a consumer (5-4, 5-7): what a request that names a consumer comes down to, and START, CLEAR,
FUEL BACKUP and FUEL GAS. -/

namespace Sys2Proof.Proofs.OwnerRequests

open Sys2Proof Sys2Proof.Machine Sys2Proof.Proofs.Event

/-! ## A request that names a consumer (R76, R180) -/

/-- The answer to a consumer request carries the state alone, unless it is STILL_FAULTED (R76, R192). -/
theorem consumerAnswer_plain {status : State → Status} {before : State} {st : Status} (h : status before = st)
    (plain : st ≠ .stillFaulted) (causes : State → CauseSet) (c : Fin 8) (after : State) :
    consumerAnswer status causes c before after = (st, [stateField after c]) := by
  unfold consumerAnswer
  rw [h]
  split
  next => exact absurd rfl plain
  next => rfl

theorem consumerAnswer_stillFaulted {status : State → Status} {before : State} (h : status before = .stillFaulted)
    (causes : State → CauseSet) (c : Fin 8) (after : State) :
    consumerAnswer status causes c before after =
      (.stillFaulted, [stateField after c, .u16 (causeBits (causes before))]) := by
  unfold consumerAnswer
  rw [h]

section
variable {s : State} {f : Frame} {c : Fin 8} (calm : Calm s) (taken : Taken s f 2) (own : ownerOf s c = f.party)
include calm taken own

theorem consumerRequest_calm (code : Nat) (reads : State → Fin 8 → List Thing) (body : Fin 8 → State → State)
    (answer : Fin 8 → State → State → Status × List Field) :
    consumerRequest f code c reads body answer s =
      .next (respond f.party code (answer c s (settle (body c s))).1 (answer c s (settle (body c s))).2
        (settle (body c s))) := by
  obtain ⟨running, clean, idle⟩ := calm
  have named : decide (c.val < 8) = true := decide_eq_true c.isLt
  unfold consumerRequest
  rw [named, request_taken (length := lenConsumer) running taken, slotOf_val, ownerRequest_calm clean idle own,
    serve_calm clean idle]

/-- A request whose status refuses it changes nothing but the port. -/
theorem consumerRequest_refused {status : Fin 8 → State → Status} {answer : Fin 8 → State → State → Status × List Field}
    {st : Status} {fields : List Field} (refuses : isRefusing (status c s) = true)
    (answered : answer c s s = (st, fields)) (code : Nat) (reads : State → Fin 8 → List Thing)
    (body : Fin 8 → State → State) :
    consumerRequest f code c reads (fun c => judged (status c) (body c)) answer s =
      .next (respond f.party code st fields s) := by
  have ⟨_, _, idle⟩ := calm
  have unchanged : settle (judged (status c) (body c) s) = s := by rw [judged_refused refuses, settle_idle idle]
  rw [consumerRequest_calm calm taken own]
  simp only [unchanged, answered]

/-- A request that its status lets pass takes its effect, with the events that follow. -/
theorem consumerRequest_done {status : Fin 8 → State → Status} {answer : Fin 8 → State → State → Status × List Field}
    {body : Fin 8 → State → State} {st : Status} {fields : List Field} (passes : isRefusing (status c s) = false)
    (answered : answer c s (settle (body c s)) = (st, fields)) (code : Nat) (reads : State → Fin 8 → List Thing) :
    consumerRequest f code c reads (fun c => judged (status c) (body c)) answer s =
      .next (respond f.party code st fields (settle (body c s))) := by
  have effect : settle (judged (status c) (body c) s) = settle (body c s) := by rw [judged_taken passes]
  rw [consumerRequest_calm calm taken own]
  simp only [effect, answered]

section
variable {status : Fin 8 → State → Status} {st : Status} (causes : State → CauseSet) (code : Nat)
  (reads : State → Fin 8 → List Thing) (body : Fin 8 → State → State)

/-- Refused, a request answers with the state as it stands. -/
theorem consumerRequest_refused_plain (status_eq : status c s = st) (refuses : isRefusing st = true)
    (plain : st ≠ .stillFaulted) :
    consumerRequest f code c reads (fun c => judged (status c) (body c)) (fun c => consumerAnswer (status c) causes c) s =
      .next (respond f.party code st [stateField s c] s) := by
  refine consumerRequest_refused calm taken own (by rw [status_eq]; exact refuses) ?_ code reads body
  exact consumerAnswer_plain status_eq plain causes c s

/-- Taken, it answers with the state as the events that follow leave it (R181). -/
theorem consumerRequest_done_plain (status_eq : status c s = st) (passes : isRefusing st = false)
    (plain : st ≠ .stillFaulted) :
    consumerRequest f code c reads (fun c => judged (status c) (body c)) (fun c => consumerAnswer (status c) causes c) s =
      .next (respond f.party code st [stateField (settle (body c s)) c] (settle (body c s))) := by
  refine consumerRequest_done calm taken own (by rw [status_eq]; exact passes) ?_ code reads
  exact consumerAnswer_plain status_eq plain causes c _

end

end

/-- A response stands on its party's port (R178). -/
theorem respond_answered (p : Party) (code : Nat) (st : Status) (fields : List Field) (s : State) :
    Answered s (respond p code st fields s) p ⟨code, st, fields⟩ := rfl

/-! ## A purge toward ACTIVE (R77, R81) -/

/-- START and FUEL GAS have one effect: a purge toward ACTIVE with its reservation AWAITING, and an event. -/
theorem purgeBegun_toward_active {s : State} (calm : Calm s) (c : Fin 8) :
    PurgeBegun s c (purging s c .active .awaiting) (settle (startBody c s)) := by
  obtain ⟨-, clean, idle⟩ := calm
  exact purgeBegun_settle clean idle c rfl

/-! ## START (R77) -/

theorem exec_start (f : Frame) (c : Nat) (s : State) : exec (.start f c) s = execStart f c s := rfl

theorem startStatus_done {s : State} {c : Fin 8} (off : (consumer s c).state = .off)
    (sound : (consumer s c).damageMark = false) : startStatus c s = .done := by
  simp [startStatus, off, sound]

theorem startStatus_stillFaulted {s : State} {c : Fin 8} (off : (consumer s c).state = .off)
    (damaged : (consumer s c).damageMark = true) : startStatus c s = .stillFaulted := by
  simp [startStatus, off, damaged]

theorem startStatus_wrongState {s : State} {c : Fin 8} (notOff : (consumer s c).state ≠ .off) :
    startStatus c s = .wrongState := by
  simp [startStatus, notOff]

theorem startAnswer_done {c : Fin 8} {before : State} (h : startStatus c before = .done) (after : State) :
    startAnswer c before after = (.done, stateField after c :: targetField after c) := by
  unfold startAnswer
  rw [h]

theorem startAnswer_refused {c : Fin 8} {before : State} (h : startStatus c before ≠ .done) (after : State) :
    startAnswer c before after =
      consumerAnswer (startStatus c) (fun _ => { noCauses with contractDamaged := true }) c before after := by
  unfold startAnswer
  split
  next done => exact absurd done h
  next => rfl

theorem execStart_done {s : State} {f : Frame} {c : Fin 8} (calm : Calm s) (taken : Taken s f 2)
    (own : ownerOf s c = f.party) (off : (consumer s c).state = .off) (sound : (consumer s c).damageMark = false) :
    exec (.start f c) s = .next (respond f.party codeStart .done
      (stateField (settle (startBody c s)) c :: targetField (settle (startBody c s)) c) (settle (startBody c s))) := by
  rw [exec_start, execStart]
  have passes := startStatus_done off sound
  exact consumerRequest_done calm taken own (status := startStatus) (by rw [passes]; rfl) (startAnswer_done passes _) _ _

theorem execStart_stillFaulted {s : State} {f : Frame} {c : Fin 8} (calm : Calm s) (taken : Taken s f 2)
    (own : ownerOf s c = f.party) (off : (consumer s c).state = .off) (damaged : (consumer s c).damageMark = true) :
    exec (.start f c) s =
      .next (respond f.party codeStart .stillFaulted [.u8 (consumerStateCode .off), .u16 16] s) := by
  rw [exec_start, execStart]
  have refuses := startStatus_stillFaulted off damaged
  refine consumerRequest_refused calm taken own (status := startStatus) (by rw [refuses]; rfl) ?_ _ _ _
  rw [startAnswer_refused (by rw [refuses]; nofun), consumerAnswer_stillFaulted refuses]
  unfold stateField
  rw [off]
  rfl

theorem execStart_wrongState {s : State} {f : Frame} {c : Fin 8} (calm : Calm s) (taken : Taken s f 2)
    (own : ownerOf s c = f.party) (notOff : (consumer s c).state ≠ .off) :
    exec (.start f c) s = .next (respond f.party codeStart .wrongState [stateField s c] s) := by
  rw [exec_start, execStart]
  have refuses := startStatus_wrongState notOff
  refine consumerRequest_refused calm taken own (status := startStatus) (by rw [refuses]; rfl) ?_ _ _ _
  rw [startAnswer_refused (by rw [refuses]; nofun), consumerAnswer_plain refuses nofun]

/-- Settles O20: START's effect is a purge toward ACTIVE, and its status tells the three cases apart. -/
theorem startBeginsAPurge : Obligations.StartBeginsAPurge := by
  unfold Obligations.StartBeginsAPurge
  intro s f c calm taken own
  refine ⟨fun off sound => ?_, execStart_stillFaulted calm taken own, execStart_wrongState calm taken own⟩
  have begun := purgeBegun_toward_active calm c
  obtain ⟨gas, backup⟩ := begun.valves
  refine ⟨_, execStart_done calm taken own off sound, begun.record, begun.reserved rfl rfl, gas, backup, begun.timer, ?_,
    begun.outside⟩
  exact (respond_answered ..).trans (by rw [begun.ports]; rfl)

/-! ## CLEAR (R96) -/

theorem exec_clear (f : Frame) (c : Nat) (s : State) : exec (.clear f c) s = execClear f c s := rfl

theorem clearStatus_done {s : State} {c : Fin 8} (tripped : (consumer s c).state = .tripped)
    (passes : recheckPasses s c = true) : clearStatus c s = .done := by
  simp [clearStatus, tripped, passes]

theorem clearStatus_stillFaulted {s : State} {c : Fin 8} (tripped : (consumer s c).state = .tripped)
    (fails : recheckPasses s c = false) : clearStatus c s = .stillFaulted := by
  simp [clearStatus, tripped, fails]

theorem clearStatus_wrongState {s : State} {c : Fin 8} (notTripped : (consumer s c).state ≠ .tripped) :
    clearStatus c s = .wrongState := by
  simp [clearStatus, notTripped]

/-- In a state where only passing is supervised, an evaluation point judges the passing timer and stops the others
(Table 5-6-1, R88, R89). -/
theorem evaluated_off {s : State} {c : Fin 8} (off : (consumer s c).state = .off) :
    evaluated s c = { consumer s c with
      overdrawTimer := none, lineLowTimer := none, lowDrawTimer := none
      passingTimer := judge (passingHolds s c) (consumer s c).passingTimer (startTimer s c cPassingMask) } := by
  have unlit : lit s c = false := by
    unfold lit
    rw [off]
    rfl
  have applies : passingApplies s c = true := by
    unfold passingApplies
    rw [unlit, off]
    rfl
  unfold evaluated
  rw [unlit, applies]
  rfl

/-- The consumer that CLEAR leaves (R96). -/
theorem consumer_clearBody (c : Fin 8) (s : State) :
    consumer (clearBody c s) c = { settled (consumer s c) .off with
      causes := noCauses, recoveryTimer := none
      overdrawTimer := none, lineLowTimer := none, lowDrawTimer := none
      passingTimer := judge (passingHolds s c) (consumer s c).passingTimer (startTimer s c cPassingMask) } := by
  unfold clearBody evaluate
  generalize cleared : { settled (consumer s c) .off with causes := noCauses, recoveryTimer := none } = r
  have record : consumer (putConsumer c r s) c = r := consumer_putConsumer_same c r s
  have holds : passingHolds (putConsumer c r s) c = passingHolds s c := by
    unfold passingHolds
    rw [draw_eq (s := s) (t := putConsumer c r s) rfl rfl, consumerItem_eq (s := s) (t := putConsumer c r s) rfl]
  have fresh : startTimer (putConsumer c r s) c cPassingMask = startTimer s c cPassingMask := by
    unfold startTimer
    rw [consumerItem_eq (s := s) (t := putConsumer c r s) rfl]
    rfl
  have off : (consumer (putConsumer c r s) c).state = .off := by
    rw [record, ← cleared]
    rfl
  rw [consumer_setConsumer_same, evaluated_off off, record, holds, fresh, ← cleared]
  rfl

theorem stateField_clearBody (c : Fin 8) (s : State) :
    stateField (clearBody c s) c = .u8 (consumerStateCode .off) := by
  unfold stateField
  rw [consumer_clearBody]
  rfl

theorem consumer_clearBody_ne {c d : Fin 8} (h : d ≠ c) (s : State) : consumer (clearBody c s) d = consumer s d := by
  unfold clearBody evaluate
  rw [consumer_setConsumer_ne h, consumer_putConsumer_ne h]

theorem clearBody_outside (c : Fin 8) (s : State) : OutsideAllocationKept s (clearBody c s) :=
  outsideAllocationKept_trans (putConsumer_outside c _ s) (evaluate_outside c _)

theorem execClear_done {s : State} {f : Frame} {c : Fin 8} (calm : Calm s) (taken : Taken s f 2)
    (own : ownerOf s c = f.party) (tripped : (consumer s c).state = .tripped) (passes : recheckPasses s c = true) :
    exec (.clear f c) s =
      .next (respond f.party codeClear .done [.u8 (consumerStateCode .off)] (clearBody c s)) := by
  have ⟨_, _, idle⟩ := calm
  rw [exec_clear, execClear]
  have noEvent : settle (clearBody c s) = clearBody c s := settle_idle (s := clearBody c s) idle
  rw [← stateField_clearBody c s, ← noEvent]
  exact consumerRequest_done_plain calm taken own _ _ _ _ (clearStatus_done tripped passes) rfl nofun

theorem execClear_stillFaulted {s : State} {f : Frame} {c : Fin 8} (calm : Calm s) (taken : Taken s f 2)
    (own : ownerOf s c = f.party) (tripped : (consumer s c).state = .tripped) (fails : recheckPasses s c = false) :
    exec (.clear f c) s = .next (respond f.party codeClear .stillFaulted
      [stateField s c, .u16 (causeBits (failedTests s c))] s) := by
  rw [exec_clear, execClear]
  have refuses := clearStatus_stillFaulted tripped fails
  refine consumerRequest_refused calm taken own (status := clearStatus) (by rw [refuses]; rfl) ?_ _ _ _
  exact consumerAnswer_stillFaulted refuses (fun s => failedTests s c) c s

theorem execClear_wrongState {s : State} {f : Frame} {c : Fin 8} (calm : Calm s) (taken : Taken s f 2)
    (own : ownerOf s c = f.party) (notTripped : (consumer s c).state ≠ .tripped) :
    exec (.clear f c) s = .next (respond f.party codeClear .wrongState [stateField s c] s) := by
  rw [exec_clear, execClear]
  exact consumerRequest_refused_plain calm taken own _ _ _ _ (clearStatus_wrongState notTripped) rfl nofun

/-- Settles O23: CLEAR replaces the tripped record and takes no event, and its status tells the three cases apart. -/
theorem clearRechecksATrippedConsumer : Obligations.ClearRechecksATrippedConsumer := by
  unfold Obligations.ClearRechecksATrippedConsumer
  intro s f c calm taken own
  refine ⟨fun tripped passes => ?_, execClear_stillFaulted calm taken own, execClear_wrongState calm taken own⟩
  refine ⟨_, execClear_done calm taken own tripped passes, rfl, ?_⟩
  have record : consumer (respond f.party codeClear .done [.u8 (consumerStateCode .off)] (clearBody c s)) c =
      consumer (clearBody c s) c := rfl
  rw [record, consumer_clearBody]
  refine ⟨rfl, rfl, rfl, rfl, rfl, rfl, rfl, ?_, fun d other => consumer_clearBody_ne other s, rfl, rfl, rfl,
    clearBody_outside c s⟩
  simp only [judge, passingHolds, startTimer, decide_eq_true_eq]

/-! ## FUEL BACKUP (R80) -/

theorem exec_fuelBackup (f : Frame) (c : Nat) (s : State) : exec (.fuelBackup f c) s = execFuelBackup f c s := rfl

theorem fuelBackupStatus_done {s : State} {c : Fin 8} (backup : hasBackup s c = true)
    (active : (consumer s c).state = .active) : fuelBackupStatus c s = .done := by
  simp [fuelBackupStatus, lit, backup, active]

theorem fuelBackupStatus_wrongState {s : State} {c : Fin 8}
    (refuses : hasBackup s c = false ∨ (consumer s c).state ≠ .active) : fuelBackupStatus c s = .wrongState := by
  rcases refuses with without | notActive
  · simp [fuelBackupStatus, without]
  · simp [fuelBackupStatus, lit, notActive]

/-- FUEL BACKUP begins its purge once the grant is released (R67, R80). -/
theorem purgeBegun_toward_backup {s : State} (calm : Calm s) (c : Fin 8) :
    PurgeBegun (releaseGrant c s) c { purging s c .backup .none with shedFlag := false }
      (settle (fuelBackupBody c s)) := by
  obtain ⟨-, clean, idle⟩ := calm
  exact purgeBegun_settle (by rw [releaseGrant_store, clean]) (by rw [releaseGrant_triggers, idle]) c rfl

theorem releaseGrant_base (c : Fin 8) (s : State) : (releaseGrant c s).allocator.base = s.allocator.base :=
  lowerGrant_base c 0 s

theorem releaseGrant_ports (c : Fin 8) (s : State) : (releaseGrant c s).links.ports = s.links.ports :=
  congrArg Standing.ports (lowerGrant_standing c 0 s)

theorem execFuelBackup_done {s : State} {f : Frame} {c : Fin 8} (calm : Calm s) (taken : Taken s f 2)
    (own : ownerOf s c = f.party) (backup : hasBackup s c = true) (active : (consumer s c).state = .active) :
    exec (.fuelBackup f c) s = .next (respond f.party codeFuelBackup .done [stateField (settle (fuelBackupBody c s)) c]
      (settle (fuelBackupBody c s))) := by
  rw [exec_fuelBackup, execFuelBackup]
  exact consumerRequest_done_plain calm taken own _ _ _ _ (fuelBackupStatus_done backup active) rfl nofun

theorem execFuelBackup_wrongState {s : State} {f : Frame} {c : Fin 8} (calm : Calm s) (taken : Taken s f 2)
    (own : ownerOf s c = f.party) (elsewhere : hasBackup s c = false ∨ (consumer s c).state ≠ .active) :
    exec (.fuelBackup f c) s = .next (respond f.party codeFuelBackup .wrongState [stateField s c] s) := by
  rw [exec_fuelBackup, execFuelBackup]
  exact consumerRequest_refused_plain calm taken own _ _ _ _ (fuelBackupStatus_wrongState elsewhere) rfl nofun

/-- A consumer that has begun a purge answers its request as PURGING. -/
theorem stateField_purgeBegun {s t : State} {c : Fin 8} {r : Consumer} (begun : PurgeBegun s c r t)
    (purges : r.state = .purging) : stateField t c = .u8 (consumerStateCode .purging) := by
  unfold stateField
  rw [begun.record, ← purges]
  rfl

/-- Settles O24: the grant is released, a purge toward BACKUP begins, and the event after it finds no candidate in it. -/
theorem fuelBackupPurgesTowardBackup : Obligations.FuelBackupPurgesTowardBackup := by
  unfold Obligations.FuelBackupPurgesTowardBackup
  intro s f c calm taken own
  refine ⟨fun backup active => ?_, execFuelBackup_wrongState calm taken own⟩
  have begun := purgeBegun_toward_backup calm c
  obtain ⟨gasLow, backupLow⟩ := begun.valves
  have executed := execFuelBackup_done calm taken own backup active
  rw [stateField_purgeBegun begun rfl] at executed
  refine ⟨_, executed, ?_, begun.recordElsewhere nofun, gasLow, backupLow, begun.grant, ?_,
    outsideAllocationKept_trans (releaseGrant_outside c s) begun.outside⟩
  · exact (respond_answered ..).trans (by rw [begun.ports, releaseGrant_ports])
  · exact begun.timeBase.trans (congrArg some (releaseGrant_base c s))

/-! ## FUEL GAS (R81) -/

theorem exec_fuelGas (f : Frame) (c : Nat) (s : State) : exec (.fuelGas f c) s = execFuelGas f c s := rfl

theorem fuelGasStatus_done {s : State} {c : Fin 8} (onBackup : (consumer s c).state = .backup) :
    fuelGasStatus c s = .done := if_pos onBackup

theorem fuelGasStatus_wrongState {s : State} {c : Fin 8} (elsewhere : (consumer s c).state ≠ .backup) :
    fuelGasStatus c s = .wrongState := if_neg elsewhere

theorem execFuelGas_done {s : State} {f : Frame} {c : Fin 8} (calm : Calm s) (taken : Taken s f 2)
    (own : ownerOf s c = f.party) (onBackup : (consumer s c).state = .backup) :
    exec (.fuelGas f c) s = .next (respond f.party codeFuelGas .done [stateField (settle (fuelGasBody c s)) c]
      (settle (fuelGasBody c s))) := by
  rw [exec_fuelGas, execFuelGas]
  exact consumerRequest_done_plain calm taken own _ _ _ _ (fuelGasStatus_done onBackup) rfl nofun

theorem execFuelGas_wrongState {s : State} {f : Frame} {c : Fin 8} (calm : Calm s) (taken : Taken s f 2)
    (own : ownerOf s c = f.party) (elsewhere : (consumer s c).state ≠ .backup) :
    exec (.fuelGas f c) s = .next (respond f.party codeFuelGas .wrongState [stateField s c] s) := by
  rw [exec_fuelGas, execFuelGas]
  exact consumerRequest_refused_plain calm taken own _ _ _ _ (fuelGasStatus_wrongState elsewhere) rfl nofun

/-- Settles O25: FUEL GAS has START's effect, from BACKUP. -/
theorem fuelGasPurgesTowardActive : Obligations.FuelGasPurgesTowardActive := by
  unfold Obligations.FuelGasPurgesTowardActive
  intro s f c calm taken own
  refine ⟨fun onBackup => ?_, execFuelGas_wrongState calm taken own⟩
  have begun : PurgeBegun s c (purging s c .active .awaiting) (settle (fuelGasBody c s)) :=
    purgeBegun_toward_active calm c
  obtain ⟨gas, backup⟩ := begun.valves
  have executed := execFuelGas_done calm taken own onBackup
  rw [stateField_purgeBegun begun rfl] at executed
  refine ⟨_, executed, ?_, begun.record, begun.reserved rfl rfl, gas, backup, begun.timeBase, begun.outside⟩
  exact (respond_answered ..).trans (by rw [begun.ports])

end Sys2Proof.Proofs.OwnerRequests
end

section
/-! SCHEDULE (6-3): the list that an entry joins, the checks in their order, and what the request does to the part. -/

namespace Sys2Proof.Proofs.Schedule

open Sys2Proof Sys2Proof.Machine

/-! ## An entry joins a list in ascending order of start (R103, R106) -/

/-- The list rises from start to start. -/
abbrev Rising (l : List ScheduleEntry) : Prop := l.Pairwise fun a b => a.start < b.start

/-- A start before the first of a rising list lies before them all. -/
theorem lt_start_of_mem {x y : ScheduleEntry} {rest : List ScheduleEntry} {start : Nat} (rising : Rising (x :: rest))
    (before : start < x.start) (listed : y ∈ x :: rest) : start < y.start := by
  rcases List.mem_cons.mp listed with rfl | later
  · exact before
  · exact Nat.lt_trans before (List.rel_of_pairwise_cons rising later)

/-- The entry is there, and every other one but that of its start. -/
theorem mem_insertEntry {e : ScheduleEntry} {l : List ScheduleEntry} (rising : Rising l) (y : ScheduleEntry) :
    y ∈ insertEntry e l ↔ y = e ∨ (y ∈ l ∧ y.start ≠ e.start) := by
  induction l with
  | nil => simp [insertEntry]
  | cons x rest ih =>
    obtain ⟨above, risingRest⟩ := List.pairwise_cons.mp rising
    unfold insertEntry
    split
    next before =>
      have others : y ∈ x :: rest → y.start ≠ e.start := fun listed =>
        Nat.ne_of_gt (lt_start_of_mem rising before listed)
      rw [List.mem_cons, and_iff_left_of_imp others]
    next =>
      split
      next same =>
        have others : y ∈ rest → y.start ≠ e.start := fun later => same ▸ Nat.ne_of_gt (above y later)
        have replaced : ¬ (y = x ∧ y.start ≠ e.start) := fun ⟨eq, differs⟩ => differs (eq ▸ same.symm)
        rw [List.mem_cons, List.mem_cons, or_and_right, or_iff_right replaced, and_iff_left_of_imp others]
      next differs =>
        have kept : y = x → y.start ≠ e.start := fun eq => eq ▸ Ne.symm differs
        rw [List.mem_cons, List.mem_cons, ih risingRest, or_and_right, and_iff_left_of_imp kept, or_left_comm]

/-- The list still rises: the entry stands where its start belongs. -/
theorem insertEntry_rising {e : ScheduleEntry} {l : List ScheduleEntry} (rising : Rising l) :
    Rising (insertEntry e l) := by
  induction l with
  | nil => exact List.pairwise_singleton ..
  | cons x rest ih =>
    obtain ⟨above, risingRest⟩ := List.pairwise_cons.mp rising
    unfold insertEntry
    split
    next before =>
      exact List.pairwise_cons.mpr ⟨fun y listed => lt_start_of_mem rising before listed, rising⟩
    next notBefore =>
      split
      next same => exact List.pairwise_cons.mpr ⟨fun y later => same ▸ above y later, risingRest⟩
      next differs =>
        refine List.pairwise_cons.mpr ⟨fun y listed => ?_, ih risingRest⟩
        rcases (mem_insertEntry risingRest y).mp listed with rfl | ⟨later, -⟩
        · exact Nat.lt_of_le_of_ne (Nat.not_lt.mp notBefore) (Ne.symm differs)
        · exact above y later

/-- The list grows by one, unless an entry of that start is replaced. -/
theorem length_insertEntry {e : ScheduleEntry} {l : List ScheduleEntry} (rising : Rising l) :
    (insertEntry e l).length = if l.any (·.start == e.start) then l.length else l.length + 1 := by
  induction l with
  | nil => rfl
  | cons x rest ih =>
    obtain ⟨-, risingRest⟩ := List.pairwise_cons.mp rising
    unfold insertEntry
    split
    next before =>
      have absent : (x :: rest).any (·.start == e.start) = false := List.any_eq_false.mpr fun y listed =>
        mt beq_iff_eq.mp (Nat.ne_of_gt (lt_start_of_mem rising before listed))
      simp [absent]
    next =>
      split
      next same => simp [same]
      next differs =>
        have skipped : (x :: rest).any (·.start == e.start) = rest.any (·.start == e.start) := by
          simp [Ne.symm differs]
        rw [List.length_cons, ih risingRest, skipped]
        split <;> rfl

theorem isListed_iff {s : State} {start : Nat} :
    isListed s start = true ↔ ∃ e ∈ s.exports.schedule, e.start = start := by
  simp [isListed]

/-! ## The checks in their order (R104, R105) -/

section
variable {s : State} {start kw : Nat}

theorem scheduleStatus_clockUnset (unset : s.settlement.clock = none) : scheduleStatus start kw s = .clockUnset :=
  if_pos unset

variable (running : s.settlement.clock ≠ none)
include running

theorem scheduleStatus_aboveRange (above : 2000000 < kw) : scheduleStatus start kw s = .outOfRange := by
  simp [scheduleStatus, running, above]

variable (inRange : kw ≤ 2000000)
include inRange

theorem scheduleStatus_unaligned (unaligned : start % intervalLength s ≠ 0) :
    scheduleStatus start kw s = .outOfRange := by
  simp [scheduleStatus, running, Nat.not_lt.mpr inRange, unaligned]

variable (aligned : start % intervalLength s = 0)
include aligned

theorem scheduleStatus_gateClosed (early : start < earliestStart s) : scheduleStatus start kw s = .gateClosed := by
  simp [scheduleStatus, running, Nat.not_lt.mpr inRange, aligned, early]

variable (gateOpen : earliestStart s ≤ start)
include gateOpen

theorem scheduleStatus_beyondReach (late : latestStart s < start) : scheduleStatus start kw s = .outOfRange := by
  simp [scheduleStatus, running, Nat.not_lt.mpr inRange, aligned, Nat.not_lt.mpr gateOpen, late]

variable (inReach : start ≤ latestStart s)
include inReach

/-- A request that passes the first four checks is judged by the place in the list alone. -/
theorem scheduleStatus_inReach : scheduleStatus start kw s =
    if isListed s start || s.exports.schedule.length < 8 then .done else .tableFull := by
  simp [scheduleStatus, running, Nat.not_lt.mpr inRange, aligned, Nat.not_lt.mpr gateOpen, Nat.not_lt.mpr inReach]

theorem scheduleStatus_tableFull (full : 8 ≤ s.exports.schedule.length)
    (unlisted : ∀ e ∈ s.exports.schedule, e.start ≠ start) : scheduleStatus start kw s = .tableFull := by
  have absent : ¬ isListed s start = true := fun listed => by
    obtain ⟨e, member, same⟩ := isListed_iff.mp listed
    exact unlisted e member same
  rw [scheduleStatus_inReach running inRange aligned gateOpen inReach]
  simp [absent, Nat.not_lt.mpr full]

theorem scheduleStatus_done
    (place : s.exports.schedule.length < 8 ∨ ∃ e ∈ s.exports.schedule, e.start = start) :
    scheduleStatus start kw s = .done := by
  rw [scheduleStatus_inReach running inRange aligned gateOpen inReach]
  rcases place with room | listed
  · simp [room]
  · simp [isListed_iff.mpr listed]

end

/-! ## What the request does (R104, R106, R180) -/

theorem exec_schedule (f : Frame) (start kw : Nat) (s : State) :
    exec (.schedule f start kw) s = execSchedule f start kw s := rfl

section
variable {s : State} {f : Frame} {start kw : Nat} (calm : Calm s) (taken : Taken s f 11)
include calm taken

/-- From WORKS or TOWN the Link Unit refuses it, with the number of entries (R180, R192). -/
theorem execSchedule_notParty (other : f.party ≠ .grid) : exec (.schedule f start kw) s =
    .next (respond f.party codeSchedule .notParty [.u32 s.exports.schedule.length] s) := by
  obtain ⟨running, clean, idle⟩ := calm
  rw [exec_schedule, execSchedule, request_taken (length := lenSchedule) running taken, if_neg other,
    refuse_calm clean idle]
  rfl

variable (grid : f.party = .grid)
include grid

theorem execSchedule_grid : exec (.schedule f start kw) s =
    .next (respond f.party codeSchedule (scheduleStatus start kw s)
      [.u32 (settle (judged (scheduleStatus start kw) (scheduleBody start kw) s)).exports.schedule.length]
      (settle (judged (scheduleStatus start kw) (scheduleBody start kw) s))) := by
  obtain ⟨running, clean, idle⟩ := calm
  rw [exec_schedule, execSchedule, request_taken (length := lenSchedule) running taken, if_pos grid,
    serve_calm clean idle]
  rfl

theorem execSchedule_refused {st : Status} (status_eq : scheduleStatus start kw s = st)
    (refuses : isRefusing st = true) : exec (.schedule f start kw) s =
      .next (respond f.party codeSchedule st [.u32 s.exports.schedule.length] s) := by
  have ⟨_, _, idle⟩ := calm
  rw [execSchedule_grid calm taken grid, judged_refused (by rw [status_eq]; exact refuses), settle_idle idle, status_eq]

/-- Taken, it rewrites the list and hands over no trigger. -/
theorem execSchedule_done (status_eq : scheduleStatus start kw s = .done) : exec (.schedule f start kw) s =
    .next (respond .grid codeSchedule .done [.u32 (insertEntry ⟨start, kw⟩ s.exports.schedule).length]
      { s with exports := { s.exports with schedule := insertEntry ⟨start, kw⟩ s.exports.schedule } }) := by
  have ⟨_, clean, idle⟩ := calm
  have noTrigger : (setSchedule (insertEntry ⟨start, kw⟩ s.exports.schedule) s).allocator.triggers = 0 := by
    rw [setSchedule_allocator, idle]
  rw [execSchedule_grid calm taken grid, judged_taken (by rw [status_eq]; rfl), scheduleBody, settle_idle noTrigger,
    setSchedule_clean clean, status_eq, grid]

end

/-- Settles O31: each row of the table of checks gives its status, and a request that passes all inserts its entry. -/
theorem scheduleChecksAndInsertsTheEntry : Obligations.ScheduleChecksAndInsertsTheEntry := by
  unfold Obligations.ScheduleChecksAndInsertsTheEntry
  intro s f start kw calm ordered taken
  obtain ⟨-, rising, -⟩ := ordered
  refine ⟨fun st failing => ?_, fun grid running inRange aligned gateOpen inReach place => ?_⟩
  · rcases failing with ⟨other, rfl⟩ | ⟨grid, unset, rfl⟩ | ⟨grid, running, check⟩
    · exact execSchedule_notParty calm taken other
    · exact execSchedule_refused calm taken grid (scheduleStatus_clockUnset unset) rfl
    · rcases check with ⟨above, rfl⟩ | ⟨inRange, unaligned, rfl⟩ | ⟨inRange, aligned, early, rfl⟩ |
        ⟨inRange, aligned, gateOpen, late, rfl⟩ | ⟨inRange, aligned, gateOpen, inReach, full, unlisted, rfl⟩
      · exact execSchedule_refused calm taken grid (scheduleStatus_aboveRange running above) rfl
      · exact execSchedule_refused calm taken grid (scheduleStatus_unaligned running inRange unaligned) rfl
      · exact execSchedule_refused calm taken grid (scheduleStatus_gateClosed running inRange aligned early) rfl
      · exact execSchedule_refused calm taken grid
          (scheduleStatus_beyondReach running inRange aligned gateOpen late) rfl
      · exact execSchedule_refused calm taken grid
          (scheduleStatus_tableFull running inRange aligned gateOpen inReach full unlisted) rfl
  · have passes := scheduleStatus_done running inRange aligned gateOpen inReach place
    exact ⟨_, execSchedule_done calm taken grid passes, mem_insertEntry rising, insertEntry_rising rising,
      length_insertEntry rising⟩

end Sys2Proof.Proofs.Schedule
end

section
/-! REJECT and WITHDRAW (7-3): one request shape with two judges of who may remove an entry, and what the removal does. -/

namespace Sys2Proof.Proofs.Removal

open Sys2Proof Sys2Proof.Machine

/-! ## An entry leaves the table (R126, R132) -/

theorem number_of_entryOf {s : State} {number : Nat} {e : Proposal} (found : entryOf s number = some e) :
    e.number = number := by
  have carries := List.find?_some found
  exact beq_iff_eq.mp carries

theorem removeEntry_clean {s : State} (clean : s.store.errors = []) (number : Nat) :
    removeEntry number s = { s with contracts := { s.contracts with
      proposals := s.contracts.proposals.filter (·.number != number) } } :=
  setProposals_clean clean _

theorem dropEntry_found {s : State} {number : Nat} {e : Proposal} (found : entryOf s number = some e) (o : Outcome) :
    dropEntry number o s = endEntry e o s := by
  simp only [dropEntry, found]

/-- The entry goes with one notice to its parties and its proposer, and nothing else moves. -/
theorem dropEntry_clean {s : State} {number : Nat} {e : Proposal} (clean : s.store.errors = [])
    (found : entryOf s number = some e) (o : Outcome) :
    dropEntry number o s = raiseNotice (addParty e.parties e.proposer) clsProposal (.proposal number o)
      { s with contracts := { s.contracts with
        proposals := s.contracts.proposals.filter (·.number != number) } } := by
  rw [dropEntry_found found, endEntry, noticeProposal, number_of_entryOf found, removeEntry_clean clean]

/-! ## The checks in their order (R129) -/

section
variable {s : State} {number : Nat}

theorem rejectStatus_notFound (missing : entryOf s number = none) (p : Party) :
    rejectStatus p number s = .notFound := by
  simp only [rejectStatus, missing]

theorem withdrawStatus_notFound (missing : entryOf s number = none) (p : Party) :
    withdrawStatus p number s = .notFound := by
  simp only [withdrawStatus, missing]

variable {e : Proposal} (found : entryOf s number = some e) {p : Party}
include found

theorem rejectStatus_notParty (outside : hasParty e.parties p = false) : rejectStatus p number s = .notParty := by
  simp [rejectStatus, found, outside]

theorem withdrawStatus_notParty (other : e.proposer ≠ p) : withdrawStatus p number s = .notParty := by
  simp [withdrawStatus, found, other]

/-- For a party of the set the entry's state decides, whether or not the party has concurred. -/
theorem rejectStatus_party (inside : hasParty e.parties p = true) :
    rejectStatus p number s = if e.staged then .wrongState else .done := by
  simp [rejectStatus, found, inside]

theorem withdrawStatus_proposer (own : e.proposer = p) :
    withdrawStatus p number s = if e.staged then .wrongState else .done := by
  simp [withdrawStatus, found, own]

end

/-! ## What the request does (R129, R181) -/

/-- The shape that REJECT and WITHDRAW share: a judged removal of the numbered entry, answered without fields. -/
def removal (code : Nat) (status : State → Status) (o : Outcome) (f : Frame) (number : Nat) (s : State) : Out :=
  request f code lenProposal true
    (fun s => serve f.party code (tableReads s) (judged status (dropEntry number o))
      (fun before _ => (status before, [])) s) s

theorem exec_reject (f : Frame) (number : Nat) (s : State) : exec (.reject f number) s =
    removal codeReject (rejectStatus f.party number) .rejected f number s := rfl

theorem exec_withdraw (f : Frame) (number : Nat) (s : State) : exec (.withdraw f number) s =
    removal codeWithdraw (withdrawStatus f.party number) .withdrawn f number s := rfl

section
variable {s : State} {f : Frame} (calm : Calm s) (taken : Taken s f 3)
include calm taken

theorem removal_calm (code : Nat) (status : State → Status) (o : Outcome) (number : Nat) :
    removal code status o f number s =
      .next (respond f.party code (status s) [] (settle (judged status (dropEntry number o) s))) := by
  obtain ⟨running, clean, idle⟩ := calm
  rw [removal, request_taken (length := lenProposal) running taken, serve_calm clean idle]

variable {code : Nat} {status : State → Status} {o : Outcome} {number : Nat}

theorem removal_refused {st : Status} (status_eq : status s = st) (refuses : isRefusing st = true) :
    removal code status o f number s = .next (respond f.party code st [] s) := by
  have ⟨_, _, idle⟩ := calm
  rw [removal_calm calm taken, judged_refused (by rw [status_eq]; exact refuses), settle_idle idle, status_eq]

/-- Let through, it removes the entry with its notice and hands over no trigger. -/
theorem removal_done {e : Proposal} (found : entryOf s number = some e) (status_eq : status s = .done) :
    removal code status o f number s = .next (respond f.party code .done []
      (raiseNotice (addParty e.parties e.proposer) clsProposal (.proposal number o)
        { s with contracts := { s.contracts with
          proposals := s.contracts.proposals.filter (·.number != number) } })) := by
  have ⟨_, clean, idle⟩ := calm
  have noTrigger : (dropEntry number o s).allocator.triggers = 0 := by
    rw [dropEntry_found found, endEntry_allocator, idle]
  rw [removal_calm calm taken, judged_taken (by rw [status_eq]; rfl), settle_idle noTrigger, status_eq,
    dropEntry_clean clean found]

end

/-- Settles O38: each check of the two requests gives its status, and what passes them all removes the entry. -/
theorem rejectAndWithdrawRemoveAnOpenEntry : Obligations.RejectAndWithdrawRemoveAnOpenEntry := by
  unfold Obligations.RejectAndWithdrawRemoveAnOpenEntry
  intro s f number calm taken
  simp only [exec_reject, exec_withdraw]
  refine ⟨fun missing => ⟨?_, ?_⟩, fun e found => ⟨fun outside => ?_, fun other => ?_, fun inside staged => ?_,
    fun own staged => ?_, fun inside isOpen => ?_, fun own isOpen => ?_⟩⟩
  · exact removal_refused calm taken (rejectStatus_notFound missing _) rfl
  · exact removal_refused calm taken (withdrawStatus_notFound missing _) rfl
  · exact removal_refused calm taken (rejectStatus_notParty found outside) rfl
  · exact removal_refused calm taken (withdrawStatus_notParty found other) rfl
  · exact removal_refused calm taken ((rejectStatus_party found inside).trans (if_pos staged)) rfl
  · exact removal_refused calm taken ((withdrawStatus_proposer found own).trans (if_pos staged)) rfl
  · exact removal_done calm taken found ((rejectStatus_party found inside).trans (if_neg (by simp [isOpen])))
  · exact removal_done calm taken found ((withdrawStatus_proposer found own).trans (if_neg (by simp [isOpen])))

end Sys2Proof.Proofs.Removal
end

section
/-! NOTICE (10-5): which class of a party a notice returns, what clearing its record leaves, and when the attention line is
asserted. -/

namespace Sys2Proof.Proofs.Notice

open Sys2Proof Sys2Proof.Machine

/-! ## Which class calls (R188, R189) -/

/-- A class that is pending and not masked for a party. -/
def Calls (s : State) (p : Party) (k : Fin 10) : Prop :=
  s.links.notices[partyIndex p][k].pending = true ∧ s.links.masks[partyIndex p][k] = false

section
variable {s : State} {p : Party}

theorem not_calls_iff {k : Fin 10} : ¬ Calls s p k ↔
    s.links.notices[partyIndex p][k].pending = false ∨ s.links.masks[partyIndex p][k] = true := by
  rw [Calls, Classical.not_and_iff_not_or_not, Bool.not_eq_true, Bool.not_eq_false]

theorem calls_iff {k : Fin 10} : Calls s p k ↔
    (s.links.notices[partyIndex p][k].pending && !s.links.masks[partyIndex p][k]) = true := by
  rw [Calls, Bool.and_eq_true, Bool.not_eq_true']

theorem noticeClass_eq_some {k : Fin 10} (calls : Calls s p k) (lowest : ∀ j < k, ¬ Calls s p j) :
    noticeClass s p = some k := by
  refine List.find?_eq_some_iff_getElem.2 ⟨calls_iff.1 calls, k, by simp, by simp, fun j below => ?_⟩
  have silent := not_calls_iff.1 (lowest ⟨j, by omega⟩ below)
  simpa using silent

theorem noticeClass_eq_none (silent : ∀ j, ¬ Calls s p j) : noticeClass s p = none :=
  List.find?_eq_none.2 fun j _ called => silent j (calls_iff.2 called)

/-- A party's line is called for where some class calls (R189). -/
theorem attnCalled_iff :
    attnCalled s.links.notices[partyIndex p] s.links.masks[partyIndex p] = true ↔ ∃ j, Calls s p j := by
  simp [attnCalled, calls_iff]

end

/-! ## Clearing a record (R188) -/

theorem notices_setNotice_same (p : Party) (k : Fin 10) (n : NoticeRecord) (s : State) :
    (setNotice p k n s).links.notices[partyIndex p][k] = n := by
  simp [setNotice]

theorem notices_setNotice_other {p : Party} {k : Fin 10} {q : Fin 3} {j : Fin 10} (other : (q, j) ≠ (partyIndex p, k))
    (n : NoticeRecord) (s : State) : (setNotice p k n s).links.notices[q][j] = s.links.notices[q][j] := by
  by_cases party : q = partyIndex p
  · subst party
    have cls : j ≠ k := fun h => other (by rw [h])
    calc (setNotice p k n s).links.notices[partyIndex p][j]
        = (s.links.notices[partyIndex p].set k n)[j] := by simp [setNotice]
      _ = s.links.notices[partyIndex p][j] := getElem_set_fin _ cls n
  · exact congrArg (·[j]) (getElem_set_fin _ party _)

/-- The line of a running part follows what calls (R189, R193). -/
theorem refreshAttn_attn_iff {s : State} (running : s.power.running = true) (p : Party) :
    (refreshAttn p s).lines.attn[partyIndex p] = true ↔ ∃ j, Calls s p j := by
  rw [← attnCalled_iff]
  simp [refreshAttn, running]

/-- The part with a class of a party returned: the record cleared and the party's line following. -/
def returned (p : Party) (k : Fin 10) (s : State) : State := refreshAttn p (setNotice p k clearNotice s)

/-- Only the notices and the party's attention line move. -/
theorem returned_frame (p : Party) (k : Fin 10) (s : State) : returned p k s = { s with
    links := { s.links with notices := (returned p k s).links.notices }
    lines := { s.lines with attn := s.lines.attn.set (partyIndex p) (returned p k s).lines.attn[partyIndex p] } } := by
  simp [returned, refreshAttn, setNotice]

/-! ## What the request does (R188, R181) -/

theorem exec_notice (f : Frame) (s : State) : exec (.notice f) s = execNotice f s := rfl

section
variable {s : State} {f : Frame} (calm : Calm s) (taken : Taken s f 1)
include calm taken

theorem execNotice_calm : execNotice f s = .next (respond f.party codeNotice (noticeAnswer f.party s s).1
    (noticeAnswer f.party s s).2 (noticeBody f.party s)) := by
  obtain ⟨running, clean, idle⟩ := calm
  have noTrigger : (noticeBody f.party s).allocator.triggers = 0 := by
    unfold noticeBody; split <;> exact idle
  rw [execNotice, request_taken (length := lenBare) running taken, serve_calm clean idle, settle_idle noTrigger]
  rfl

theorem execNotice_done {k : Fin 10} {d : Detail} (calls : Calls s f.party k)
    (lowest : ∀ j < k, ¬ Calls s f.party j) (detail : s.links.notices[partyIndex f.party][k].detail = some d) :
    execNotice f s = .next (respond f.party codeNotice .done
      ([.u8 k, .u8 (severityOf k), .u8 s.links.notices[partyIndex f.party][k].count] ++ detailFields d)
      (returned f.party k s)) := by
  have found := noticeClass_eq_some calls lowest
  have answer : noticeAnswer f.party s s = (.done,
      [.u8 k, .u8 (severityOf k), .u8 s.links.notices[partyIndex f.party][k].count] ++ detailFields d) := by
    simp only [noticeAnswer, found, detail]
  have body : noticeBody f.party s = returned f.party k s := by simp only [noticeBody, found, returned]
  rw [execNotice_calm calm taken, answer, body]

theorem execNotice_none (silent : ∀ j, ¬ Calls s f.party j) :
    execNotice f s = .next (respond f.party codeNotice .none [] s) := by
  have missing := noticeClass_eq_none silent
  have answer : noticeAnswer f.party s s = (.none, []) := by simp only [noticeAnswer, missing]
  have body : noticeBody f.party s = s := by simp only [noticeBody, missing]
  rw [execNotice_calm calm taken, answer, body]

end

/-- Settles O53: the lowest class that calls is the one found and cleared; where none calls, NONE is answered. -/
theorem noticeReturnsTheLowestClass : Obligations.NoticeReturnsTheLowestClass := by
  unfold Obligations.NoticeReturnsTheLowestClass
  intro s f calm taken
  have ⟨running, _, _⟩ := calm
  rw [exec_notice]
  refine ⟨fun k d pending unmasked detail below => ?_, fun silent => ?_⟩
  · have lowest : ∀ j < k, ¬ Calls s f.party j := fun j h => not_calls_iff.2 (below j h)
    refine ⟨_, execNotice_done calm taken ⟨pending, unmasked⟩ lowest detail, rfl, ?_, fun p j other => ?_, ?_, ?_⟩
    · exact notices_setNotice_same ..
    · exact notices_setNotice_other other ..
    · exact refreshAttn_attn_iff (s := setNotice f.party k clearNotice s) running f.party
    · exact congrArg (respond f.party codeNotice .done _) (returned_frame f.party k s)
  · exact execNotice_none calm taken fun j => not_calls_iff.2 (silent j)

end Sys2Proof.Proofs.Notice
end

section
/-! Facts about lists and sums that core Lean does not state in this form: the model's files import no library. -/

namespace Sys2Proof.Proofs.Lists

variable {α β : Type}

theorem flatMap_sublist {l m : List α} (f : α → List β) (sub : l.Sublist m) : (l.flatMap f).Sublist (m.flatMap f) := by
  induction sub with
  | slnil => exact .slnil
  | cons a _ ih =>
    rw [List.flatMap_cons]
    exact ih.trans (List.sublist_append_right ..)
  | cons_cons a _ ih =>
    rw [List.flatMap_cons, List.flatMap_cons]
    exact (List.Sublist.refl _).append ih

theorem nodup_one (a : α) : [a].Nodup := List.nodup_cons.2 ⟨List.not_mem_nil, List.nodup_nil⟩

theorem nodup_map_of_inj {l : List α} {f : α → β} (inj : ∀ a ∈ l, ∀ b ∈ l, f a = f b → a = b) (nodup : l.Nodup) :
    (l.map f).Nodup :=
  List.pairwise_map.2 (nodup.imp_of_mem fun ha hb ne same => ne (inj _ ha _ hb same))

theorem nodup_flatten_of_apart {L : List (List α)} (each : ∀ l ∈ L, l.Nodup)
    (apart : L.Pairwise fun l m => ∀ a, a ∈ l → a ∉ m) : L.flatten.Nodup :=
  List.pairwise_flatten.2 ⟨each, apart.imp fun away a ha b hb same => by
    subst same
    exact away a ha hb⟩

theorem nodup_flatMap_of_apart {l : List α} {f : α → List β} (each : ∀ a ∈ l, (f a).Nodup)
    (apart : l.Pairwise fun a b => ∀ x, x ∈ f a → x ∉ f b) : (l.flatMap f).Nodup :=
  List.pairwise_flatMap.2 ⟨each, apart.imp fun away x hx y hy same => by
    subst same
    exact away x hx hy⟩

/-- A list without repetitions is no longer than one that holds its members. -/
theorem length_le_of_nodup_subset [DecidableEq α] {l m : List α} (nodup : l.Nodup) (sub : ∀ a ∈ l, a ∈ m) : l.length ≤ m.length := by
  induction l generalizing m with
  | nil => exact Nat.zero_le _
  | cons a l ih =>
    obtain ⟨fresh, nodup⟩ := List.nodup_cons.1 nodup
    have mem : a ∈ m := sub a (List.mem_cons_self ..)
    have rest := ih nodup (m := m.erase a) fun b hb => by
      have other : b ≠ a := fun same => fresh (same ▸ hb)
      exact (List.mem_erase_of_ne other).2 (sub b (List.mem_cons_of_mem _ hb))
    have pos := List.length_pos_of_mem mem
    rw [List.length_erase_of_mem mem] at rest
    rw [List.length_cons]
    omega

theorem foldl_congr {f g : β → α → β} {l : List α} (same : ∀ b, ∀ a ∈ l, f b a = g b a) (b : β) : l.foldl f b = l.foldl g b := by
  induction l generalizing b with
  | nil => rfl
  | cons a l ih =>
    rw [List.foldl_cons, List.foldl_cons, same b a (List.mem_cons_self ..)]
    exact ih (fun b a ha => same b a (List.mem_cons_of_mem _ ha)) _

/-! ## Sums -/

section
variable (f g : α → Nat) (l : List α)

theorem sum_map_plus : (l.map fun c => f c + g c).sum = (l.map f).sum + (l.map g).sum := by
  induction l with
  | nil => rfl
  | cons c l ih =>
    simp only [List.map_cons, List.sum_cons, ih]
    omega

theorem sum_map_times (k : Nat) : (l.map fun c => f c * k).sum = (l.map f).sum * k := by
  induction l with
  | nil => exact (Nat.zero_mul k).symm
  | cons c l ih => simp only [List.map_cons, List.sum_cons, ih, Nat.add_mul]

end

theorem sum_map_le {f g : α → Nat} {l : List α} (le : ∀ a ∈ l, f a ≤ g a) : (l.map f).sum ≤ (l.map g).sum := by
  induction l with
  | nil => exact Nat.le_refl _
  | cons a l ih =>
    simp only [List.map_cons, List.sum_cons]
    exact Nat.add_le_add (le a (List.mem_cons_self ..)) (ih fun b hb => le b (List.mem_cons_of_mem _ hb))

/-- A sum with one of its terms replaced. -/
theorem sum_map_replaced {f g : α → Nat} {l : List α} {c : α} (nodup : l.Nodup) (mem : c ∈ l) (same : ∀ d, d ≠ c → g d = f d) :
    (l.map g).sum + f c = (l.map f).sum + g c := by
  induction l with
  | nil => cases mem
  | cons d l ih =>
    obtain ⟨fresh, nodup⟩ := List.nodup_cons.1 nodup
    simp only [List.map_cons, List.sum_cons]
    rcases List.mem_cons.1 mem with rfl | later
    · have rest : l.map g = l.map f := List.map_congr_left fun d hd => same d fun is => fresh (is ▸ hd)
      rw [rest]
      omega
    · have moved := ih nodup later
      have stays := same d fun is => fresh (is ▸ later)
      omega

end Sys2Proof.Proofs.Lists
end

section
/-! What every operation of the part keeps. An operation is made of elementary changes of the state; a condition that each of
them keeps is kept by every operation. The elementary changes are named once, each under the condition in which the model
makes it, and the operations of the blocks are taken apart into them once for all conditions. -/

namespace Sys2Proof.Proofs.Upkeep

open Sys2Proof Sys2Proof.Machine

/-! ## The elementary changes -/

/-- The most that a running part may grant to a consumer: its nomination and its ceilings (R67). -/
def grantLimit (s : State) (c : Fin 8) : Nat := min (consumer s c).nomination (effectiveCeiling s c)

/-- The consumers whose grant a new value of an item may leave above its limit until it is cut (R69). -/
def debtOf : Item → List (Fin 8)
  | .consumer c k => if k = cCeiling ∨ k = cHardCeiling then [c] else []
  | _ => []

/-- A record consistent but for its supervision timers, which an evaluation point sets (R88). -/
abbrev Placed (r : Consumer) : Prop :=
  (r.target.isSome = (r.state == .purging)) ∧ (r.purgeTimer.isSome = (r.state == .purging)) ∧
  ((r.reservation != .none) = (r.target == some .active)) ∧ ((r.causes != noCauses) = (r.state == .tripped)) ∧
  (r.state ≠ .tripped → r.recoveryTimer = none) ∧ r.recoveryCount ≤ 3

/-- A consumer may take the record `r`: no grant is left outside ACTIVE, and no reservation outside a purge toward ACTIVE
(R58, R67). -/
abbrev Releases (s : State) (c : Fin 8) (r : Consumer) : Prop :=
  (r.state ≠ .active → (consumer s c).state = .active → grant s c = 0) ∧
  (¬ (r.state = .purging ∧ r.target = some .active) → isCandidate s c = true → reservation s c = 0)

/-- A condition, with the consumers whose grants still wait for their cut, that every elementary change of the state
keeps. -/
structure Kept (P : List (Fin 8) → State → Prop) : Prop where
  more : ∀ {L L' s}, L ⊆ L' → P L s → P L' s := by intros; assumption
  paid : ∀ {L s c}, grant s c ≤ grantLimit s c → P (c :: L) s → P L s := by intros; assumption
  store : ∀ {L s st n}, (StoreSound s → StoreSound { s with store := st, freeIndex := n }) → P L s →
    P L { s with store := st, freeIndex := n } := by intros; assumption
  ports : ∀ {L s v}, P L s → P L { s with links := { s.links with ports := v } } := by intros; assumption
  attn : ∀ {L s p l}, l.ports = s.links.ports →
    (∀ q, q ≠ partyIndex p → l.notices[q] = s.links.notices[q] ∧ l.masks[q] = s.links.masks[q]) →
    (NoticesSound s → NoticesSound { s with links := l }) → P L s → P L (refreshAttn p { s with links := l }) :=
    by intros; assumption
  field : ∀ {L s f}, (FieldConsistent s → FieldConsistent { s with field := f }) → P L s → P L { s with field := f } :=
    by intros; assumption
  metering : ∀ {L s m}, (TotalsInRange s → TotalsInRange { s with metering := m }) → P L s → P L { s with metering := m } :=
    by intros; assumption
  band : ∀ {L s b}, P L s → P L { s with band := b } := by intros; assumption
  allocator : ∀ {L s a}, a.result = { s.allocator.result with creditPoint := a.result.creditPoint } → P L s →
    P L { s with allocator := a } := by intros; assumption
  flare : ∀ {L s kw}, P L s → P L (setFlare kw s) := by intros; assumption
  lower : ∀ {L s c kw}, kw < grant s c → P L s → P L (setResult { s.allocator.result with
    grants := s.allocator.result.grants.set c kw, surplus := s.allocator.result.surplus + (grant s c - kw) } s) :=
    by intros; assumption
  release : ∀ {L s c}, P L s → P L (releaseReservation c s) := by intros; assumption
  plan : ∀ {L s}, P L s → P L (setResult (planResult (plan (availableRate s) s) s (availableRate s))
    (plan (availableRate s) s).state)
  base : ∀ {L s n}, P L s → P L { s with supervisor := { s.supervisor with base := n } } := by intros; assumption
  tend : ∀ {L s c r}, r.state = (consumer s c).state → r.nomination = (consumer s c).nomination →
    (RecordConsistent (consumer s c) → RecordConsistent r ∧ Releases s c r) → P L s → P L (setConsumer c r s) :=
    by intros; assumption
  put : ∀ {L s c r}, r.nomination = (consumer s c).nomination →
    (RecordConsistent (consumer s c) → RecordConsistent r ∧ Releases s c r) → P L s → P L (putConsumer c r s) :=
    by intros; assumption
  move : ∀ {L s c r}, r.nomination = (consumer s c).nomination →
    (RecordConsistent (consumer s c) → Placed r ∧ Releases s c r) → P L s → P L (evaluate c (putConsumer c r s)) :=
    by intros; assumption
  nomination : ∀ {L s c n}, P L s → P (c :: L) (setConsumer c { consumer s c with nomination := n } s) :=
    by intros; assumption
  item : ∀ {L s i v}, (ProposalsSound s → itemInRange i v = true) → P L s →
    P (debtOf i ++ L) { s with contracts := { s.contracts with contract := writeItem s.contracts.contract i v } } :=
    by intros; assumption
  table : ∀ {L s c}, c.contract = s.contracts.contract → (ProposalsSound s → ProposalsSound { s with contracts := c }) →
    P L s → P L { s with contracts := c } := by intros; assumption
  schedule : ∀ {L s l}, (ScheduleOrdered s → ScheduleOrdered { s with exports := { s.exports with schedule := l } }) →
    P L s → P L { s with exports := { s.exports with schedule := l } } := by intros; assumption
  latch : ∀ {L s l}, s.exports.latch.isSome = true → P L s → P L { s with exports := { s.exports with latch := some l } } :=
    by intros; assumption
  settlement : ∀ {L s x}, x.archive = s.settlement.archive → x.clock.isSome = s.settlement.clock.isSome →
    x.openRecord.isSome = s.settlement.openRecord.isSome →
    (OneOpenRecord s ∧ ArchiveOrdered s →
      OneOpenRecord { s with settlement := x } ∧ ArchiveOrdered { s with settlement := x }) →
    P L s → P L { s with settlement := x } := by intros; assumption

/-- What no elementary change moves: the ring, and whether a record is open, a latch held and the clock running. -/
structure Shape where
  archive : List ArchiveRecord
  isOpen  : Bool
  latched : Bool
  clocked : Bool

def shape (s : State) : Shape :=
  ⟨s.settlement.archive, s.settlement.openRecord.isSome, s.exports.latch.isSome, s.settlement.clock.isSome⟩

/-- A condition with the shape that the state has. -/
def Shaped (P : List (Fin 8) → State → Prop) (b : Shape) (L : List (Fin 8)) (s : State) : Prop :=
  P L s ∧ shape s = b

variable {P : List (Fin 8) → State → Prop} {L : List (Fin 8)} {s : State}

theorem Kept.shaped (K : Kept P) (b : Shape) : Kept (Shaped P b) where
  more sub h := ⟨K.more sub h.1, h.2⟩
  paid low h := ⟨K.paid low h.1, h.2⟩
  store keep h := ⟨K.store keep h.1, h.2⟩
  ports h := ⟨K.ports h.1, h.2⟩
  attn e keep sound h := ⟨K.attn e keep sound h.1, h.2⟩
  field keep h := ⟨K.field keep h.1, h.2⟩
  metering keep h := ⟨K.metering keep h.1, h.2⟩
  band h := ⟨K.band h.1, h.2⟩
  allocator e h := ⟨K.allocator e h.1, h.2⟩
  flare h := ⟨K.flare h.1, h.2⟩
  lower e h := ⟨K.lower e h.1, h.2⟩
  release h := ⟨K.release h.1, h.2⟩
  plan {_ s} h := ⟨K.plan h.1, by rw [← h.2]; simp only [shape, setResult, plan_settlement, plan_exports]⟩
  base h := ⟨K.base h.1, h.2⟩
  tend e n keep h := ⟨K.tend e n keep h.1, h.2⟩
  put n keep h := ⟨K.put n keep h.1, h.2⟩
  move n keep h := ⟨K.move n keep h.1, h.2⟩
  nomination h := ⟨K.nomination h.1, h.2⟩
  item range h := ⟨K.item range h.1, h.2⟩
  table e keep h := ⟨K.table e keep h.1, h.2⟩
  schedule keep h := ⟨K.schedule keep h.1, h.2⟩
  latch {_ s l} some h := ⟨K.latch some h.1, by
    have := h.2
    simp only [shape, some] at this ⊢
    exact this⟩
  settlement {_ s x} a c o keep h := ⟨K.settlement a c o keep h.1, by
    have := h.2
    simp only [shape] at this ⊢
    rw [a, c, o]; exact this⟩

end Sys2Proof.Proofs.Upkeep
end

section
/-! The operations that the blocks share, taken apart into elementary changes. -/

namespace Sys2Proof.Proofs.Upkeep

open Sys2Proof Sys2Proof.Machine Sys2Proof.Proofs.Notice Sys2Proof.Proofs.Event

variable {P : List (Fin 8) → State → Prop} {L : List (Fin 8)} {s : State}

/-! ## Words of the store -/

theorem wrote_keeps (K : Kept P) (t : Thing) (h : P L s) : P L (wrote t s) :=
  K.store (n := s.freeIndex) (fun ⟨order, rest⟩ => ⟨errorsInOrder_filter _ order, rest⟩) h

theorem clearWord_keeps (K : Kept P) (w : Nat) (h : P L s) : P L (clearWord w s) :=
  K.store (n := s.freeIndex) (fun ⟨order, rest⟩ => ⟨errorsInOrder_filter _ order, rest⟩) h

theorem wroteAll_keeps (K : Kept P) (ts : List Thing) (h : P L s) : P L (wroteAll ts s) :=
  foldl_induct (P L) _ _ (fun _ t _ => wrote_keeps K t) _ h

theorem useFree_keeps (K : Kept P) (h : P L s) : P L (useFree s) := K.store (st := s.store) (fun sound => sound) h

/-! ## Notices (R184, R189) -/

/-- A notice record as R184 has it: pending with a count from 1 to 255 and a detail, or clear. -/
abbrev Sound (n : NoticeRecord) : Prop :=
  (n.pending = decide (1 ≤ n.count)) ∧ (n.detail.isSome = n.pending) ∧ n.count ≤ 255

theorem sound_addOccurrence (d : Detail) {n : NoticeRecord} (h : Sound n) : Sound (addOccurrence d n) := by
  obtain ⟨pending, _, le⟩ := h
  unfold addOccurrence
  by_cases was : n.pending = true
  · have up : 1 ≤ countUp 255 n.count ∧ countUp 255 n.count ≤ 255 := by unfold countUp; split <;> omega
    simp [Sound, was, up]
  · simp [Sound, was]

theorem noticesSound_setNotice {p : Party} {k : Fin 10} {n : NoticeRecord} (hn : NoticesSound s → Sound n) (h : NoticesSound s) :
    NoticesSound (setNotice p k n s) := by
  refine ⟨fun q j => ?_, h.2⟩
  by_cases at_ : (q, j) = (partyIndex p, k)
  · obtain ⟨rfl, rfl⟩ := Prod.mk.inj at_
    rw [notices_setNotice_same]
    exact hn h
  · rw [notices_setNotice_other at_]
    exact h.1 q j

theorem setNotice_keeps (K : Kept P) (p : Party) (k : Fin 10) {n : NoticeRecord} (hn : NoticesSound s → Sound n) (h : P L s) :
    P L (refreshAttn p (setNotice p k n s)) :=
  K.attn (l := (setNotice p k n s).links) rfl
    (fun _ other => ⟨getElem_set_fin _ other _, rfl⟩) (noticesSound_setNotice hn) h

theorem raiseFor_keeps (K : Kept P) (p : Party) (k : Fin 10) (d : Detail) (h : P L s) : P L (raiseFor p k d s) :=
  setNotice_keeps K p k (fun sound => sound_addOccurrence d (sound.1 (partyIndex p) k)) h

theorem raiseNotice_keeps (K : Kept P) (ps : PartySet) (k : Fin 10) (d : Detail) (h : P L s) : P L (raiseNotice ps k d s) := by
  refine foldl_induct (P L) _ _ (fun t p _ ht => ?_) _ h
  split
  · exact raiseFor_keeps K p k d ht
  · exact ht

/-! ## The open record -/

/-- An open record that keeps its number leaves the ring and its order as they were (R149, R150). -/
theorem ordered_onOpen {f : OpenRecord → OpenRecord} (number : ∀ o, (f o).number = o.number)
    (h : OneOpenRecord s ∧ ArchiveOrdered s) :
    let t := { s with settlement := { s.settlement with openRecord := s.settlement.openRecord.map f } }
    OneOpenRecord t ∧ ArchiveOrdered t := by
  obtain ⟨⟨one, latch, next, unset⟩, length, consec, running, newest, cursors⟩ := h
  refine ⟨⟨by simpa using one, latch, fun o' e => ?_, unset⟩, length, consec, running, fun o' e ne => ?_, cursors⟩
  · obtain ⟨o, eo, rfl⟩ := Option.map_eq_some_iff.1 e
    rw [number]; exact next o eo
  · obtain ⟨o, eo, rfl⟩ := Option.map_eq_some_iff.1 e
    rw [number]; exact newest o eo ne

theorem onOpen_keeps (K : Kept P) (k : Fin 49) {f : OpenRecord → OpenRecord} (number : ∀ o, (f o).number = o.number)
    (h : P L s) : P L (onOpen k f s) := by
  have set := K.settlement (x := { s.settlement with openRecord := s.settlement.openRecord.map f }) rfl rfl (by simp)
    (ordered_onOpen number) h
  unfold onOpen
  split
  next none => exact h
  next o some =>
    rw [some, Option.map_some] at set
    exact wrote_keeps K _ set

theorem markEstimated_keeps (K : Kept P) (ch : Fin 16) (h : P L s) : P L (markEstimated ch s) := by
  unfold markEstimated
  split
  · exact onOpen_keeps K _ (fun _ => rfl) h
  · split
    · exact onOpen_keeps K _ (fun _ => rfl) h
    · exact h

theorem markContractChanged_keeps (K : Kept P) (h : P L s) : P L (markContractChanged s) :=
  onOpen_keeps K _ (fun _ => rfl) h

theorem markContractDamaged_keeps (K : Kept P) (h : P L s) : P L (markContractDamaged s) :=
  onOpen_keeps K _ (fun _ => rfl) h

theorem creditFlare_keeps (K : Kept P) (h : P L s) : P L (creditFlare s) := by
  unfold creditFlare
  exact K.allocator (by simp) (onOpen_keeps K 47 (fun _ => rfl) h)

/-! ## Evaluation points (R88) -/

/-- A record with other supervision timers, each of them stopped where its condition does not apply, is consistent. -/
theorem recordConsistent_evaluated {c : Fin 8} (h : Placed (consumer s c)) : RecordConsistent (evaluated s c) := by
  obtain ⟨target, purge, reservation, causes, recovery, count⟩ := h
  refine ⟨target, purge, reservation, fun out => ?_, fun active => ?_, causes, recovery, count⟩
  · have : lit s c = false := beq_eq_false_iff_ne.2 out
    simp [evaluated, judge, this]
  · have : lit s c = true := beq_iff_eq.2 active
    simp [evaluated, judge, passingApplies, this]

theorem RecordConsistent.placed {r : Consumer} (h : RecordConsistent r) : Placed r := by
  obtain ⟨target, purge, reservation, _, _, causes, recovery, count⟩ := h
  exact ⟨target, purge, reservation, causes, recovery, count⟩

/-- A record in the same state and with the same target releases nothing. -/
theorem releases_same {c : Fin 8} {r : Consumer} (st : r.state = (consumer s c).state) (tg : r.target = (consumer s c).target) :
    Releases s c r := by
  refine ⟨fun out active => absurd (st.trans active) out, fun none candidate => absurd ?_ none⟩
  simpa [isCandidate, st, tg] using candidate

theorem evaluate_keeps (K : Kept P) (c : Fin 8) (h : P L s) : P L (evaluate c s) :=
  K.tend rfl rfl (fun consistent => ⟨recordConsistent_evaluated (RecordConsistent.placed consistent), releases_same rfl rfl⟩) h

theorem evaluateSome_keeps (K : Kept P) (c : Option (Fin 8)) (h : P L s) : P L (evaluateSome c s) := by
  cases c with
  | none => exact h
  | some c => exact evaluate_keeps K c h

/-! ## Releases and cuts (4-5) -/

theorem noticeGrant_keeps (K : Kept P) (c : Fin 8) (kw : Nat) (h : P L s) : P L (noticeGrant c kw s) :=
  raiseNotice_keeps K _ _ _ h

theorem lowerGrant_keeps (K : Kept P) (c : Fin 8) (kw : Nat) (h : P L s) : P L (lowerGrant c kw s) := by
  unfold lowerGrant
  split
  next below => exact noticeGrant_keeps K c kw (K.lower below h)
  next => exact h

theorem grant_lowerGrant (c : Fin 8) (kw : Nat) (s : State) : grant (lowerGrant c kw s) c = min kw (grant s c) := by
  unfold lowerGrant
  split
  · simp [grant, setResult]; simp [grant] at *; omega
  · omega

theorem grant_lowerGrant_ne {c d : Fin 8} (ne : d ≠ c) (kw : Nat) (s : State) : grant (lowerGrant c kw s) d = grant s d := by
  unfold lowerGrant
  split
  · simpa [grant, setResult] using getElem_set_fin s.allocator.result.grants ne kw
  · rfl

theorem grantLimit_eq {s t : State} (hc : t.contracts = s.contracts) {c : Fin 8}
    (hn : (consumer t c).nomination = (consumer s c).nomination) : grantLimit t c = grantLimit s c := by
  have contract : t.contracts.contract = s.contracts.contract := by rw [hc]
  simp [grantLimit, effectiveCeiling, hn, consumerItem_eq contract]

/-- A demand lies within the limit of a grant (R56). -/
theorem demand_le_grantLimit (s : State) (c : Fin 8) : demand s c ≤ grantLimit s c := by
  have : cappedNomination s c ≤ (consumer s c).nomination := by unfold cappedNomination; split <;> omega
  unfold demand grantLimit
  omega

/-- A cut leaves no more than the limit granted, so the consumer waits for none (R69). -/
theorem cutGrant_pays (K : Kept P) (c : Fin 8) (h : P (c :: L) s) : P L (cutGrant c s) := by
  have le := demand_le_grantLimit s c
  unfold cutGrant
  split
  next above =>
    refine K.paid (c := c) ?_ (evaluate_keeps K c (lowerGrant_keeps K c (demand s c) h))
    have limit : grantLimit (evaluate c (lowerGrant c (demand s c) s)) c = grantLimit s c :=
      grantLimit_eq (by simp) (by simp [evaluate, evaluated, consumer_eq (lowerGrant_supervisor s c (demand s c))])
    have granted := grant_lowerGrant c (demand s c) s
    rw [limit]
    show grant (lowerGrant c (demand s c) s) c ≤ _
    omega
  next within => exact K.paid (by omega) h

theorem cutGrant_keeps (K : Kept P) (c : Fin 8) (h : P L s) : P L (cutGrant c s) :=
  cutGrant_pays K c (K.more (List.subset_cons_self c L) h)

theorem cutLinked_keeps (K : Kept P) (h : P L s) : P L (cutLinked s) := by
  refine foldl_induct (P L) _ _ (fun t c _ ht => ?_) _ h
  split
  · exact cutGrant_keeps K c ht
  · exact ht

/-! ## The stages of an allocation event (4-4) -/

theorem eventNotices_keeps (K : Kept P) (p : Plan) (old : Vector Nat 8) (h : P L s) : P L (eventNotices p old s) := by
  unfold eventNotices
  refine foldl_induct (P L) _ _ (fun t c _ ht => ?_) _ (foldl_induct (P L) _ _ (fun t c _ ht => ?_) _ h)
  · split
    · exact noticeGrant_keeps K c _ ht
    · exact ht
  · split
    · exact raiseNotice_keeps K _ _ _ ht
    · split
      · exact raiseNotice_keeps K _ _ _ ht
      · exact ht

theorem eventEvaluations_keeps (K : Kept P) (p : Plan) (before : State) (h : P L s) :
    P L (eventEvaluations p before s) := by
  refine foldl_induct (P L) _ _ (fun t c _ ht => ?_) _ h
  split
  · exact evaluate_keeps K c ht
  · exact ht

theorem startPeriod_keeps (K : Kept P) (h : P L s) : P L (startPeriod s) := K.allocator rfl h

theorem runStages_keeps (K : Kept P) (h : P L s) : P L (runStages s) := by
  have applied : P L (applyPlan (plan (availableRate s) s) s) := startPeriod_keeps K (K.flare (K.plan h))
  unfold runStages
  exact eventEvaluations_keeps K _ _ (eventNotices_keeps K _ _ applied)

/-! ## Trips and recovery (R93, R97) -/

theorem startRecovery_keeps (K : Kept P) (c : Fin 8) (h : P L s) : P L (startRecovery c s) := by
  unfold startRecovery
  split
  next due =>
    refine K.tend (by simp) (by simp) (fun consistent => ⟨?_, releases_same rfl rfl⟩) h
    simp_all [RecordConsistent]
  next => exact h

theorem releaseForTrip_keeps (K : Kept P) (c : Fin 8) (h : P L s) : P L (releaseForTrip c s) := by
  unfold releaseForTrip
  split
  · exact lowerGrant_keeps K c 0 h
  · exact K.release h
  · exact h

theorem addCause_ne (cs : CauseSet) (cause : Cause) : addCause cs cause ≠ noCauses := by
  cases cause <;> simp [addCause, noCauses]

theorem recordConsistent_tripped {c : Fin 8} (cause : Cause) (h : RecordConsistent (consumer s c)) :
    RecordConsistent (trippedRecord s c cause) := by
  have named := addCause_ne (consumer s c).causes cause
  unfold trippedRecord
  by_cases tripped : (consumer s c).state = .tripped
  · simp_all [RecordConsistent]
  · simp_all [RecordConsistent, settled]

theorem trippedRecord_state (s : State) (c : Fin 8) (cause : Cause) : (trippedRecord s c cause).state = .tripped := by
  unfold trippedRecord
  by_cases tripped : (consumer s c).state = .tripped <;> simp [tripped, settled]

theorem trippedRecord_nomination (s : State) (c : Fin 8) (cause : Cause) :
    (trippedRecord s c cause).nomination = (consumer s c).nomination := by
  unfold trippedRecord
  by_cases tripped : (consumer s c).state = .tripped <;> simp [tripped, settled]

/-- A trip has released what the consumer held (R67, R68). -/
theorem releases_tripped (s : State) (c : Fin 8) (cause : Cause) :
    Releases (releaseForTrip c s) c (trippedRecord (releaseForTrip c s) c cause) := by
  have same : consumer (releaseForTrip c s) c = consumer s c := consumer_eq (releaseForTrip_supervisor s c) c
  refine ⟨fun _ active => ?_, fun _ candidate => ?_⟩
  · rw [same] at active
    have := grant_lowerGrant c 0 s
    simp only [releaseForTrip, active, releaseGrant]
    omega
  · have purging : (consumer s c).state = .purging := by
      rw [isCandidate, same] at candidate
      exact eq_of_beq (Bool.and_eq_true_iff.1 candidate).1
    simp [releaseForTrip, purging, releaseReservation, reservation, setResult]

theorem noticeTrip_keeps (K : Kept P) (c : Fin 8) (h : P L s) : P L (noticeTrip c s) := raiseNotice_keeps K _ _ _ h

theorem trigger_keeps (K : Kept P) (h : P L s) : P L (trigger s) := K.allocator rfl h

theorem tripBody_keeps (K : Kept P) (c : Fin 8) (cause : Cause) (h : P L s) : P L (tripBody c cause s) := by
  have tripped := noticeTrip_keeps K c (K.put (trippedRecord_nomination _ c cause)
    (fun consistent => ⟨recordConsistent_tripped cause consistent, releases_tripped s c cause⟩) (releaseForTrip_keeps K c h))
  unfold tripBody
  extract_lets s'
  split
  · exact tripped
  · exact evaluate_keeps K c (startRecovery_keeps K c tripped)

theorem trip_keeps (K : Kept P) (c : Fin 8) (cause : Cause) (h : P L s) : P L (trip c cause s) := by
  unfold trip
  split
  · exact trigger_keeps K (tripBody_keeps K c cause h)
  · exact tripBody_keeps K c cause h

/-! ## Items in force (R100, R117) -/

theorem freshChannel_consistent {n : Nat} (h : n ≤ 65535) : ChannelConsistent { freshChannel with noise := n } := by
  simp [ChannelConsistent, freshChannel, h, Config.maxRate]

/-- A channel that takes a consistent record leaves the field consistent. -/
theorem fieldConsistent_setChannel {ch : Fin 16} {r : PulseChannel} (hr : ChannelConsistent (channel s ch) → ChannelConsistent r)
    (h : FieldConsistent s) : FieldConsistent (setChannel ch r s) := by
  refine ⟨fun d => ?_, h.2⟩
  by_cases same : d = ch
  · subst same; rw [channel_setChannel_same]; exact hr (h.1 d)
  · rw [channel_setChannel_ne same]; exact h.1 d

theorem setChannel_keeps (K : Kept P) {ch : Fin 16} {r : PulseChannel}
    (hr : ChannelConsistent (channel s ch) → ChannelConsistent r) (h : P L s) : P L (setChannel ch r s) :=
  K.field (fieldConsistent_setChannel hr) h

theorem expireFlow_keeps (K : Kept P) (ch : Fin 16) (h : P L s) : P L (expireFlow ch s) :=
  evaluateSome_keeps K _ (setChannel_keeps K (fun ⟨_, _, _, _, _, noise⟩ => freshChannel_consistent noise) h)

theorem zeroFlowItemChanged_keeps (K : Kept P) (i : Item) (h : P L s) : P L (zeroFlowItemChanged i s) := by
  unfold zeroFlowItemChanged
  split
  · split
    · exact expireFlow_keeps K _ h
    · exact h
  · exact h

/-- The change of a consumer's item cuts its grant wherever the item may have lowered its limit (R69). -/
theorem consumerItemChanged_pays (K : Kept P) (c : Fin 8) (k : Fin 23) (h : P (debtOf (.consumer c k) ++ L) s) :
    P L (consumerItemChanged c k s) := by
  have cut : P L (if k = cCeiling ∨ k = cHardCeiling ∨ k = cLinked then cutGrant c s else s) := by
    by_cases owes : k = cCeiling ∨ k = cHardCeiling
    · simp only [debtOf, if_pos owes] at h
      rw [if_pos (owes.imp_right .inl)]
      exact cutGrant_pays K c h
    · simp only [debtOf, if_neg owes, List.nil_append] at h
      split
      · exact cutGrant_keeps K c h
      · exact h
  unfold consumerItemChanged
  dsimp only
  generalize (if k = cCeiling ∨ k = cHardCeiling ∨ k = cLinked then cutGrant c s else s) = t at cut ⊢
  refine evaluate_keeps K c ?_
  split
  · split
    · exact startRecovery_keeps K c cut
    · exact K.tend rfl rfl (fun ⟨a, b, d, e, f, g, _, i⟩ => ⟨⟨a, b, d, e, f, g, fun _ => rfl, i⟩, releases_same rfl rfl⟩) cut
  · exact cut

theorem itemChanged_pays (K : Kept P) (i : Item) (h : P (debtOf i ++ L) s) : P L (itemChanged i s) := by
  have flow := zeroFlowItemChanged_keeps K i h
  unfold itemChanged
  cases i with
  | consumer c k => exact consumerItemChanged_pays K c k flow
  | source n k =>
    show P L (if k = sInService then trigger _ else _)
    split
    · exact trigger_keeps K flow
    · exact flow
  | exportItem k =>
    show P L (if k = xHeatRate ∨ (k = xDefaultExport ∧ _) then cutLinked _ else _)
    split
    · exact cutLinked_keeps K flow
    · exact flow
  | _ => exact flow

theorem setItem_owes (K : Kept P) {i : Item} {v : Int} (range : ProposalsSound s → itemInRange i v = true) (h : P L s) :
    P (debtOf i ++ L) (setItem i v s) :=
  wrote_keeps K _ (K.item range h)

/-- Items take their values with a debt for each that may lower a limit. -/
theorem setItems_owe (K : Kept P) (changes : List (Item × Int))
    (range : ProposalsSound s → ∀ ch ∈ changes, itemInRange ch.1 ch.2 = true) (h : P L s) :
    P (changes.flatMap (fun ch => debtOf ch.1) ++ L) (changes.foldl (fun s ch => setItem ch.1 ch.2 s) s) := by
  induction changes generalizing s L with
  | nil => exact h
  | cons ch rest ih =>
    have one := setItem_owes K (fun sound => range sound ch (List.mem_cons_self ..)) h
    refine K.more ?_ (ih (fun sound => fun x hx => range sound x (List.mem_cons_of_mem _ hx)) one)
    intro c hc
    simp only [List.flatMap_cons, List.mem_append] at hc ⊢
    rcases hc with later | own | more
    · exact .inl (.inr later)
    · exact .inl (.inl own)
    · exact .inr more

/-- The changes pay the debts one after another. -/
theorem itemsChanged_pay (K : Kept P) (changes : List (Item × Int))
    (h : P (changes.flatMap (fun ch => debtOf ch.1) ++ L) s) : P L (changes.foldl (fun s ch => itemChanged ch.1 s) s) := by
  induction changes generalizing s with
  | nil => exact h
  | cons ch rest ih => exact ih (itemChanged_pays K ch.1 (by rwa [List.flatMap_cons, List.append_assoc] at h))

theorem putInForce_keeps (K : Kept P) (changes : List (Item × Int))
    (range : ProposalsSound s → ∀ ch ∈ changes, itemInRange ch.1 ch.2 = true) (h : P L s) : P L (putInForce changes s) :=
  itemsChanged_pay K changes (setItems_owe K changes range h)

theorem clearDamageMark_keeps (K : Kept P) (c : Fin 8) (h : P L s) : P L (clearDamageMark c s) :=
  wrote_keeps K _ (K.tend rfl rfl (fun consistent => ⟨consistent, releases_same rfl rfl⟩) h)

theorem setDamageMark_keeps (K : Kept P) (c : Fin 8) (h : P L s) : P L (setDamageMark c s) :=
  wrote_keeps K _ (K.tend rfl rfl (fun consistent => ⟨consistent, releases_same rfl rfl⟩) h)

theorem clearDamageMarks_keeps (K : Kept P) (changes : List (Item × Int)) (h : P L s) : P L (clearDamageMarks changes s) := by
  refine foldl_induct (P L) _ _ (fun t ch _ ht => ?_) _ h
  split
  · exact clearDamageMark_keeps K _ ht
  · exact ht

theorem bumpRevision_keeps (K : Kept P) (h : P L s) : P L (bumpRevision s) :=
  wrote_keeps K _ (K.table rfl (fun sound => sound) h)

end Sys2Proof.Proofs.Upkeep
end

section
/-! What the Retained Store Controller does to a word in error, with the reactions of the owning blocks (Table 9-2-1), and
the allocation events that follow an operation. -/

namespace Sys2Proof.Proofs.Upkeep

open Sys2Proof Sys2Proof.Machine

variable {P : List (Fin 8) → State → Prop} {L : List (Fin 8)} {s : State}

/-! ## The ring, its cursors and the next record number (R155) -/

/-- Consecutive numbers are a range. -/
theorem consecutive_cons (a : Nat) (l : List Nat) :
    consecutive (a :: l) = true ↔ l = List.range' (a + 1) l.length := by
  induction l generalizing a with
  | nil => simp [consecutive]
  | cons b l ih =>
    simp only [consecutive, Bool.and_eq_true, beq_iff_eq, ih, List.length_cons, List.range'_succ, List.cons.injEq]
    exact and_congr_right fun e => by rw [e]

theorem ring_range {l : List ArchiveRecord} {first : ArchiveRecord} (head : l.head? = some first)
    (h : consecutive (l.map (·.number)) = true) : l.map (·.number) = List.range' first.number l.length := by
  cases l with
  | nil => simp at head
  | cons a l =>
    obtain rfl : a = first := by simpa using head
    rw [List.map_cons, consecutive_cons, List.length_map] at h
    rw [List.map_cons, h, List.length_cons, List.range'_succ]

/-- The record that follows the last of a ring without gaps is as many places on as the ring is long. -/
theorem newestPlusOne_eq {first : ArchiveRecord} (head : s.settlement.archive.head? = some first)
    (h : consecutive (s.settlement.archive.map (·.number)) = true) :
    newestPlusOne s = first.number + s.settlement.archive.length := by
  have range := ring_range head h
  have pos : 0 < s.settlement.archive.length := by
    cases e : s.settlement.archive with
    | nil => simp [e] at head
    | cons => simp
  have last := congrArg List.getLast? range
  rw [List.getLast?_map, List.getLast?_range', if_neg (by omega)] at last
  obtain ⟨r, some, number⟩ := Option.map_eq_some_iff.1 last
  simp only [newestPlusOne, some]
  omega

/-- A record of the ring lies between the oldest and the one after the newest. -/
theorem between_of_mem (h : consecutive (s.settlement.archive.map (·.number)) = true) {r : ArchiveRecord}
    (mem : r ∈ s.settlement.archive) : oldestNumber s ≤ r.number ∧ r.number < newestPlusOne s := by
  cases head : s.settlement.archive.head? with
  | none => rw [List.head?_eq_none_iff] at head; simp [head] at mem
  | some first =>
    have number : r.number ∈ s.settlement.archive.map (·.number) := List.mem_map_of_mem mem
    rw [ring_range head h, List.mem_range'_1] at number
    rw [newestPlusOne_eq head h]
    simpa [oldestNumber, head] using number

/-- The settlement once a party's cursor has moved to a number. -/
def withCursor (p : Party) (n : Nat) (x : Settlement) : Settlement := { x with cursors := x.cursors.set (partyIndex p) n }

theorem ordered_withCursor {p : Party} {n : Nat}
    (within : ArchiveOrdered s → oldestNumber s ≤ n ∧ n ≤ newestPlusOne s) (h : OneOpenRecord s ∧ ArchiveOrdered s) :
    OneOpenRecord { s with settlement := withCursor p n s.settlement } ∧
    ArchiveOrdered { s with settlement := withCursor p n s.settlement } := by
  obtain ⟨one, ordered⟩ := h
  obtain ⟨length, consec, running, newest, cursors⟩ := ordered
  refine ⟨one, length, consec, running, newest, fun q => ?_⟩
  by_cases same : q = partyIndex p
  · subst same
    have at_ : (s.settlement.cursors.set (partyIndex p) n)[partyIndex p] = n := Vector.getElem_set_self ..
    simp only [withCursor, at_]
    exact within ⟨length, consec, running, newest, cursors⟩
  · simp only [withCursor, getElem_set_fin _ same]
    exact cursors q

theorem setCursor_keeps (K : Kept P) {p : Party} {n : Nat}
    (within : ArchiveOrdered s → oldestNumber s ≤ n ∧ n ≤ newestPlusOne s) (h : P L s) : P L (setCursor p n s) :=
  wrote_keeps K _ (K.settlement (x := withCursor p n s.settlement) rfl rfl rfl (ordered_withCursor within) h)

theorem setGap_keeps (K : Kept P) (p : Party) (b : Bool) (h : P L s) : P L (setGap p b s) :=
  wrote_keeps K _ (K.settlement (x := { s.settlement with gapMarks := s.settlement.gapMarks.set (partyIndex p) b })
    rfl rfl rfl (fun sound => sound) h)

/-- The oldest record is a place for a cursor. -/
theorem oldest_within (h : ArchiveOrdered s) : oldestNumber s ≤ oldestNumber s ∧ oldestNumber s ≤ newestPlusOne s :=
  have cursors := h.2.2.2.2 0
  ⟨Nat.le_refl _, Nat.le_trans cursors.1 cursors.2⟩

/-- The cursors once the next record number is `n`: in an empty ring every one stands there (R155). -/
theorem followNext_settlement (s : State) :
    (followNext s).settlement = { s.settlement with cursors := cursorsAt s s.settlement.nextRecord } := by
  have clean := congrArg State.settlement (followNext_clean (s := setErrors [] s) rfl)
  unfold followNext at clean ⊢
  by_cases e : s.settlement.archive.isEmpty = true
  · simpa [e, cursorsAt, setErrors, setCursor, wrote] using clean
  · simp [e, cursorsAt]

theorem setNextRecord_settlement (n : Nat) (s : State) :
    (setNextRecord n s).settlement = { s.settlement with nextRecord := n, cursors := cursorsAt s n } :=
  followNext_settlement _

/-- In a ring with records the oldest and the newest are those of the ring. -/
theorem ends_of_ne {t : State} (same : t.settlement.archive = s.settlement.archive) (ne : s.settlement.archive ≠ []) :
    oldestNumber t = oldestNumber s ∧ newestPlusOne t = newestPlusOne s := by
  unfold oldestNumber newestPlusOne
  rw [same]
  cases e : s.settlement.archive with
  | nil => exact absurd e ne
  | cons r rest => exact ⟨rfl, by rw [List.getLast?_cons]⟩

/-- In an empty ring both stand at the next record number (R155). -/
theorem ends_of_nil (empty : s.settlement.archive = []) :
    oldestNumber s = s.settlement.nextRecord ∧ newestPlusOne s = s.settlement.nextRecord := by
  simp [oldestNumber, newestPlusOne, empty]

/-- Cursors that have followed the next record number lie within the ring (R155). -/
theorem cursorsAt_within {t : State} (same : t.settlement.archive = s.settlement.archive)
    (moved : t.settlement.cursors = cursorsAt s t.settlement.nextRecord)
    (h : ∀ p : Fin 3, oldestNumber s ≤ s.settlement.cursors[p] ∧ s.settlement.cursors[p] ≤ newestPlusOne s) (p : Fin 3) :
    oldestNumber t ≤ t.settlement.cursors[p] ∧ t.settlement.cursors[p] ≤ newestPlusOne t := by
  by_cases empty : s.settlement.archive = []
  · obtain ⟨oldest, newest⟩ := ends_of_nil (same.trans empty)
    rw [oldest, newest, moved]
    simp [cursorsAt, empty]
  · obtain ⟨oldest, newest⟩ := ends_of_ne same empty
    rw [oldest, newest, moved]
    simpa [cursorsAt, empty] using h p

theorem followNext_writes (K : Kept P) {x : Settlement} (e : (followNext s).settlement = x)
    (h : P L { s with settlement := x }) : P L (followNext s) := by
  have frame : followNext s = { s with settlement := x, store := (followNext s).store } := by
    rw [← e]; unfold followNext; split <;> rfl
  rw [frame]
  refine K.store (s := { s with settlement := x }) (n := s.freeIndex) (fun sound => ?_) h
  show StoreSound (followNext s)
  refine (show StoreSound s → StoreSound (followNext s) from fun sound => ?_) sound
  unfold followNext
  split
  · exact foldl_induct StoreSound _ _
      (fun t p _ (ht : StoreSound t) => (⟨errorsInOrder_filter _ ht.1, ht.2⟩ : StoreSound (setCursor p _ t))) _ sound
  · exact sound

/-- A new next record number that continues the open record, and is 1 while the clock is UNSET (R150, R160). -/
theorem setNextRecord_keeps (K : Kept P) {n : Nat}
    (continues : OneOpenRecord s ∧ ArchiveOrdered s →
      (∀ o, s.settlement.openRecord = some o → n = o.number + 1) ∧ (s.settlement.clock = none → n = 1))
    (h : P L s) : P L (setNextRecord n s) := by
  refine followNext_writes K (setNextRecord_settlement n s) ?_
  refine wrote_keeps K .nextRecord (K.settlement (x := { s.settlement with nextRecord := n, cursors := cursorsAt s n })
    rfl rfl rfl (fun sound => ?_) h)
  obtain ⟨next, unset⟩ := continues sound
  obtain ⟨⟨one, latch, _, _⟩, length, consec, running, newest, cursors⟩ := sound
  exact ⟨⟨one, latch, next, unset⟩, length, consec, running,
    fun o some ne => (newest o some ne).trans (ends_of_ne (s := s) (by rfl) ne).2.symm, cursorsAt_within (s := s) rfl rfl cursors⟩

/-- The open record takes the number after the newest of the ring, and the next record number follows it (R162). -/
theorem renumber_keeps (K : Kept P) (isOpen : s.settlement.openRecord.isSome = true) (h : P L s) :
    P L (setNextRecord (newestPlusOne s + 1) (onOpen 0 (fun o => { o with number := newestPlusOne s }) s)) := by
  obtain ⟨o, some⟩ := Option.isSome_iff_exists.1 isOpen
  have named : onOpen 0 (fun o => { o with number := newestPlusOne s }) s = wrote (.openRecord 0)
      { s with settlement := { s.settlement with openRecord := Option.some { o with number := newestPlusOne s } } } := by
    simp only [onOpen, some]
  refine followNext_writes K (setNextRecord_settlement _ _) ?_
  rw [named]
  refine wrote_keeps K .nextRecord (wrote_keeps K (.openRecord 0) (K.settlement (s := s) (x := { s.settlement with
    openRecord := Option.some { o with number := newestPlusOne s }, nextRecord := newestPlusOne s + 1
    cursors := cursorsAt s (newestPlusOne s + 1) }) rfl rfl (by simp [some]) (fun sound => ?_) h))
  obtain ⟨⟨one, latch, _, _⟩, length, consec, running, newest, cursors⟩ := sound
  have clocked : s.settlement.clock.isSome = true := by rw [← one, isOpen]
  refine ⟨⟨clocked.symm, latch, fun o' e => ?_, fun unset => ?_⟩, length, consec, running, fun o' e ne => ?_,
    cursorsAt_within (s := s) rfl rfl cursors⟩
  · cases e; rfl
  · exact absurd (unset ▸ clocked : (none : Option Nat).isSome = true) nofun
  · cases e; exact (ends_of_ne (s := s) (by rfl) ne).2.symm

/-! ## The proposal table and the schedule list -/

/-- A table with some of its entries left out is sound (R126). -/
theorem proposalsSound_sublist {l : List Proposal} (sub : l.Sublist s.contracts.proposals) (h : ProposalsSound s) :
    ProposalsSound { s with contracts := { s.contracts with proposals := l } } := by
  obtain ⟨length, numbers, items, each, next⟩ := h
  exact ⟨Nat.le_trans sub.length_le length, numbers.sublist (sub.map _), items.sublist (Lists.flatMap_sublist _ sub),
    fun e he => each e (sub.subset he), next⟩

theorem setProposalsFrom_keeps (K : Kept P) (k : Nat) {l : List Proposal}
    (keep : ProposalsSound s → ProposalsSound { s with contracts := { s.contracts with proposals := l } }) (h : P L s) :
    P L (setProposalsFrom k l s) :=
  wroteAll_keeps K _ (K.table rfl keep h)

theorem setProposals_keeps (K : Kept P) {l : List Proposal}
    (keep : ProposalsSound s → ProposalsSound { s with contracts := { s.contracts with proposals := l } }) (h : P L s) :
    P L (setProposals l s) :=
  setProposalsFrom_keeps K 0 keep h

theorem scheduleOrdered_sublist {l : List ScheduleEntry} (sub : l.Sublist s.exports.schedule) (h : ScheduleOrdered s) :
    ScheduleOrdered { s with exports := { s.exports with schedule := l } } := by
  obtain ⟨length, rising, unset⟩ := h
  exact ⟨Nat.le_trans sub.length_le length, rising.sublist sub,
    fun none => List.sublist_nil.1 (unset none ▸ sub)⟩

theorem setScheduleFrom_keeps (K : Kept P) (k : Nat) {l : List ScheduleEntry}
    (keep : ScheduleOrdered s → ScheduleOrdered { s with exports := { s.exports with schedule := l } }) (h : P L s) :
    P L (setScheduleFrom k l s) :=
  wroteAll_keeps K _ (K.schedule keep h)

theorem setNextProposal_keeps (K : Kept P) {n : Nat} (range : ProposalsSound s → 1 ≤ n ∧ n ≤ 65535) (h : P L s) :
    P L (setNextProposal n s) := by
  refine wrote_keeps K _ (K.table rfl (fun sound => ?_) h)
  have next := range sound
  obtain ⟨length, numbers, items, each, _⟩ := sound
  exact ⟨length, numbers, items, each, next⟩

theorem setLocked_keeps (K : Kept P) (b : Bool) (h : P L s) : P L (setLocked b s) :=
  wrote_keeps K _ (K.table rfl (fun sound => sound) h)

theorem setRevision_keeps (K : Kept P) (n : Nat) (h : P L s) : P L (setRevision n s) :=
  wrote_keeps K _ (K.table rfl (fun sound => sound) h)

theorem setIdentity_keeps (K : Kept P) (code : Nat) (name : List Byte) (h : P L s) : P L (setIdentity code name s) :=
  wrote_keeps K _ (K.table rfl (fun sound => sound) h)

/-! ## Counts of the integrity report -/

theorem countUp_le (n : Nat) : countUp 65535 n ≤ 65535 := by unfold countUp; split <;> omega

theorem countCorrected_keeps (K : Kept P) (h : P L s) : P L (countCorrected s) :=
  wrote_keeps K _ (K.store (n := s.freeIndex) (fun ⟨order, pos, _, rest⟩ => ⟨order, pos, countUp_le _, rest⟩) h)

theorem countUncorrectable_keeps (K : Kept P) (r : RegionIndex) (h : P L s) : P L (countUncorrectable r s) :=
  raiseNotice_keeps K _ _ _ (wroteAll_keeps K _
    (K.store (n := s.freeIndex) (fun ⟨order, pos, corr, _, sweeps⟩ => ⟨order, pos, corr, countUp_le _, sweeps⟩) h))

theorem zeroReportField_keeps (K : Kept P) (k : Fin 4) (h : P L s) : P L (zeroReportField k s) := by
  refine K.store (n := s.freeIndex) (fun ⟨order, pos, corr, unc, sweeps⟩ => ?_) h
  match k with
  | 0 => exact ⟨order, pos, Nat.zero_le _, unc, sweeps⟩
  | 1 => exact ⟨order, pos, corr, Nat.zero_le _, sweeps⟩
  | 2 => exact ⟨order, pos, corr, unc, sweeps⟩
  | 3 => exact ⟨order, pos, corr, unc, Nat.zero_le _⟩

theorem setMark_keeps (K : Kept P) (k : Fin 96) (b : Bool) (h : P L s) : P L (setMark k b s) :=
  wrote_keeps K _ (K.store (n := s.freeIndex) (fun sound => sound) h)

theorem clearMarks_keeps (K : Kept P) (h : P L s) : P L (clearMarks s) :=
  wrote_keeps K _ (K.store (n := s.freeIndex) (fun sound => sound) h)

/-! ## Totals -/

theorem setTotal_keeps (K : Kept P) {ch : Fin 16} {total remainder : Nat}
    (range : TotalsInRange s → total < Config.totalModulus ∧ remainder < unitsPerWh ch) (h : P L s) :
    P L (setTotal ch total remainder s) := by
  refine wrote_keeps K _ (K.metering (fun sound => ?_) h)
  obtain ⟨low, small⟩ := range sound
  obtain ⟨totals, remainders, archived⟩ := sound
  refine ⟨fun d => ?_, fun d => ?_, archived⟩
  · by_cases same : d = ch
    · subst same
      exact lt_of_eq_of_lt (Vector.getElem_set_self ..) low
    · exact lt_of_eq_of_lt (getElem_set_fin _ same _) (totals d)
  · dsimp only
    split
    next gas =>
      by_cases same : d.val = ch.val
      · obtain ⟨d, hd⟩ := d
        subst same
        exact lt_of_eq_of_lt (Vector.getElem_set_self ..) small
      · exact lt_of_eq_of_lt (Vector.getElem_set_ne _ _ (Ne.symm same)) (remainders d)
    next => exact remainders d

end Sys2Proof.Proofs.Upkeep
end

section
/-! The reactions of the owning blocks to damage (Table 9-2-1) and the checked reads. A reaction reads words itself, so it keeps
a condition where its reads keep it; the reads of a nested reaction have fewer levels left to them. -/

namespace Sys2Proof.Proofs.Upkeep

open Sys2Proof Sys2Proof.Machine

/-- The value of an item after a cold start is one of its range (Table 7-1-1). -/
theorem itemDefault_inRange : ∀ i : Item, itemInRange i (itemDefault i) = true
  | .consumer c k => by revert c k; decide
  | .source n k => by revert n k; decide
  | .holder k => by revert k; decide
  | .heatPoint n k => by revert n k; decide
  | .exportItem k => by revert k; decide
  | .rangeLow k => by revert k; decide
  | .rangeHigh k => by revert k; decide
  | .allocationPeriod | .heatPrice _ | .gasPrice _ | .bandEntry _ | .intervalLength | .freshness _
  | .mainPressureSubstitute | .mainTemperatureSubstitute | .lineSubstitute _ | .mixedSubstitute => rfl

/-- A check of words that keeps a condition. -/
abbrev ReadsKeep (P : List (Fin 8) → State → Prop) (rd : List Thing → State → State) : Prop :=
  ∀ {L : List (Fin 8)} {s : State} (ts : List Thing), P L s → P L (rd ts s)

section
variable {P : List (Fin 8) → State → Prop} {b : Shape} {rd : List Thing → State → State}
variable {L : List (Fin 8)} {s : State}

/-! ## What a reaction reads first -/

theorem firstIntact_keeps (rk : ReadsKeep P rd) (l : List ArchiveRecord) (h : P L s) :
    P L (firstIntact rd l s).1 ∧ ∀ r, (firstIntact rd l s).2 = some r → r ∈ l := by
  induction l generalizing s with
  | nil => exact ⟨h, nofun⟩
  | cons r rest ih =>
    have read := rk [.archive (placeOf r.number)] h
    unfold firstIntact
    dsimp only
    split
    · obtain ⟨kept, mem⟩ := ih read
      exact ⟨kept, fun x e => List.mem_cons_of_mem _ (mem x e)⟩
    · exact ⟨read, fun x e => by cases e; exact List.mem_cons_self ..⟩

/-- The newest intact record is a record of the ring. -/
theorem newestIntact_keeps (rk : ReadsKeep (Shaped P b) rd) (h : Shaped P b L s) :
    Shaped P b L (newestIntact rd s).1 ∧
      ∀ r, (newestIntact rd s).2 = some r → r ∈ (newestIntact rd s).1.settlement.archive := by
  obtain ⟨kept, mem⟩ := firstIntact_keeps rk s.settlement.archive.reverse h
  refine ⟨kept, fun r e => ?_⟩
  have same : (newestIntact rd s).1.settlement.archive = s.settlement.archive :=
    congrArg Shape.archive (kept.2.trans h.2.symm)
  rw [same]
  exact List.mem_reverse.1 (mem r e)

theorem intactBefore_keeps (rk : ReadsKeep P rd) (h : P L s) : P L (intactBefore rd s).1 := by
  have read := rk [.openRecord 0] h
  unfold intactBefore
  dsimp only
  split
  · exact read
  · exact rk _ read

theorem readForEmptyRing_keeps (rk : ReadsKeep P rd) (h : P L s) : P L (readForEmptyRing rd s) := by
  unfold readForEmptyRing
  split
  · exact rk _ h
  · exact h

theorem readBand_keeps (rk : ReadsKeep P rd) (h : P L s) : P L (readBand rd s) := rk _ (rk _ h)

/-! ## Totals, items, consumers -/

theorem unitsPerWh_pos (ch : Fin 16) : 0 < unitsPerWh ch := by
  unfold unitsPerWh
  split
  · decide
  · split <;> decide

theorem reseedTotal_keeps (K : Kept P) (rk : ReadsKeep (Shaped P b) rd) (ch : Fin 16) (h : Shaped P b L s) :
    Shaped P b L (reseedTotal rd ch s) := by
  obtain ⟨kept, mem⟩ := newestIntact_keeps rk h
  have S := K.shaped b
  unfold reseedTotal
  generalize newestIntact rd s = x at kept mem
  obtain ⟨t, r⟩ := x
  refine onOpen_keeps S _ (fun _ => rfl) (markEstimated_keeps S ch (setTotal_keeps S (fun range => ?_) kept))
  refine ⟨?_, unitsPerWh_pos ch⟩
  cases r with
  | none => exact Nat.zero_lt_succ _
  | some r => exact range.2.2 r (mem r rfl) ch

theorem defaultItem_keeps (K : Kept P) (rk : ReadsKeep P rd) (i : Item) (h : P L s) : P L (defaultItem rd i s) := by
  have replaced := markContractDamaged_keeps K
    (itemChanged_pays K i (rk (actionReads i) (setItem_owes K (fun _ => itemDefault_inRange i) h)))
  unfold defaultItem
  dsimp only
  split
  · exact trip_keeps K _ _ (setDamageMark_keeps K _ replaced)
  · exact replaced

theorem setNomination_owes (K : Kept P) (c : Fin 8) (n : Nat) (h : P L s) : P (c :: L) (setNomination c n s) :=
  wrote_keeps K _ (K.nomination h)

theorem damageConsumer_keeps (K : Kept P) (rk : ReadsKeep P rd) (c : Fin 8) (h : P L s) : P L (damageConsumer rd c s) :=
  cutGrant_pays K c (trip_keeps K c _ (rk _ (setDamageMark_keeps K c (setNomination_owes K c 0 h))))

/-! ## The Contract Unit and the Export Account Unit -/

theorem dropDamagedProposal_keeps (K : Kept P) (rk : ReadsKeep P rd) (k : Fin 8) (h : P L s) :
    P L (dropDamagedProposal rd k s) := by
  have read := rk (placesAbove .proposal k s.contracts.proposals.length) h
  unfold dropDamagedProposal
  dsimp only
  split
  · exact read
  · exact raiseNotice_keeps K _ _ _
      (setProposalsFrom_keeps K k (proposalsSound_sublist (List.eraseIdx_sublist ..)) (useFree_keeps K read))

theorem dropDamagedSchedule_keeps (K : Kept P) (rk : ReadsKeep P rd) (k : Fin 8) (h : P L s) :
    P L (dropDamagedSchedule rd k s) :=
  setScheduleFrom_keeps K k (scheduleOrdered_sublist (List.eraseIdx_sublist ..)) (rk _ h)

theorem setLatch_keeps (K : Kept P) (l : Latch) (latched : s.exports.latch.isSome = true) (h : P L s) :
    P L (setLatch (some l) s) :=
  wrote_keeps K _ (K.latch latched h)

theorem defaultLatch_keeps (K : Kept P) (rk : ReadsKeep (Shaped P b) rd) (h : Shaped P b L s) :
    Shaped P b L (defaultLatch rd s) := by
  unfold defaultLatch
  split
  next => exact h
  next l some =>
    have read := rk [.contract (.exportItem xDefaultExport)] h
    have latched := congrArg Shape.latched (read.2.trans h.2.symm)
    exact cutLinked_keeps (K.shaped b) (rk _ (setLatch_keeps (K.shaped b) _ (latched.trans (by simp [shape, some])) read))

theorem repairRevision_keeps (K : Kept P) (rk : ReadsKeep (Shaped P b) rd) (h : Shaped P b L s) :
    Shaped P b L (repairRevision rd s) :=
  markContractDamaged_keeps (K.shaped b) (setRevision_keeps (K.shaped b) _ (newestIntact_keeps rk h).1)

theorem repairNextProposal_keeps (K : Kept P) (rk : ReadsKeep P rd) (h : P L s) : P L (repairNextProposal rd s) :=
  setNextProposal_keeps K (fun _ => by omega) (rk _ h)

/-! ## The Settlement Unit -/

theorem setHeatAccount_keeps (K : Kept P) (a : Account) (h : P L s) : P L (setHeatAccount a s) :=
  wrote_keeps K _ (K.settlement rfl rfl rfl (fun sound => sound) h)

theorem setGasAccount_keeps (K : Kept P) (a : Account) (h : P L s) : P L (setGasAccount a s) :=
  wrote_keeps K _ (K.settlement rfl rfl rfl (fun sound => sound) h)

theorem reseedAccount_keeps (K : Kept P) (rk : ReadsKeep (Shaped P b) rd) (heat : Bool) (h : Shaped P b L s) :
    Shaped P b L (reseedAccount rd heat s) := by
  have kept := (newestIntact_keeps rk h).1
  unfold reseedAccount
  dsimp only
  split <;> split
  · exact setHeatAccount_keeps (K.shaped b) _ kept
  · exact setGasAccount_keeps (K.shaped b) _ kept
  · exact setHeatAccount_keeps (K.shaped b) _ kept
  · exact setGasAccount_keeps (K.shaped b) _ kept

theorem openNumber_eq {o : OpenRecord} (h : s.settlement.openRecord = some o) : openNumber s = o.number := by
  simp [openNumber, h]

/-- A record is open while the clock runs, so an open one excludes an UNSET clock (R149). -/
theorem clock_ne_none (one : OneOpenRecord s) (isOpen : s.settlement.openRecord.isSome = true) : s.settlement.clock ≠ none :=
  fun unset => by rw [one.1, unset] at isOpen; cases isOpen

theorem repairNextRecord_keeps (K : Kept P) (rk : ReadsKeep (Shaped P b) rd) (h : Shaped P b L s) :
    Shaped P b L (repairNextRecord rd s) := by
  unfold repairNextRecord
  split
  next o isOpen =>
    have read := rk [.openRecord 0] h
    have still : (rd [.openRecord 0] s).settlement.openRecord.isSome = true :=
      (congrArg Shape.isOpen (read.2.trans h.2.symm)).trans (by simp [shape, isOpen])
    exact setNextRecord_keeps (K.shaped b) (fun ⟨one, _⟩ =>
      ⟨fun o' e => by rw [openNumber_eq e], fun unset => absurd unset (clock_ne_none one still)⟩) read
  next closed =>
    refine setNextRecord_keeps (K.shaped b) (fun ⟨_, _, _, running, _⟩ => ⟨fun o e => ?_, fun unset => ?_⟩) h
    · rw [closed] at e; cases e
    · have empty : s.settlement.archive = [] := by
        refine Classical.byContradiction fun ne => ?_
        have := running ne
        simp [unset] at this
      simp [empty]

theorem repairCursor_keeps (K : Kept P) (rk : ReadsKeep P rd) (p : Party) (h : P L s) : P L (repairCursor rd p s) :=
  setGap_keeps K p true (setCursor_keeps K oldest_within (readForEmptyRing_keeps rk h))

/-! ## The open record (R162) -/

theorem dite_satisfies {α : Type} {p : α → Prop} {c : Prop} [Decidable c] {t : c → α} {e : ¬ c → α} (ht : ∀ h, p (t h))
    (he : ∀ h, p (e h)) : p (dite c t e) := by
  split
  · exact ht _
  · exact he _

theorem repairNumber_keeps (K : Kept P) (rk : ReadsKeep (Shaped P b) rd) (isOpen : s.settlement.openRecord.isSome = true)
    (h : Shaped P b L s) : Shaped P b L (repairNumber rd s) := by
  have read := readForEmptyRing_keeps rk h
  exact renumber_keeps (K.shaped b) ((congrArg Shape.isOpen (read.2.trans h.2.symm)).trans isOpen) read

theorem repairStart_keeps (K : Kept P) (rk : ReadsKeep P rd) (h : P L s) : P L (repairStart rd s) := by
  have read := rk [.contract .intervalLength] (intactBefore_keeps rk h)
  unfold repairStart
  dsimp only
  split
  · exact onOpen_keeps K _ (fun _ => rfl) (onOpen_keeps K _ (fun _ => rfl) read)
  · exact onOpen_keeps K _ (fun _ => rfl) (onOpen_keeps K _ (fun _ => rfl) (onOpen_keeps K _ (fun _ => rfl) read))

theorem repairOpening_keeps (K : Kept P) (rk : ReadsKeep P rd) (ch : Fin 16) (h : P L s) : P L (repairOpening rd ch s) := by
  have read := intactBefore_keeps rk h
  unfold repairOpening
  dsimp only
  refine markEstimated_keeps K ch (onOpen_keeps K _ (fun _ => rfl) ?_)
  split
  · exact rk _ read
  · exact read

theorem repairOpen_keeps (K : Kept P) (rk : ReadsKeep (Shaped P b) rd) (k : Fin 49) (h : Shaped P b L s) :
    Shaped P b L (repairOpen rd k s) := by
  have S := K.shaped b
  have write : ∀ {L s} (j : Fin 49) {f : OpenRecord → OpenRecord}, (∀ o, (f o).number = o.number) → Shaped P b L s →
      Shaped P b L (onOpen j f s) := fun j _ number => onOpen_keeps S j number
  unfold repairOpen
  refine iteInduction (motive := Shaped P b L) (fun _ => h) fun isOpen => ?_
  refine iteInduction (fun _ => repairNumber_keeps K rk (by simpa [Option.isSome_iff_ne_none] using isOpen) h) fun _ => ?_
  refine iteInduction (fun _ => repairStart_keeps S rk h) fun _ => ?_
  refine iteInduction (fun _ => write 2 (fun _ => rfl) (rk _ h)) fun _ => ?_
  refine iteInduction (fun _ => write 3 (fun _ => rfl) (readBand_keeps rk h)) fun _ => ?_
  refine iteInduction (fun _ => write 4 (fun _ => rfl) (rk _ (readBand_keeps rk h))) fun _ => ?_
  refine iteInduction (fun _ => write 5 (fun _ => rfl) (rk _ (readBand_keeps rk h))) fun _ => ?_
  refine iteInduction (fun _ => write 6 (fun _ => rfl) (rk _ h)) fun _ => ?_
  refine dite_satisfies (fun _ => repairOpening_keeps S rk _ h) fun _ => ?_
  refine dite_satisfies (fun _ => markEstimated_keeps S _ h) fun _ => ?_
  refine dite_satisfies (fun _ => markEstimated_keeps S _ (write k (fun _ => rfl) h)) fun _ => ?_
  refine iteInduction (fun _ => write 41 (fun _ => rfl) (rk _ h)) fun _ => ?_
  refine iteInduction (fun _ => write 42 (fun _ => rfl) (rk _ (intactBefore_keeps rk h))) fun _ => ?_
  refine iteInduction (fun _ => write 43 (fun _ => rfl) h) fun _ => ?_
  refine iteInduction (fun _ => write 44 (fun _ => rfl) (rk _ h)) fun _ => ?_
  refine iteInduction (fun _ => markContractChanged_keeps S h) fun _ => ?_
  refine iteInduction (fun _ => markContractDamaged_keeps S h) fun _ => ?_
  exact iteInduction (fun _ => write 47 (fun _ => rfl) h) fun _ => write 48 (fun _ => rfl) h

/-! ## Every reaction, and the check of a word -/

theorem react_keeps (K : Kept P) (rk : ReadsKeep (Shaped P b) rd) (t : Thing) (h : Shaped P b L s) :
    Shaped P b L (react rd t s) := by
  have S := K.shaped b
  cases t with
  | totals ch => exact reseedTotal_keeps K rk ch h
  | contract i => exact defaultItem_keeps S rk i h
  | nomination c => exact damageConsumer_keeps S rk c h
  | damageMark c => exact damageConsumer_keeps S rk c h
  | proposal k => exact dropDamagedProposal_keeps S rk k h
  | commissioning => exact setLocked_keeps S true h
  | revision => exact repairRevision_keeps K rk h
  | nextProposal => exact repairNextProposal_keeps S rk h
  | identity => exact setIdentity_keeps S 0 [] h
  | schedule k => exact dropDamagedSchedule_keeps S rk k h
  | latch => exact defaultLatch_keeps K rk h
  | openRecord k => exact repairOpen_keeps K rk k h
  | heatAccount => exact reseedAccount_keeps K rk true h
  | gasAccount => exact reseedAccount_keeps K rk false h
  | cursor p => exact repairCursor_keeps S rk p h
  | gapMark p => exact setGap_keeps S p true h
  | nextRecord => exact repairNextRecord_keeps K rk h
  | signature k => exact S.store (n := s.freeIndex) (fun sound => sound) h
  | archive _ | report _ | marks => exact h

theorem meetDamage_keeps (K : Kept P) (rk : ReadsKeep (Shaped P b) rd) (w : Nat) (t : Option Thing) (h : Shaped P b L s) :
    Shaped P b L (meetDamage rd w t s) := by
  have S := K.shaped b
  have counted : ∀ {s : State} (r : RegionIndex), Shaped P b L s → Shaped P b L (countUncorrectable r (rd [.report 1] s)) :=
    fun r h => countUncorrectable_keeps S r (rk _ h)
  unfold meetDamage
  split
  · exact counted _ (useFree_keeps S (clearWord_keeps S w h))
  · exact counted _ (zeroReportField_keeps S _ (wrote_keeps S _ h))
  · exact counted _ (clearMarks_keeps S h)
  · dsimp only
    split
    · exact setMark_keeps S _ _ (counted _ h)
    · exact counted _ (useFree_keeps S (wrote_keeps S _ h))
  · exact react_keeps K rk _ (counted _ (wrote_keeps S _ h))

theorem meetError_keeps (K : Kept P) (rk : ReadsKeep (Shaped P b) rd) (w : Nat) (t : Option Thing) (h : Shaped P b L s) :
    Shaped P b L (meetError rd w t s) := by
  unfold meetError
  split
  · exact h
  · exact countCorrected_keeps (K.shaped b) (rk _ (clearWord_keeps (K.shaped b) w h))
  · exact meetDamage_keeps K rk w t h

theorem readThing_keeps {m : Nat → State → State} (mk : ∀ {s : State} (w : Nat), P L s → P L (m w s)) (t : Thing)
    (h : P L s) : P L (readThing m t s) := by
  unfold readThing
  refine foldl_induct (P L) _ _ (fun _ w _ => mk w) _ ?_
  split
  · exact foldl_induct (P L) _ _ (fun _ w _ => mk w) _ h
  · exact h

theorem readWith_keeps {m : Nat → State → State} (mk : ∀ {s : State} (w : Nat), P L s → P L (m w s)) (ts : List Thing)
    (h : P L s) : P L (readWith m ts s) :=
  foldl_induct (P L) _ _ (fun _ t _ => readThing_keeps mk t) _ h

theorem checkWord_keeps (K : Kept P) (n w : Nat) (h : Shaped P b L s) : Shaped P b L (checkWord n w s) := by
  induction n generalizing L s w with
  | zero => exact h
  | succ n ih =>
    have rk : ReadsKeep (Shaped P b) (readWith (checkWord n)) := fun ts => readWith_keeps (fun w => ih w) ts
    unfold checkWord
    split
    · dsimp only
      split
      · exact rk _ h
      · exact meetError_keeps K rk w _ (rk _ h)
    · exact meetError_keeps K rk w _ h

theorem readWord_shaped (K : Kept P) (w : Nat) (h : Shaped P b L s) : Shaped P b L (readWord w s) := checkWord_keeps K _ w h

theorem readAll_shaped (K : Kept P) (ts : List Thing) (h : Shaped P b L s) : Shaped P b L (readAll ts s) :=
  readWith_keeps (fun w => checkWord_keeps K _ w) ts h

theorem readAll_keeps (K : Kept P) (ts : List Thing) (h : P L s) : P L (readAll ts s) := (readAll_shaped K ts ⟨h, rfl⟩).1

/-! ## Allocation events and operations -/

theorem allocationEvent_keeps (K : Kept P) (h : P L s) : P L (allocationEvent s) :=
  runStages_keeps K (creditFlare_keeps K (readAll_keeps K _ h))

theorem takeTriggers_keeps (K : Kept P) (n : Nat) (h : P L s) : P L (takeTriggers n s) := by
  induction n generalizing s with
  | zero => exact h
  | succ n ih =>
    unfold takeTriggers
    split
    · exact h
    · exact ih (allocationEvent_keeps K (K.allocator (a := (takeTrigger s).allocator) rfl h))

theorem settle_keeps (K : Kept P) (h : P L s) : P L (settle s) := takeTriggers_keeps K _ h

theorem operation_keeps (K : Kept P) {body : State → State} (bk : ∀ {s}, P L s → P L (body s)) (reads : List Thing) (h : P L s) :
    P L (operation reads body s) :=
  settle_keeps K (bk (settle_keeps K (readAll_keeps K _ h)))

/-! ## Requests -/

theorem respond_keeps (K : Kept P) (p : Party) (code : Nat) (st : Status) (fields : List Field) (h : P L s) :
    P L (respond p code st fields s) := K.ports h

theorem serve_keeps (K : Kept P) {body : State → State} (bk : ∀ {s}, P L s → P L (body s)) (p : Party) (code : Nat)
    (reads : List Thing) (answer : State → State → Status × List Field) (h : P L s) :
    P L (serve p code reads body answer s) :=
  respond_keeps K _ _ _ _ (settle_keeps K (bk (settle_keeps K (readAll_keeps K _ h))))

theorem refuse_keeps (K : Kept P) (p : Party) (code : Nat) (st : Status) (h : P L s) : P L (refuse p code st s) := by
  unfold refuse
  dsimp only
  refine respond_keeps K _ _ _ _ ?_
  split
  · exact h
  · exact settle_keeps K (readAll_keeps K _ h)

theorem request_keeps (K : Kept P) {run : State → State} {f : Frame} {code length : Nat} {dec : Bool} {t : State}
    (e : request f code length dec run s = .next t) (bk : P L s → P L (run s)) (h : P L s) : P L t := by
  unfold request at e
  split at e
  · split at e
    · cases e; exact bk h
    · cases e; exact refuse_keeps K _ _ _ h
  · cases e; exact h

theorem judged_keeps {body : State → State} {status : State → Status}
    (bk : isRefusing (status s) = false → P L s → P L (body s)) (h : P L s) : P L (judged status body s) := by
  unfold judged
  split
  · exact h
  next done => exact bk (by simpa using done) h

theorem ownerRequest_keeps (K : Kept P) {body : State → State} (bk : ∀ {s}, P L s → P L (body s)) (f : Frame) (code : Nat)
    (c : Fin 8) (reads : List Thing) (answer : State → State → Status × List Field) (h : P L s) :
    P L (ownerRequest f code c reads body answer s) := by
  have read := settle_keeps K (readAll_keeps K [.contract (.consumer c cOwner)] h)
  unfold ownerRequest
  dsimp only
  split
  · exact serve_keeps K bk _ _ _ _ read
  · exact respond_keeps K _ _ _ _ read

end

end Sys2Proof.Proofs.Upkeep
end

section
/-! The operations of the blocks, each made of elementary changes: pulses and samples, the holder, a consumer's requests and
timers, the schedule and the contract, the archive, the links and the sweep. A settlement boundary is taken as it is. -/

namespace Sys2Proof.Proofs.Upkeep

open Sys2Proof Sys2Proof.Machine Sys2Proof.Proofs.Schedule Sys2Proof.Proofs.Notice

variable {P : List (Fin 8) → State → Prop} {L : List (Fin 8)} {s : State}

/-! ## Pulses (1-3, chapter 2) -/

theorem acceptedRecord_consistent {ch : Fin 16} (h : ChannelConsistent (channel s ch)) :
    ChannelConsistent (acceptedRecord s ch) := by
  obtain ⟨_, _, _, _, _, noise⟩ := h
  have limit (e tau : Nat) : rateOf ch e tau ≤ Config.maxRate := Nat.min_le_left ..
  unfold acceptedRecord
  split
  · exact ⟨rfl, rfl, rfl, fun _ => rfl, Nat.zero_le _, noise⟩
  · exact ⟨rfl, rfl, rfl, fun ne => absurd rfl ne, limit _ _, noise⟩

theorem accumulate_keeps (K : Kept P) (ch : Fin 16) (q : Nat) (h : P L s) : P L (accumulate ch q s) := by
  refine setTotal_keeps K (fun _ => ⟨Nat.mod_lt _ (by decide), Nat.mod_lt _ (unitsPerWh_pos ch)⟩) h

theorem countReverse_keeps (K : Kept P) (ch : Fin 16) (h : P L s) : P L (countReverse ch s) := by
  unfold countReverse
  split
  · split
    · exact onOpen_keeps K _ (fun _ => rfl) h
    · exact h
  · exact h

theorem meterPulse_keeps (K : Kept P) (ch : Fin 16) (h : P L s) : P L (meterPulse ch s) := by
  have counted := accumulate_keeps K ch (pulseQuantity s ch) h
  refine countReverse_keeps K ch ?_
  unfold markInputs
  split
  · exact markEstimated_keeps K ch counted
  · exact counted

theorem acceptPulse_keeps (K : Kept P) (ch : Fin 16) (h : P L s) : P L (acceptPulse ch s) :=
  evaluateSome_keeps K _ (meterPulse_keeps K ch (setChannel_keeps K acceptedRecord_consistent h))

theorem rejectPulse_keeps (K : Kept P) (ch : Fin 16) (h : P L s) : P L (rejectPulse ch s) :=
  setChannel_keeps K (fun ⟨a, b, c, d, e, _⟩ => ⟨a, b, c, d, e, countUp_le _⟩) h

theorem takeZeroFlow_keeps (K : Kept P) (ch : Fin 16) (h : P L s) : P L (takeZeroFlow ch s) := by
  unfold takeZeroFlow
  split
  · exact expireFlow_keeps K ch h
  · exact h

/-! ## Samples and the band (1-5, chapter 3) -/

theorem setSample_keeps (K : Kept P) {k : Fin 22} {r : SampleRecord}
    (hr : SampleConsistent (sample s k) → SampleConsistent r) (h : P L s) : P L (setSample k r s) := by
  refine K.field (fun ⟨channels, samples⟩ => ⟨channels, fun j => ?_⟩) h
  by_cases same : j = k
  · subst same
    exact (congrArg SampleConsistent (Vector.getElem_set_self ..)).mpr (hr (samples j))
  · exact (congrArg SampleConsistent (getElem_set_fin _ same _)).mpr (samples j)

theorem changeBand_keeps (K : Kept P) (new : Band) (h : P L s) : P L (changeBand new s) := by
  have moved := K.band (b := new) h
  unfold changeBand
  dsimp only
  refine trigger_keeps K (raiseNotice_keeps K _ _ _ ?_)
  split
  · exact K.flare (creditFlare_keeps K moved)
  · exact moved

theorem evaluateBand_keeps (K : Kept P) (level : Int) (h : P L s) : P L (evaluateBand level s) := by
  unfold evaluateBand
  dsimp only
  split
  · exact h
  · exact changeBand_keeps K _ h

theorem takeValid_keeps (K : Kept P) (k : Fin 22) (st : SampleStatus) (v : Int) (h : P L s) : P L (takeValid k st v s) := by
  have stored := setSample_keeps K (k := k) (r := validRecord s k st v) (fun _ => ⟨rfl, rfl, nofun⟩) h
  have told : P L (if (sample s k).state = .valid then setSample k (validRecord s k st v) s
      else noticeField k .valid (setSample k (validRecord s k st v) s)) := by
    split
    · exact stored
    · exact raiseNotice_keeps K _ _ _ stored
  unfold takeValid
  dsimp only
  refine evaluateSome_keeps K _ ?_
  generalize (if (sample s k).state = .valid then _ else _ : State) = t at told ⊢
  split
  · exact evaluateBand_keeps K v told
  · exact told

theorem holdSample_keeps (K : Kept P) (k : Fin 22) (h : P L s) : P L (holdSample k s) := by
  unfold holdSample
  split
  next valid =>
    refine evaluateSome_keeps K _ (raiseNotice_keeps K _ _ _ (setSample_keeps K (fun ⟨last, _, _⟩ => ?_) h))
    exact ⟨by rw [last, valid]; rfl, rfl, nofun⟩
  next => exact h

/-! ## A consumer's requests (5-4) -/

/-- A consumer that is not TRIPPED may begin a purge, with a reservation status where its target is ACTIVE (R82). -/
theorem placed_purging {c : Fin 8} {target : PurgeTarget} {status : Reservation}
    (goes : (status != .none) = (target == .active)) (alive : (consumer s c).state ≠ .tripped)
    (h : RecordConsistent (consumer s c)) : Placed (purging s c target status) := by
  obtain ⟨_, _, _, _, _, causes, recovery, count⟩ := h
  have quiet : ((consumer s c).causes != noCauses) = false := by rw [causes]; simpa using alive
  refine ⟨rfl, rfl, ?_, quiet, fun _ => recovery alive, count⟩
  cases target <;> simpa [purging] using goes

/-- A consumer that was not PURGING toward ACTIVE held no reservation. -/
theorem not_candidate {c : Fin 8} (out : (consumer s c).state ≠ .purging) : ¬ isCandidate s c = true := by
  simp [isCandidate, out]

theorem startBody_keeps (K : Kept P) (c : Fin 8) (off : (consumer s c).state = .off) (h : P L s) : P L (startBody c s) :=
  trigger_keeps K (K.move rfl (fun consistent =>
    ⟨placed_purging rfl (by simp [off]) consistent, fun _ active => by simp [off] at active, fun out => absurd ⟨rfl, rfl⟩ out⟩) h)

theorem fuelGasBody_keeps (K : Kept P) (c : Fin 8) (backup : (consumer s c).state = .backup) (h : P L s) :
    P L (fuelGasBody c s) :=
  trigger_keeps K (K.move rfl (fun consistent =>
    ⟨placed_purging rfl (by simp [backup]) consistent, fun _ active => by simp [backup] at active,
      fun out => absurd ⟨rfl, rfl⟩ out⟩) h)

theorem releaseGrant_zero (c : Fin 8) (s : State) : grant (releaseGrant c s) c = 0 := by
  have := grant_lowerGrant c 0 s
  simpa [releaseGrant] using this

theorem consumer_releaseGrant (c d : Fin 8) (s : State) : consumer (releaseGrant c s) d = consumer s d :=
  consumer_eq (releaseGrant_supervisor s c) d

/-- An ACTIVE consumer whose grant has been released may take any record that it may be placed in (R67). -/
theorem leaveActive_keeps (K : Kept P) {c : Fin 8} {r : Consumer} (active : (consumer s c).state = .active)
    (nomination : r.nomination = (consumer s c).nomination) (placed : RecordConsistent (consumer s c) → Placed r) (h : P L s) :
    P L (evaluate c (putConsumer c r (releaseGrant c s))) := by
  have same := consumer_releaseGrant c c s
  refine K.move (by rw [same, nomination]) (fun consistent => ⟨placed (same ▸ consistent), fun _ _ => releaseGrant_zero c s,
    fun _ candidate => absurd candidate (not_candidate ?_)⟩) (lowerGrant_keeps K c 0 h)
  rw [same, active]
  nofun

theorem fuelBackupBody_keeps (K : Kept P) (c : Fin 8) (active : (consumer s c).state = .active) (h : P L s) :
    P L (fuelBackupBody c s) :=
  trigger_keeps K (leaveActive_keeps K active rfl (fun consistent => placed_purging rfl (by simp [active]) consistent) h)

/-- STOP leaves a consumer in OFF with nothing of its state before (R78). -/
theorem placed_stopped {c : Fin 8} (h : RecordConsistent (consumer s c)) : Placed (stoppedRecord s c) := by
  obtain ⟨_, _, _, _, _, _, _, count⟩ := h
  exact ⟨rfl, rfl, rfl, rfl, fun _ => rfl, count⟩

theorem stopBody_keeps (K : Kept P) (c : Fin 8) (h : P L s) : P L (stopBody c s) := by
  have quiet : ∀ {st : ConsumerState}, (consumer s c).state = st → st ≠ .active → st ≠ .purging →
      P L (evaluate c (putConsumer c (stoppedRecord s c) s)) := fun {_} at_ out notPurging =>
    K.move rfl (fun consistent => ⟨placed_stopped consistent, fun _ active => absurd (at_.symm.trans active) out,
      fun _ candidate => absurd candidate (not_candidate (at_ ▸ notPurging))⟩) h
  unfold stopBody
  split
  next => exact h
  next at_ =>
    refine K.tend rfl rfl (fun ⟨target, purge, _, act, pass, causes, recovery, count⟩ => ?_) (K.release h)
    have now : (consumer s c).state = .purging := at_
    refine ⟨⟨?_, purge, rfl, act, pass, causes, recovery, count⟩, fun _ active => ?_, fun _ _ => ?_⟩
    · exact (beq_iff_eq.2 now).symm
    · exact absurd (now.symm.trans active) nofun
    · simp [reservation, releaseReservation, setResult]
  next at_ =>
    exact trigger_keeps K (leaveActive_keeps K at_ rfl placed_stopped h)
  next at_ => exact quiet at_ nofun nofun
  next at_ => exact quiet at_ nofun nofun
  next at_ => exact quiet at_ nofun nofun

theorem nominateBody_keeps (K : Kept P) (c : Fin 8) (rate : Nat) (h : P L s) : P L (nominateBody c rate s) :=
  cutGrant_pays K c (setNomination_owes K c _ h)

theorem clearBody_keeps (K : Kept P) (c : Fin 8) (tripped : (consumer s c).state = .tripped) (h : P L s) :
    P L (clearBody c s) :=
  K.move rfl (fun ⟨_, _, _, _, _, _, _, count⟩ => ⟨⟨rfl, rfl, rfl, rfl, fun _ => rfl, count⟩,
    fun _ active => absurd (tripped.symm.trans active) nofun,
    fun _ candidate => absurd candidate (not_candidate (by simp [tripped]))⟩) h

/-! ## A consumer's timers (5-5 to 5-7) -/

theorem consumerDue_isSome {t : Option Timer} (due : consumerDue s t = true) : t.isSome = true := by
  cases t with
  | none => simp [consumerDue] at due
  | some t => rfl

/-- The purge timer runs in PURGING alone (Table 5-1-2). -/
theorem purging_of_due {c : Fin 8} (due : consumerDue s (consumer s c).purgeTimer = true)
    (h : RecordConsistent (consumer s c)) : (consumer s c).state = .purging := by
  have := h.2.1
  rw [consumerDue_isSome due] at this
  exact beq_iff_eq.1 this.symm

/-- A purge that ends lets its consumer into a state that is neither PURGING nor TRIPPED (R84). -/
theorem enter_keeps (K : Kept P) {t : State} (c : Fin 8) (st : ConsumerState) (out : st ≠ .purging ∧ st ≠ .tripped)
    (purging : RecordConsistent (consumer t c) → (consumer t c).state = .purging)
    (released : RecordConsistent (consumer t c) → isCandidate t c = true → reservation t c = 0) (h : P L t) :
    P L (enter c st t) := by
  refine K.move rfl (fun consistent => ?_) h
  have was := purging consistent
  have candidate := released consistent
  obtain ⟨_, _, _, _, _, causes, recovery, count⟩ := consistent
  have alive : (consumer t c).state ≠ .tripped := by simp [was]
  have quiet : ((consumer t c).causes != noCauses) = false := by rw [causes]; simpa using alive
  refine ⟨⟨?_, ?_, rfl, quiet.trans ?_, fun _ => recovery alive, count⟩, fun _ active => absurd (was.symm.trans active) nofun,
    fun _ => candidate⟩
  · exact (beq_eq_false_iff_ne.2 out.1).symm
  · exact (beq_eq_false_iff_ne.2 out.1).symm
  · exact (beq_eq_false_iff_ne.2 out.2).symm

theorem enterTarget_keeps (K : Kept P) (c : Fin 8) (due : consumerDue s (consumer s c).purgeTimer = true) (h : P L s) :
    P L (enterTarget c s) := by
  have purging := purging_of_due due
  have elsewhere : ∀ st, st ≠ .purging ∧ st ≠ .tripped → (consumer s c).target ≠ some .active → P L (enter c st s) :=
    fun st out target => enter_keeps K c st out purging (fun _ candidate => by simp [isCandidate, target] at candidate) h
  unfold enterTarget
  split
  next => exact trigger_keeps K (enter_keeps K c .active ⟨nofun, nofun⟩ purging
    (fun _ _ => by simp [reservation, releaseReservation, setResult]) (K.release h))
  next target => exact elsewhere .backup ⟨nofun, nofun⟩ (by simp [target])
  next target => exact elsewhere .shed ⟨nofun, nofun⟩ (by simp [target])
  next target => exact elsewhere .off ⟨nofun, nofun⟩ (by simp [target])
  next target => exact elsewhere .off ⟨nofun, nofun⟩ (by simp [target])

theorem purgeBody_keeps (K : Kept P) (c : Fin 8) (h : P L s) : P L (purgeBody c s) := by
  unfold purgeBody
  split
  next due =>
    split
    · exact enterTarget_keeps K c due h
    · exact trip_keeps K c _ h
  next => exact h

theorem overdrawBody_keeps (K : Kept P) (c : Fin 8) (h : P L s) : P L (overdrawBody c s) := by
  unfold overdrawBody
  split
  · split
    · exact trip_keeps K c _ h
    · exact K.tend rfl rfl (fun ⟨a, b, d, e, f, g⟩ =>
        ⟨⟨a, b, d, fun out => ⟨rfl, (e out).2⟩, f, g⟩, releases_same rfl rfl⟩) h
  · exact h

theorem lineLowBody_keeps (K : Kept P) (c : Fin 8) (h : P L s) : P L (lineLowBody c s) := by
  unfold lineLowBody
  split
  · split
    · exact trip_keeps K c _ h
    · exact K.tend rfl rfl (fun ⟨a, b, d, e, f, g⟩ =>
        ⟨⟨a, b, d, fun out => ⟨(e out).1, rfl, (e out).2.2⟩, f, g⟩, releases_same rfl rfl⟩) h
  · exact h

theorem passingBody_keeps (K : Kept P) (c : Fin 8) (h : P L s) : P L (passingBody c s) := by
  unfold passingBody
  split
  · split
    · exact trip_keeps K c _ h
    · exact K.tend rfl rfl (fun ⟨a, b, d, e, _, g⟩ => ⟨⟨a, b, d, e, fun _ => rfl, g⟩, releases_same rfl rfl⟩) h
  · exact h

theorem lowDrawBody_keeps (K : Kept P) (c : Fin 8) (h : P L s) : P L (lowDrawBody c s) := by
  unfold lowDrawBody
  split
  · split
    next holds =>
      have active : (consumer s c).state = .active := beq_iff_eq.1 (Bool.and_eq_true_iff.1 holds).1
      exact raiseNotice_keeps K _ _ _ (K.tend rfl rfl (fun ⟨a, b, d, _, f, g⟩ =>
        ⟨⟨a, b, d, fun out => absurd active out, f, g⟩, releases_same rfl rfl⟩) h)
    next => exact K.tend rfl rfl (fun ⟨a, b, d, e, f, g⟩ =>
        ⟨⟨a, b, d, fun out => ⟨(e out).1, (e out).2.1, rfl⟩, f, g⟩, releases_same rfl rfl⟩) h
  · exact h

theorem recoveryBody_keeps (K : Kept P) (c : Fin 8) (h : P L s) : P L (recoveryBody c s) := by
  unfold recoveryBody
  split
  · split
    next applies =>
      simp only [recoveryApplies, Bool.and_eq_true, beq_iff_eq, decide_eq_true_eq] at applies
      obtain ⟨⟨tripped, _⟩, below⟩ := applies
      split
      · exact trigger_keeps K (K.move rfl (fun _ => ⟨⟨rfl, rfl, rfl, rfl, fun _ => rfl, below⟩,
          fun _ active => absurd (tripped.symm.trans active) nofun, fun out => absurd ⟨rfl, rfl⟩ out⟩) h)
      · exact K.tend rfl rfl (fun ⟨a, b, d, e, f, g, _, i⟩ =>
          ⟨⟨a, b, d, e, f, g, fun out => absurd tripped out, i⟩, releases_same rfl rfl⟩) h
    next => exact K.tend rfl rfl (fun ⟨a, b, d, e, f, g, _, i⟩ =>
        ⟨⟨a, b, d, e, f, g, fun _ => rfl, i⟩, releases_same rfl rfl⟩) h
  · exact h

/-! ## The schedule (6-3) -/

/-- A SCHEDULE that passes its checks finds the clock RUNNING, and its entry listed or a place free (R104). -/
theorem scheduleStatus_passes {start kw : Nat} (done : isRefusing (scheduleStatus start kw s) = false) :
    s.settlement.clock ≠ none ∧ (isListed s start = true ∨ s.exports.schedule.length < 8) := by
  unfold scheduleStatus at done
  split at done
  · cases done
  next unset =>
    iterate 4 (split at done; · cases done)
    split at done
    next fits => exact ⟨unset, by simpa using fits⟩
    next => cases done

theorem scheduleBody_keeps (K : Kept P) {start kw : Nat} (done : isRefusing (scheduleStatus start kw s) = false) (h : P L s) :
    P L (scheduleBody start kw s) := by
  obtain ⟨running, fits⟩ := scheduleStatus_passes done
  refine setScheduleFrom_keeps K 0 (fun ⟨length, rising, _⟩ =>
    ⟨?_, insertEntry_rising rising, fun unset => absurd unset running⟩) h
  show (insertEntry _ _).length ≤ 8
  rw [length_insertEntry rising]
  split
  · exact length
  next new => exact fits.resolve_left new

end Sys2Proof.Proofs.Upkeep
end

section
/-! The requests of the Contract Unit, the archive's readers, the links, the sweep and the passing of time. -/

namespace Sys2Proof.Proofs.Upkeep

open Sys2Proof Sys2Proof.Machine Sys2Proof.Proofs.Notice

variable {P : List (Fin 8) → State → Prop} {L : List (Fin 8)} {s : State}

/-! ## Proposal numbers (R126) -/

theorem nextNumber_range {n : Nat} (h : 1 ≤ n ∧ n ≤ 65535) : 1 ≤ nextNumber n ∧ nextNumber n ≤ 65535 := by
  unfold nextNumber; split <;> omega

/-- The proposal number so many places on from `n`. -/
def numberFrom (n : Nat) : Nat → Nat
  | 0 => n
  | j + 1 => nextNumber (numberFrom n j)

theorem numberFrom_next (n j : Nat) : numberFrom (nextNumber n) j = numberFrom n (j + 1) := by
  induction j with
  | zero => rfl
  | succ j ih => exact congrArg nextNumber ih

theorem numberFrom_succ (n j : Nat) : numberFrom n (j + 1) = ((if n < 65535 then n else 0) + j) % 65535 + 1 := by
  induction j with
  | zero =>
    show nextNumber n = _
    unfold nextNumber
    split <;> omega
  | succ j ih =>
    rw [numberFrom, ih]
    unfold nextNumber
    split <;> split <;> omega

/-- The first nine numbers from any on are different. -/
theorem numberFrom_inj {n i j : Nat} (hi : i ≤ 8) (hj : j ≤ 8) (e : numberFrom n i = numberFrom n j) : i = j := by
  cases i with
  | zero =>
    cases j with
    | zero => rfl
    | succ j =>
      rw [numberFrom_succ] at e
      change n = _ at e
      split at e <;> omega
  | succ i =>
    cases j with
    | zero =>
      rw [numberFrom_succ] at e
      change _ = n at e
      split at e <;> omega
    | succ j =>
      rw [numberFrom_succ, numberFrom_succ] at e
      split at e <;> omega

theorem freeNumber_range (l : List Nat) (k : Nat) {n : Nat} (h : 1 ≤ n ∧ n ≤ 65535) :
    1 ≤ freeNumber l k n ∧ freeNumber l k n ≤ 65535 := by
  induction k generalizing n with
  | zero => exact h
  | succ k ih =>
    unfold freeNumber
    split
    · exact ih (nextNumber_range h)
    · exact h

/-- Where the number found is carried, so is every one that was passed over. -/
theorem passed_over (l : List Nat) (k : Nat) {n : Nat} (carried : freeNumber l k n ∈ l) (j : Nat) (le : j ≤ k) :
    numberFrom n j ∈ l := by
  induction k generalizing n j with
  | zero => obtain rfl : j = 0 := by omega
            exact carried
  | succ k ih =>
    unfold freeNumber at carried
    split at carried
    next used =>
      cases j with
      | zero => exact List.contains_iff_mem.1 used
      | succ j => exact numberFrom_next n j ▸ ih carried j (by omega)
    next free => simp [carried] at free

/-- A table too short to carry every number passed over leaves the number found free (R126). -/
theorem freeNumber_free {l : List Nat} (short : l.length ≤ 8) (n : Nat) : freeNumber l l.length n ∉ l := by
  intro carried
  let passed := (List.range (l.length + 1)).map fun j => numberFrom n j
  have distinct : passed.Nodup := by
    refine Lists.nodup_map_of_inj (fun i hi j hj e => ?_) List.nodup_range
    rw [List.mem_range] at hi hj
    exact numberFrom_inj (by omega) (by omega) e
  have sub : ∀ x ∈ passed, x ∈ l := fun x hx => by
    obtain ⟨j, hj, rfl⟩ := List.mem_map.1 hx
    exact passed_over l _ carried j (by rw [List.mem_range] at hj; omega)
  have longer : passed.length = l.length + 1 := by rw [List.length_map, List.length_range]
  have fits := Lists.length_le_of_nodup_subset distinct sub
  omega

theorem numberToGive_range (h : ProposalsSound s) : 1 ≤ numberToGive s ∧ numberToGive s ≤ 65535 :=
  freeNumber_range _ _ h.2.2.2.2

theorem numberToGive_free (short : s.contracts.proposals.length ≤ 8) :
    numberToGive s ∉ s.contracts.proposals.map (·.number) := by
  have free := freeNumber_free (l := s.contracts.proposals.map (·.number)) (by simpa using short) s.contracts.nextProposal
  rwa [List.length_map] at free

/-! ## Changes of the proposal table -/

/-- An entry changed in its concurrence or its staging keeps the table sound (R128). -/
theorem proposalsSound_map {f : Proposal → Proposal} (number : ∀ e, (f e).number = e.number) (items : ∀ e, (f e).items = e.items)
    (expiry : ∀ e, e.expiry.isNone = e.staged → (f e).expiry.isNone = (f e).staged) (h : ProposalsSound s) :
    ProposalsSound { s with contracts := { s.contracts with proposals := s.contracts.proposals.map f } } := by
  obtain ⟨length, numbers, itemsOnce, each, next⟩ := h
  refine ⟨by simpa using length, ?_, ?_, fun x hx => ?_, next⟩
  · simpa [Function.comp_def, number] using numbers
  · simpa [List.flatMap_map, items] using itemsOnce
  · obtain ⟨e, he, rfl⟩ := List.mem_map.1 hx
    obtain ⟨staged, range, values⟩ := each e he
    rw [number, items]
    exact ⟨expiry e staged, range, values⟩

theorem changeEntry_keeps (K : Kept P) (n : Nat) {f : Proposal → Proposal} (number : ∀ e, (f e).number = e.number)
    (items : ∀ e, (f e).items = e.items) (expiry : ∀ e, e.expiry.isNone = e.staged → (f e).expiry.isNone = (f e).staged)
    (h : P L s) : P L (changeEntry n f s) := by
  refine setProposals_keeps K (proposalsSound_map (fun e => ?_) (fun e => ?_) (fun e staged => ?_)) h
  · split
    · exact number e
    · rfl
  · split
    · exact items e
    · rfl
  · split
    · exact expiry e staged
    · exact staged

theorem removeEntry_keeps (K : Kept P) (n : Nat) (h : P L s) : P L (removeEntry n s) :=
  setProposals_keeps K (proposalsSound_sublist List.filter_sublist) h

theorem endEntry_keeps (K : Kept P) (e : Proposal) (o : Outcome) (h : P L s) : P L (endEntry e o s) :=
  raiseNotice_keeps K _ _ _ (removeEntry_keeps K _ h)

theorem dropEntry_keeps (K : Kept P) (n : Nat) (o : Outcome) (h : P L s) : P L (dropEntry n o s) := by
  unfold dropEntry
  split
  · exact h
  · exact endEntry_keeps K _ _ h

theorem takeExpiry_keeps (K : Kept P) (n : Nat) (h : P L s) : P L (takeExpiry n s) := by
  unfold takeExpiry
  split
  · exact dropEntry_keeps K n _ h
  · exact h

/-- The first opening is for an UNSET clock, every other boundary for a RUNNING one (Table 8-2-1). -/
abbrev BoundaryFits : Boundary → State → Prop
  | .first _, s => s.settlement.clock = none
  | _, s => s.settlement.clock ≠ none

/-- A condition that a settlement boundary keeps. -/
abbrev BoundaryKeeps (P : List (Fin 8) → State → Prop) : Prop :=
  ∀ ⦃L : List (Fin 8)⦄ ⦃s : State⦄ ⦃k : Boundary⦄, BoundaryFits k s → P L s → P L (boundary k s)

theorem lockContract_keeps (K : Kept P) (e : Proposal) (h : P L s) : P L (lockContract e s) :=
  markContractChanged_keeps K (endEntry_keeps K e _ (bumpRevision_keeps K (setLocked_keeps K true h)))

theorem completeStep_keeps (K : Kept P) (B : BoundaryKeeps P) (e : Proposal) (d : Int) (h : P L s) :
    P L (completeStep e d s) := by
  unfold completeStep
  split
  · exact endEntry_keeps K e _ h
  next taken =>
    have running : s.settlement.clock ≠ none := fun unset => taken (.inl unset)
    exact B (k := .step _) (by simpa using running) (endEntry_keeps K e _ h)

theorem completeEntry_keeps (K : Kept P) (B : BoundaryKeeps P) (e : Proposal) (h : P L s) : P L (completeEntry e s) := by
  unfold completeEntry
  split
  · exact lockContract_keeps K e h
  · exact completeStep_keeps K B e _ h
  · exact raiseNotice_keeps K _ _ _ (changeEntry_keeps K _ (fun _ => rfl) (fun _ => rfl) (fun _ _ => rfl) h)

/-! ## WRITE and WRITE IDENTITY (7-2) -/

theorem writeBody_keeps (K : Kept P) {r : ItemRef} {v : Int} (done : isRefusing (writeStatus r v s) = false) (h : P L s) :
    P L (writeBody r v s) := by
  unfold writeBody
  split
  next i =>
    have range : itemInRange i v = true := by
      simp only [writeStatus, writeItemStatus] at done
      iterate 2 (split at done; · cases done)
      split at done
      · cases done
      next inside => simpa using inside
    exact markContractChanged_keeps K (bumpRevision_keeps K (clearDamageMarks_keeps K _
      (putInForce_keeps K _ (fun _ ch hc => by rw [List.mem_singleton.1 hc]; exact range) h)))
  next => exact h
  next => exact h

/-! ## PROPOSE and CONCUR (7-3) -/

theorem mem_items_of_named {e : Proposal} {r : ItemRef} (listed : e ∈ s.contracts.proposals) (named : r ∈ e.items.map (·.1)) :
    (entryNaming s r).isSome = true := by
  obtain ⟨i, hi, rfl⟩ := List.mem_map.1 named
  exact List.find?_isSome.2 ⟨e, listed, List.any_eq_true.2 ⟨i, hi, beq_self_eq_true _⟩⟩

/-- What a PROPOSE that passes its checks has found of its list and of the table (R127). -/
theorem proposeStatus_passes {p : Party} {items : List (ItemRef × Int)} (done : isRefusing (proposeStatus p items s) = false) :
    (items.map (·.1)).Nodup ∧ (∀ e ∈ items, (entryNaming s e.1).isSome = false) ∧ s.contracts.proposals.length < 8 ∧
    ∀ e ∈ items, refInRange e.1 e.2 = true := by
  unfold proposeStatus at done
  split at done
  · cases done
  next list =>
    simp only [Bool.not_eq_true', Bool.not_eq_false, listAllowed, Bool.and_eq_true, decide_eq_true_eq] at list
    iterate 2 (split at done; · cases done)
    split at done
    · cases done
    next conflict =>
      split at done
      · cases done
      next full =>
        split at done
        · cases done
        next range =>
          refine ⟨list.1.2, fun e he => ?_, Nat.lt_of_not_le full, by simpa using range⟩
          refine Classical.byContradiction fun named => ?_
          exact conflict (List.any_eq_true.2 ⟨e, he, by simpa only [Bool.not_eq_false] using named⟩)

/-- The table with an entry opened on unnamed items under a free number is sound (R126, R127). -/
theorem proposalsSound_opened {p : Party} {items : List (ItemRef × Int)} (done : isRefusing (proposeStatus p items s) = false)
    (h : ProposalsSound s) :
    ProposalsSound { s with contracts := { s.contracts with proposals := s.contracts.proposals ++ [newEntry p items s] } } := by
  obtain ⟨distinct, unnamed, room, range⟩ := proposeStatus_passes done
  have free := numberToGive_free h.1
  have given := numberToGive_range h
  obtain ⟨length, numbers, itemsOnce, each, next⟩ := h
  refine ⟨by rw [List.length_append]; exact room, ?_, ?_, fun e he => ?_, next⟩
  · rw [List.map_append, List.nodup_append]
    refine ⟨numbers, Lists.nodup_one _, fun a ha b hb => ?_⟩
    rw [List.map_singleton, List.mem_singleton] at hb
    rintro rfl
    exact free (by rwa [hb] at ha)
  · rw [List.flatMap_append, List.nodup_append]
    refine ⟨itemsOnce, by simpa [newEntry] using distinct, fun a ha b hb => ?_⟩
    rintro rfl
    obtain ⟨e, listed, named⟩ := List.mem_flatMap.1 ha
    obtain ⟨i, hi, rfl⟩ := List.mem_map.1 (by simpa [newEntry] using hb : a ∈ items.map (·.1))
    exact absurd (mem_items_of_named listed named) (by rw [unnamed i hi]; nofun)
  · rcases List.mem_append.1 he with old | new
    · exact each e old
    · rw [List.mem_singleton.1 new]
      exact ⟨rfl, given, range⟩

theorem proposeBody_keeps (K : Kept P) (B : BoundaryKeeps P) {p : Party} {items : List (ItemRef × Int)}
    (done : isRefusing (proposeStatus p items s) = false) (h : P L s) : P L (proposeBody p items s) := by
  have opened : P L (noticeProposal (newEntry p items s) .opened (setNextProposal (nextNumber (newEntry p items s).number)
      (setProposals (s.contracts.proposals ++ [newEntry p items s]) s))) := by
    refine raiseNotice_keeps K _ _ _ (setNextProposal_keeps K (fun sound => nextNumber_range ?_)
      (setProposals_keeps K (proposalsSound_opened done) h))
    refine (sound.2.2.2.1 (newEntry p items s) ?_).2.1
    simp [setProposals, setProposalsFrom]
  unfold proposeBody
  dsimp only
  split
  · exact completeEntry_keeps K B _ opened
  · exact opened

theorem concurBody_keeps (K : Kept P) (B : BoundaryKeeps P) (p : Party) (n : Nat) (h : P L s) : P L (concurBody p n s) := by
  have joined : P L (changeEntry n (concurredEntry p) s) :=
    changeEntry_keeps K n (fun _ => rfl) (fun _ => rfl) (fun _ staged => staged) h
  unfold concurBody
  split
  · exact h
  · split
    · exact h
    · split
      · exact completeEntry_keeps K B _ joined
      · exact joined

/-! ## WRITE CLOCK and TRIM (8-1) -/

theorem setClock_keeps (K : Kept P) (t : Nat) (running : s.settlement.clock.isSome = true) (h : P L s) : P L (setClock t s) := by
  have set (v : Nat) : P L { s with settlement := { s.settlement with clock := some v } } := by
    refine K.settlement (x := { s.settlement with clock := some v }) rfl running.symm rfl (fun ⟨one, order⟩ => ?_) h
    obtain ⟨isOpen, latch, next, _⟩ := one
    obtain ⟨length, consec, _, rest⟩ := order
    exact ⟨⟨isOpen.trans running, latch.trans running, next, nofun⟩, length, consec, fun _ => rfl, rest⟩
  unfold setClock
  split
  · exact set t
  · exact useFree_keeps K (set _)

theorem writeClockBody_keeps (B : BoundaryKeeps P) (t : Nat) (h : P L s) : P L (boundary (writeClockKind t s) s) := by
  refine B ?_ h
  unfold writeClockKind
  split
  next unset => exact unset
  next running => exact running

theorem trimBody_keeps (K : Kept P) {d : Int} (done : isRefusing (trimStatus d s) = false) (h : P L s) : P L (trimBody d s) := by
  have running : s.settlement.clock ≠ none := fun unset => by simp [trimStatus, unset, isRefusing] at done
  exact onOpen_keeps K _ (fun _ => rfl) (setClock_keeps K _ (Option.isSome_iff_ne_none.2 running) h)

theorem takeBoundary_keeps (B : BoundaryKeeps P) (h : P L s) : P L (takeBoundary s) := by
  unfold takeBoundary
  split
  next due =>
    refine B (k := .regular) (fun unset => ?_) h
    simp [boundaryDue, unset] at due
  next => exact h

/-! ## ARCHIVE and CURSOR (8-5) -/

theorem archiveBody_keeps (K : Kept P) (p : Party) (h : P L s) : P L (archiveBody p s) := by
  unfold archiveBody
  split
  next => exact h
  next r target =>
    refine setGap_keeps K p false (setCursor_keeps K (fun order => ?_) h)
    have mem : r ∈ s.settlement.archive := by
      unfold archiveTarget at target
      split at target
      · exact List.mem_of_head? target
      · exact List.mem_of_find?_eq_some target
    have := between_of_mem order.2.1 mem
    omega

theorem placeCursor_keeps (K : Kept P) (p : Party) {n : Nat}
    (within : ArchiveOrdered s → oldestNumber s ≤ n ∧ n ≤ newestPlusOne s) (h : P L s) : P L (placeCursor p n s) :=
  setGap_keeps K p false (setCursor_keeps K within h)

/-- The newest record is a place for a cursor (R157). -/
theorem newest_within (h : ArchiveOrdered s) : oldestNumber s ≤ newestNumber s ∧ newestNumber s ≤ newestPlusOne s := by
  unfold newestNumber
  split
  next r last => have := between_of_mem h.2.1 (List.mem_of_getLast? last); omega
  next none =>
    obtain ⟨oldest, newest⟩ := ends_of_nil (List.getLast?_eq_none_iff.1 none)
    omega

theorem cursorNumber_within {n : Nat} (done : isRefusing (cursorStatus n s) = false) (h : ArchiveOrdered s) :
    oldestNumber s ≤ n ∧ n ≤ newestPlusOne s := by
  have := newest_within h
  unfold cursorStatus at done
  split at done
  next fits =>
    simp only [Bool.and_eq_true, decide_eq_true_eq] at fits
    omega
  next => cases done

/-! ## MASK and NOTICE (10-5) -/

theorem noticesSound_setMask {p : Party} {m : Vector Bool 10} (alarms : m[clsTrip] = false ∧ m[clsIntegrity] = false)
    (h : NoticesSound s) :
    NoticesSound { s with links := { s.links with masks := s.links.masks.set (partyIndex p) m } } := by
  refine ⟨h.1, fun q => ?_⟩
  by_cases same : q = partyIndex p
  · subst same
    have at_ : (s.links.masks.set (partyIndex p) m)[partyIndex p] = m := Vector.getElem_set_self ..
    simpa only [at_] using alarms
  · simpa only [getElem_set_fin _ same] using h.2 q

theorem setMask_keeps (K : Kept P) (p : Party) (classes : Nat) (h : P L s) : P L (setMask p (maskOf classes) s) :=
  K.attn (l := { s.links with masks := s.links.masks.set (partyIndex p) (maskOf classes) }) rfl
    (fun _ other => ⟨rfl, getElem_set_fin _ other _⟩) (noticesSound_setMask ⟨by simp [maskOf], by simp [maskOf]⟩) h

theorem noticeBody_keeps (K : Kept P) (p : Party) (h : P L s) : P L (noticeBody p s) := by
  unfold noticeBody
  split
  · exact h
  · exact setNotice_keeps K p _ (fun _ => by simp [Sound, clearNotice]) h

/-! ## The sweep and the decay of a word (9-1, 9-3) -/

theorem storeWordError_keeps (K : Kept P) (w : Fin 16384) (h : P L s) :
    P L (setErrors (addError w s.store.errors) s) :=
  K.store (n := s.freeIndex) (fun ⟨order, rest⟩ => ⟨errorsInOrder_addError w.isLt order, rest⟩) h

theorem sweepWord_keeps (K : Kept P) (h : P L s) : P L (sweepWord s) := by
  have read : P L (readWord s.store.sweepPos s) := (readWord_shaped K _ ⟨h, rfl⟩).1
  unfold sweepWord
  dsimp only
  generalize readWord s.store.sweepPos s = t at read ⊢
  split
  next more => exact K.store (n := t.freeIndex) (fun ⟨order, _, rest⟩ => ⟨order, more, rest⟩) read
  next =>
    unfold completeSweep
    refine wrote_keeps K _ (K.store (n := (readAll [.report 3] t).freeIndex) (fun ⟨order, _, corr, unc, _⟩ =>
      ⟨order, Nat.zero_lt_succ 16383, corr, unc, countUp_le _⟩) (readAll_keeps K _ read))

/-! ## Time (0-5) -/

theorem tickClock_keeps (K : Kept P) (h : P L s) : P L (tickClock s) := by
  unfold tickClock
  split
  next => exact h
  next t clocked =>
    split
    · exact K.settlement (x := { s.settlement with clockMillis := s.settlement.clockMillis + 1 }) rfl rfl rfl
        (fun sound => sound) h
    · exact setClock_keeps K _ (by simp [clocked])
        (K.settlement (x := { s.settlement with clockMillis := 0 }) rfl rfl rfl (fun sound => sound) h)

theorem tickBases_keeps (K : Kept P) (h : P L s) : P L (tickBases s) := by
  have field := K.field (f := { s.field with arrivalBase := (s.field.arrivalBase + 1) % Config.arrivalModulus })
    (fun sound => sound) h
  have allocator := K.allocator (a := { s.allocator with base := s.allocator.base + 1 }) (by rfl) field
  have supervisor := K.base (n := s.supervisor.base + 1) allocator
  have contracts := K.table (c := { s.contracts with
    base := s.contracts.base + (s.contracts.baseMillis + 1) / 1000, baseMillis := (s.contracts.baseMillis + 1) % 1000 })
    (by rfl) (by exact fun sound => sound) supervisor
  exact K.store (st := { s.store with sweepBase := s.store.sweepBase + 1 }) (n := s.freeIndex)
    (by exact fun sound => sound) contracts

theorem arrange_keeps (K : Kept P) (queue : ∀ {s l}, P L s → P L { s with pending := l }) (e : Instr) (h : P L s) :
    P L (arrange s e) := by
  unfold arrange
  split
  · exact queue h
  · exact useFree_keeps K (queue h)

theorem tick_keeps (K : Kept P) (queue : ∀ {s l}, P L s → P L { s with pending := l }) (h : P L s) : P L (tick s) := by
  have clock := tickClock_keeps K h
  unfold tick
  split
  · exact foldl_induct (P L) _ _ (fun _ e _ => arrange_keeps K queue e) _ (tickBases_keeps K clock)
  · exact clock

end Sys2Proof.Proofs.Upkeep
end

section
/-! A settlement boundary taken apart into elementary changes, for every condition that does not tell one settlement from
another but by its archived totals and by whether its clock runs. -/

namespace Sys2Proof.Proofs.Upkeep

open Sys2Proof Sys2Proof.Machine Sys2Proof.Proofs.Notice

/-- A condition that every elementary change keeps, and the opening and closing of records as well. -/
structure Bounds (P : List (Fin 8) → State → Prop) : Prop extends Kept P where
  ring : ∀ {L s x}, (∀ r ∈ x.archive, r ∈ s.settlement.archive ∨ r.closing = s.metering.totals) →
    (s.settlement.clock.isSome = true → x.clock.isSome = true) → P L s → P L { s with settlement := x } := by
    intros; assumption
  anyLatch : ∀ {L s l}, P L s → P L { s with exports := { s.exports with latch := l } } := by intros; assumption

variable {P : List (Fin 8) → State → Prop} {L : List (Fin 8)} {s : State}

/-! ## The application of the STAGED entries (R134) -/

theorem putInForce_contracts (changes : List (Item × Int)) (s : State) :
    (putInForce changes s).contracts = { s.contracts with contract := withChanges s.contracts.contract changes } := by
  have set : (changes.foldl (fun s ch => setItem ch.1 ch.2 s) s).contracts =
      { s.contracts with contract := withChanges s.contracts.contract changes } := by
    induction changes generalizing s with
    | nil => rfl
    | cons ch rest ih => rw [List.foldl_cons, ih]; rfl
  unfold putInForce
  rw [← set]
  exact foldl_keeps State.contracts _ (fun t (ch : Item × Int) => itemChanged_contracts (s := t) ch.1) _ _

theorem mem_heldItems {items : List (ItemRef × Int)} {i : Item} {v : Int} (h : (i, v) ∈ heldItems items) :
    (.item i, v) ∈ items := by
  obtain ⟨⟨r, w⟩, mem, named⟩ := List.mem_filterMap.1 h
  cases r with
  | item j => simp only [Option.some.injEq, Prod.mk.injEq] at named
              obtain ⟨rfl, rfl⟩ := named
              exact mem
  | offset => cases named
  | lock => cases named

/-- What an entry of a sound table carries is in range (R118). -/
theorem heldItems_inRange {e : Proposal} (listed : e ∈ s.contracts.proposals) (h : ProposalsSound s) :
    ∀ ch ∈ heldItems e.items, itemInRange ch.1 ch.2 = true :=
  fun _ hc => (h.2.2.2.1 e listed).2.2 _ (mem_heldItems hc)

/-- The entries still to come are entries of the table, which the application leaves as it is until its end. -/
structure Underway (P : List (Fin 8) → State → Prop) (L : List (Fin 8)) (table : List Proposal) (x : Applying) : Prop where
  keeps : P L x.state
  table : x.state.contracts.proposals = table

theorem applyEntry_keeps (K : Kept P) {table : List Proposal} {e : Proposal} {x : Applying} (listed : e ∈ table)
    (h : Underway P L table x) : Underway P L table (applyEntry x e) := by
  obtain ⟨keeps, same⟩ := h
  unfold applyEntry
  split
  · exact ⟨keeps, same⟩
  · split
    · exact ⟨keeps, same⟩
    · split
      · exact ⟨raiseNotice_keeps K _ _ _ keeps, by simpa using same⟩
      · refine ⟨raiseNotice_keeps K _ _ _ (clearDamageMarks_keeps K _ (putInForce_keeps K _ (fun sound => ?_) keeps)), ?_⟩
        · exact heldItems_inRange (by rw [same]; exact listed) sound
        · simpa [putInForce_contracts] using same

theorem applyEntries_keeps (K : Kept P) (h : P L s) : Underway P L s.contracts.proposals (applyEntries s) :=
  foldl_induct (Underway P L s.contracts.proposals) _ _ (fun _ _ listed => applyEntry_keeps K listed) _ ⟨h, rfl⟩

/-- An entry but for its deferred mark. -/
def undeferred (e : Proposal) : Proposal := { e with deferred := false }

theorem applyEntry_kept (x : Applying) (e : Proposal) :
    ((applyEntry x e).kept.map undeferred).Sublist (x.kept.map undeferred ++ [undeferred e]) := by
  unfold applyEntry
  split
  · simp
  · split
    · simp [undeferred]
    · split
      · simp
      · simp

/-- The entries that stay are entries of the table in their order, some of them deferred now (R134). -/
theorem foldl_applyEntry_kept (l : List Proposal) (x : Applying) :
    ((l.foldl applyEntry x).kept.map undeferred).Sublist (x.kept.map undeferred ++ l.map undeferred) := by
  induction l generalizing x with
  | nil => simp
  | cons e rest ih =>
    refine (ih (applyEntry x e)).trans ?_
    rw [List.map_cons, List.append_cons]
    exact (applyEntry_kept x e).append_right _

theorem proposalsSound_undeferred {l : List Proposal}
    (sub : (l.map undeferred).Sublist (s.contracts.proposals.map undeferred)) (h : ProposalsSound s) :
    ProposalsSound { s with contracts := { s.contracts with proposals := l } } := by
  obtain ⟨length, numbers, items, each, next⟩ := h
  refine ⟨?_, ?_, ?_, fun e he => ?_, next⟩
  · have := sub.length_le
    rw [List.length_map, List.length_map] at this
    exact Nat.le_trans this length
  · have := sub.map Proposal.number
    simp only [List.map_map, Function.comp_def, undeferred] at this
    exact numbers.sublist this
  · have := Lists.flatMap_sublist (fun e => e.items.map (·.1)) sub
    simp only [List.flatMap_map, undeferred] at this
    exact items.sublist this
  · obtain ⟨e', listed, same⟩ := List.mem_map.1 (sub.subset (List.mem_map_of_mem he))
    have fields := each e' listed
    simp only [undeferred, Proposal.mk.injEq] at same
    obtain ⟨number, _, itemsOf, _, _, staged, expiry, _⟩ := same
    rwa [number, itemsOf, staged, expiry] at fields

theorem applyStaged_keeps (K : Kept P) (h : P L s) : P L (applyStaged s) := by
  obtain ⟨keeps, same⟩ := applyEntries_keeps K h
  have stays := setProposals_keeps K (l := (applyEntries s).kept) (proposalsSound_undeferred (by
    rw [same]; simpa [applyEntries] using foldl_applyEntry_kept s.contracts.proposals ⟨s, [], false⟩)) keeps
  unfold applyStaged
  dsimp only
  split
  · exact bumpRevision_keeps K stays
  · exact stays

/-! ## Closing and opening -/

theorem ring_sameArchive (B : Bounds P) {x : Settlement} (archive : x.archive = s.settlement.archive)
    (clock : s.settlement.clock.isSome = true → x.clock.isSome = true) (h : P L s) : P L { s with settlement := x } :=
  B.ring (fun _ hr => .inl (archive ▸ hr)) clock h

theorem anyCursor_keeps (B : Bounds P) (p : Party) (n : Nat) (h : P L s) : P L (setCursor p n s) :=
  wrote_keeps B.toKept _ (ring_sameArchive B (x := { s.settlement with cursors := s.settlement.cursors.set (partyIndex p) n })
    rfl (fun some => some) h)

theorem passRecord_keeps (B : Bounds P) (r : ArchiveRecord) (empty : Bool) (p : Party) (h : P L s) :
    P L (passRecord r empty s p) := by
  unfold passRecord
  split
  · exact anyCursor_keeps B p _ h
  · unfold moveCursor
    split
    · exact setGap_keeps B.toKept p true (anyCursor_keeps B p _ h)
    · exact h

theorem writeArchive_keeps (B : Bounds P) {r : ArchiveRecord} (closing : r.closing = s.metering.totals) (h : P L s) :
    P L (writeArchive r s) := by
  unfold writeArchive
  dsimp only
  refine foldl_induct (P L) _ _ (fun _ p _ => passRecord_keeps B r _ p) _
    (setMark_keeps B.toKept _ _ (wrote_keeps B.toKept _ (B.ring (fun x hx => ?_) (fun some => some) h)))
  rcases List.mem_append.1 hx with old | new
  · left
    split at old
    · exact old
    · exact List.mem_of_mem_drop old
  · right
    rw [List.mem_singleton.1 new, closing]

theorem closeRecord_keeps (B : Bounds P) (k : Boundary) (o : OpenRecord) (h : P L s) : P L (closeRecord k o s) :=
  writeArchive_keeps B rfl (setGasAccount_keeps B.toKept _ (setHeatAccount_keeps B.toKept _ h))

theorem anyClock_keeps (B : Bounds P) (t : Nat) (h : P L s) : P L (setClock t s) := by
  unfold setClock
  split
  · exact ring_sameArchive B rfl (fun _ => rfl) h
  · exact useFree_keeps B.toKept (ring_sameArchive B rfl (fun _ => rfl) h)

theorem moveClock_keeps (B : Bounds P) (k : Boundary) (h : P L s) : P L (moveClock k s) := by
  unfold moveClock
  split
  · exact anyClock_keeps B _ h
  · exact ring_sameArchive B rfl (fun some => some) (anyClock_keeps B _ h)
  · exact h
  · exact h

theorem removeUnaligned_keeps (K : Kept P) (old : Nat) (h : P L s) : P L (removeUnaligned old s) := by
  unfold removeUnaligned
  split
  · exact h
  · exact setScheduleFrom_keeps K 0 (scheduleOrdered_sublist List.filter_sublist) h

theorem makeLatch_keeps (B : Bounds P) (start : Nat) (h : P L s) : P L (makeLatch start s) :=
  cutLinked_keeps B.toKept (setScheduleFrom_keeps B.toKept 0 (scheduleOrdered_sublist List.filter_sublist)
    (wrote_keeps B.toKept _ (B.anyLatch h)))

theorem openRecord_keeps (B : Bounds P) (k : Boundary) (start : Nat) (changed : Bool) (h : P L s) :
    P L (openRecord k start changed s) := by
  have opened := wroteAll_keeps B.toKept ((List.finRange 49).map .openRecord)
    (ring_sameArchive B (x := { s.settlement with openRecord := some (newRecord k start changed s) }) rfl (fun some => some) h)
  unfold openRecord setNextRecord followNext
  have next := wrote_keeps B.toKept .nextRecord (ring_sameArchive B (x := { (wroteAll ((List.finRange 49).map .openRecord)
    { s with settlement := { s.settlement with openRecord := some (newRecord k start changed s) } }).settlement with
    nextRecord := s.settlement.nextRecord + 1 }) rfl (fun some => some) opened)
  split
  · exact foldl_induct (P L) _ _ (fun _ p _ => anyCursor_keeps B p _) _ next
  · exact next

theorem forgiven_keeps (K : Kept P) (c : Fin 8) (h : P L s) :
    P L (setConsumer c { consumer s c with recoveryCount := 0 } s) :=
  K.tend rfl rfl (fun ⟨a, b, d, e, f, g, i, _⟩ => ⟨⟨a, b, d, e, f, g, i, Nat.zero_le _⟩, releases_same rfl rfl⟩) h

theorem resetRecovery_keeps (K : Kept P) (h : P L s) : P L (resetRecovery s) := by
  unfold resetRecovery
  exact foldl_induct (P L) _ _ (fun _ c _ ht => startRecovery_keeps K c (forgiven_keeps K c ht)) _ h

theorem openInterval_keeps (B : Bounds P) (k : Boundary) (h : P L s) : P L (openInterval k s) := by
  have opened : ∀ start changed, P L (openRecord k start changed (makeLatch
      (regularStart (intervalLength (applyStaged (moveClock k s))) start)
      (removeUnaligned (intervalLength (moveClock k s)) (applyStaged (moveClock k s))))) := fun start changed =>
    openRecord_keeps B k start changed (makeLatch_keeps B _ (removeUnaligned_keeps B.toKept _
      (applyStaged_keeps B.toKept (moveClock_keeps B k h))))
  unfold openInterval
  dsimp only
  split
  · exact opened _ _
  · exact resetRecovery_keeps B.toKept (opened _ _)

theorem Bounds.boundary (B : Bounds P) : BoundaryKeeps P := by
  intro L s k _ h
  have credited : P L (boundaryCredit k s) := by
    unfold boundaryCredit
    split
    · exact h
    · exact creditFlare_keeps B.toKept h
  unfold Machine.boundary
  dsimp only
  split
  · exact openInterval_keeps B k credited
  · exact raiseNotice_keeps B.toKept _ _ _ (openInterval_keeps B k (closeRecord_keeps B k _ credited))

end Sys2Proof.Proofs.Upkeep
end

section
/-! Every command, and so every step, keeps a condition that the elementary changes, the settlement boundary and the changes of
the supplies keep. -/

namespace Sys2Proof.Proofs.Upkeep

open Sys2Proof Sys2Proof.Machine Sys2Proof.Proofs.Notice

/-- What a command of the supplies does to a condition (9-5). -/
structure Powered (P : State → Prop) : Prop where
  stop : ∀ {s pw}, pw.running = false → P s → P { s with
    power := pw, lines := lowLines, links := { s.links with ports := Vector.replicate 3 none } }
  backup : ∀ {s}, P s → P { s with power := { s.power with backupSupply := false } }
  lose : ∀ {s}, s.power.mainSupply = false → P s → P (loseStore s)
  warm : ∀ {s kind}, s.power.running = false → P s → P (warmStart kind s)
  cold : ∀ {s cut}, s.power.running = false → P s → P (coldStart cut s)

/-- The parts of a start-up that are no elementary changes, and the loss of the store. -/
structure Restarts (P : State → Prop) : Prop where
  stop : ∀ {s pw}, pw.running = false → P s → P { s with
    power := pw, lines := lowLines, links := { s.links with ports := Vector.replicate 3 none } } := by intros; assumption
  backup : ∀ {s}, P s → P { s with power := { s.power with backupSupply := false } } := by intros; assumption
  lose : ∀ {s}, P s → P (loseStore s) := by intros; assumption
  relink : ∀ {s kind}, s.power.running = false → P s → P { s with links := restartLinks kind } := by intros; assumption
  init : ∀ {s}, P s → P (initialiseStore s) := by intros; assumption
  fresh : ∀ {s kind l}, l = s.links ∨ l = restartLinks kind → P s → P { freshBlocks kind s with links := l } := by
    intros; assumption
  begins : ∀ {s}, P s → P (beginOperation s)

variable {P : List (Fin 8) → State → Prop} {L : List (Fin 8)} {s : State}

/-! ## The resolution of an outage and the two start-ups (R158 to R160, R174) -/

theorem continueRecord_keeps (K : Kept P) (h : P L s) : P L (continueRecord s) := onOpen_keeps K _ (fun _ => rfl) h

theorem running_of_pastEnd (due : pastEnd s = true) : s.settlement.clock ≠ none := fun unset => by
  simp [pastEnd, boundaryDue, unset] at due

theorem outageBoundaries_keeps (K : Kept P) (B : BoundaryKeeps P) (n : Nat) (h : P L s) : P L (outageBoundaries n s) := by
  induction n generalizing s with
  | zero => exact h
  | succ n ih =>
    have read := readAll_keeps K (boundaryReads s) h
    unfold outageBoundaries
    split
    · dsimp only
      split
      next due => exact ih (B (k := .outage) (running_of_pastEnd due) read)
      next => exact continueRecord_keeps K read
    · exact h

theorem resolveOutage_keeps (K : Kept P) (B : BoundaryKeeps P) (kind : RestartKind) (h : P L s) :
    P L (resolveOutage kind s) := by
  have read := readAll_keeps K (if s.settlement.openRecord.isSome then [.openRecord 2] else []) h
  unfold resolveOutage
  dsimp only
  generalize readAll _ s = t at read ⊢
  have resolved : P L (if pastEnd t then outageBoundaries (t.contracts.proposals.length + 2) t else continueRecord t) := by
    split
    · exact outageBoundaries_keeps K B _ read
    · exact continueRecord_keeps K read
  split
  · exact onOpen_keeps K _ (fun _ => rfl) resolved
  · exact resolved

theorem discardOpen_keeps (K : Kept P) (h : P L s) : P L (discardOpen s) :=
  setProposals_keeps K (proposalsSound_sublist List.filter_sublist) h

theorem unlock_keeps (K : Kept P) (kind : RestartKind) (h : P L s) : P L (unlock kind s) := by
  unfold unlock
  split
  · exact setLocked_keeps K false h
  · exact h

/-- A warm start from the blocks' fresh states on, up to the part's taking events (R174). -/
theorem warmStart_keeps (K : Kept P) (B : BoundaryKeeps P) {kind : RestartKind} (fresh : P [] (freshBlocks kind s))
    (begins : ∀ {t}, P [] t → P [] (beginOperation t)) : P [] (warmStart kind s) := by
  have read := startPeriod_keeps K (settle_keeps K (readAll_keeps K (startUpReads (freshBlocks kind s)) fresh))
  have resolved := resolveOutage_keeps K B kind (unlock_keeps K kind (discardOpen_keeps K read))
  unfold warmStart
  exact begins (settle_keeps K resolved)

theorem readSignature_keeps (K : Kept P) (k : Fin 4) (h : P L s) : P L (readSignature s k) := by
  unfold readSignature
  split
  · exact countUncorrectable_keeps K _ (readAll_keeps K _ h)
  · exact foldl_induct (P L) _ _ (fun _ w _ ht =>
      countCorrected_keeps K (readAll_keeps K _ (clearWord_keeps K w ht))) _ h

theorem readSignatures_keeps (K : Kept P) (h : P L { s with links := restartLinks .cold }) : P L (readSignatures s) :=
  foldl_induct (P L) _ _ (fun _ k _ => readSignature_keeps K k) _ h

theorem writeSignature_keeps (K : Kept P) (h : P L s) : P L (writeSignature s) :=
  wroteAll_keeps K _ (K.store (n := s.freeIndex) (fun sound => sound) h)

theorem keepOrLose_keeps {P : State → Prop} (lose : ∀ {s}, s.power.mainSupply = false → P s → P (loseStore s)) (h : P s) :
    P (keepOrLose s) := by
  unfold keepOrLose
  split
  · exact h
  next lost => exact lose (Bool.or_eq_false_iff.1 (Bool.not_eq_true _ ▸ lost)).1 h

theorem Restarts.powered (K : Kept P) (B : BoundaryKeeps P) (R : Restarts (P [])) : Powered (P []) where
  stop := R.stop
  backup := R.backup
  lose _ := R.lose
  warm {s kind} _ h := warmStart_keeps K B (R.fresh (l := restartLinks kind) (.inr rfl) h) R.begins
  cold {s cut} stopped h := by
    have read := R.init (readSignatures_keeps K (R.relink stopped h))
    unfold coldStart
    dsimp only
    generalize readSignatures s = r at read ⊢
    split
    · exact keepOrLose_keeps (fun _ => R.lose) (R.stop (s := initialiseStore r)
        (pw := { (stopPart r).power with mainSupply := false, resetHeld := false }) rfl read)
    · exact R.begins (R.fresh (.inl rfl) (writeSignature_keeps K read))

/-! ## The commands of the supplies (9-5) -/

variable {t : State}

theorem execSupplyFall_keeps {P : State → Prop} (W : Powered P) (e : execSupplyFall s = .next t) (h : P s) : P t := by
  cases e
  exact keepOrLose_keeps W.lose (W.stop (s := s) rfl h)

theorem holdReset_keeps {P : State → Prop} (W : Powered P) (h : P s) : P (holdReset s) := W.stop (s := s) rfl h

theorem execResetAssertion_keeps (K : Kept P) (W : Powered (P [])) {low : Nat} (e : execResetAssertion low s = .next t)
    (h : P [] s) : P [] t := by
  unfold execResetAssertion at e
  split at e
  · cases e; exact holdReset_keeps W h
  · split at e
    · cases e; exact h
    · split at e
      · cases e; exact holdReset_keeps W (useFree_keeps K h)
      · cases e; exact useFree_keeps K h

theorem execBackupSupplyLoss_keeps {P : State → Prop} (W : Powered P) (e : execBackupSupplyLoss s = .next t) (h : P s) :
    P t := by
  cases e
  exact keepOrLose_keeps W.lose (W.backup h)

theorem sampled_keeps (K : Kept P) (strap : Strap) (h : P L s) : P L (sampled strap s) := by
  unfold sampled
  split
  · exact useFree_keeps K h
  · exact h

theorem sampled_power (strap : Strap) (s : State) : (sampled strap s).power = s.power := by
  unfold sampled; split <;> rfl

theorem execStartUpOperation_keeps (K : Kept P) (W : Powered (P [])) {strap : Strap} {cut : Bool}
    (e : execStartUpOperation strap cut s = .next t) (h : P [] s) : P [] t := by
  unfold execStartUpOperation at e
  split at e
  next => cases e; exact h
  next stopped =>
    have off : (sampled strap s).power.running = false := by rw [sampled_power]; simpa using stopped
    split at e
    · cases e; exact W.cold off (sampled_keeps K strap h)
    · cases e; exact W.warm off (sampled_keeps K strap h)

/-! ## Pulses, samples and timers -/

/-- An operation that is taken where a condition holds. -/
theorem guarded_keeps {P : State → Prop} {c : Bool} {u : State}
    (e : (if c then Host.Outcome.next u else .next s : Out) = .next t) (ku : P u) (h : P s) : P t := by
  split at e <;> cases e
  · exact ku
  · exact h

theorem execPulseArrival_keeps (K : Kept P) {ch : Fin 16} {high low : Nat} (e : execPulseArrival ch high low s = .next t)
    (h : P L s) : P L t := by
  have read := settle_keeps K (readAll_keeps K [.contract (minSpacingItem ch)] h)
  unfold execPulseArrival at e
  split at e
  · dsimp only at e
    split at e <;> cases e
    · exact operation_keeps K (acceptPulse_keeps K ch) _ read
    · exact rejectPulse_keeps K ch read
  · cases e; exact h

theorem execSampleFrame_keeps (K : Kept P) {raw : RawFrame} (e : execSampleFrame raw s = .next t) (h : P L s) : P L t := by
  unfold execSampleFrame at e
  split at e
  · cases e; exact h
  next k st v _ =>
    have read := settle_keeps K (readAll_keeps K [.contract (.rangeLow k), .contract (.rangeHigh k)] h)
    refine guarded_keeps e (operation_keeps K (fun {u} hu => ?_) _ read) h
    split
    · exact takeValid_keeps K k st v hu
    · exact holdSample_keeps K k hu

/-! ## Requests -/

/-- A request that its block serves at once. -/
theorem served_keeps (K : Kept P) {f : Frame} {code length : Nat} {dec : Bool} {reads : State → List Thing}
    {body : State → State} {answer : State → State → Status × List Field}
    (e : request f code length dec (fun s => serve f.party code (reads s) body answer s) s = .next t)
    (bk : ∀ {u}, P L u → P L (body u)) (h : P L s) : P L t :=
  request_keeps K e (fun h => serve_keeps K bk _ _ _ _ h) h

theorem consumerRequest_keeps (K : Kept P) {f : Frame} {code c : Nat} {reads : State → Fin 8 → List Thing}
    {body : Fin 8 → State → State} {answer : Fin 8 → State → State → Status × List Field}
    (e : consumerRequest f code c reads body answer s = .next t) (bk : ∀ {u} c, P L u → P L (body c u)) (h : P L s) :
    P L t := by
  unfold consumerRequest at e
  exact request_keeps K e (fun h => ownerRequest_keeps K (bk _) _ _ _ _ _ h) h

theorem startStatus_done {c : Fin 8} (done : isRefusing (startStatus c s) = false) : (consumer s c).state = .off := by
  refine Classical.byContradiction fun out => ?_
  simp [startStatus, out, isRefusing] at done

theorem fuelBackupStatus_done {c : Fin 8} (done : isRefusing (fuelBackupStatus c s) = false) :
    (consumer s c).state = .active := by
  refine Classical.byContradiction fun out => ?_
  simp [fuelBackupStatus, lit, out, isRefusing] at done

theorem fuelGasStatus_done {c : Fin 8} (done : isRefusing (fuelGasStatus c s) = false) : (consumer s c).state = .backup := by
  refine Classical.byContradiction fun out => ?_
  simp [fuelGasStatus, out, isRefusing] at done

theorem clearStatus_done {c : Fin 8} (done : isRefusing (clearStatus c s) = false) : (consumer s c).state = .tripped := by
  refine Classical.byContradiction fun out => ?_
  simp [clearStatus, out, isRefusing] at done

theorem queryRequest_keeps (K : Kept P) {f : Frame} {index n : Nat} {reads : State → List Thing} {fields : State → List Field}
    (e : queryRequest f index n reads fields s = .next t) (h : P L s) : P L t :=
  served_keeps K e (fun hu => hu) h

theorem execWrite_keeps (K : Kept P) {f : Frame} {name : ItemName} {v : Int} (e : execWrite f name v s = .next t)
    (h : P L s) : P L t := by
  unfold execWrite at e
  split at e
  · exact request_keeps K e (fun hu => hu) h
  · exact served_keeps K e (judged_keeps (writeBody_keeps K)) h

theorem execPropose_keeps (K : Kept P) (B : BoundaryKeeps P) {f : Frame} {items : List (ItemName × Int)}
    (e : execPropose f items s = .next t) (h : P L s) : P L t := by
  unfold execPropose at e
  split at e
  · exact request_keeps K e (fun hu => hu) h
  · exact served_keeps K e (judged_keeps (proposeBody_keeps K B)) h

theorem execConcur_keeps (K : Kept P) (B : BoundaryKeeps P) {f : Frame} {n : Nat} (e : execConcur f n s = .next t)
    (h : P L s) : P L t := by
  unfold execConcur at e
  exact request_keeps K e (fun h => serve_keeps K (judged_keeps fun _ => concurBody_keeps K B _ n) _ _ _ _
    (settle_keeps K (readAll_keeps K _ h))) h

theorem execWriteClock_keeps (K : Kept P) (B : BoundaryKeeps P) {f : Frame} {time : Nat}
    (e : execWriteClock f time s = .next t) (h : P L s) : P L t := by
  unfold execWriteClock at e
  exact request_keeps K e (fun h => serve_keeps K (judged_keeps fun _ => writeClockBody_keeps B time) _ _ _ _
    (settle_keeps K (readAll_keeps K _ h))) h

theorem execSchedule_keeps (K : Kept P) {f : Frame} {start kw : Nat} (e : execSchedule f start kw s = .next t) (h : P L s) :
    P L t := by
  unfold execSchedule at e
  refine request_keeps K e (fun h => ?_) h
  split
  · exact serve_keeps K (judged_keeps (scheduleBody_keeps K)) _ _ _ _ h
  · exact refuse_keeps K _ _ _ h

theorem execQueryContractItem_keeps (K : Kept P) {f : Frame} {name : ItemName} (e : execQueryContractItem f name s = .next t)
    (h : P L s) : P L t := by
  unfold execQueryContractItem at e
  split at e
  · exact request_keeps K e (fun hu => hu) h
  · exact served_keeps K e (fun hu => hu) h

theorem execUnknownRequest_keeps (K : Kept P) {f : Frame} {code selector : Nat}
    (e : execUnknownRequest f code selector s = .next t) (h : P L s) : P L t :=
  guarded_keeps e (refuse_keeps K _ _ _ h) h

/-! ## Every command, every step -/

/-- What a condition must keep for every step to keep it. -/
structure Upheld (P : List (Fin 8) → State → Prop) : Prop where
  kept : Kept P
  boundary : BoundaryKeeps P
  powered : Powered (P [])

theorem Bounds.upheld (B : Bounds P) (R : Restarts (P [])) : Upheld P where
  kept := B.toKept
  boundary := B.boundary
  powered := R.powered B.toKept B.boundary

theorem exec_keeps (U : Upheld P) {i : Instr} (e : exec i s = .next t) (h : P [] s) : P [] t := by
  obtain ⟨K, B, W⟩ := U
  cases i with
  | pulseArrival ch high low => exact execPulseArrival_keeps K e h
  | zeroFlowExpiry ch => exact guarded_keeps (show execZeroFlowExpiry ch s = _ from e) (operation_keeps K (takeZeroFlow_keeps K ch) _ h) h
  | sampleFrame raw => exact execSampleFrame_keeps K e h
  | freshnessExpiry k => exact guarded_keeps (show execFreshnessExpiry k s = _ from e) (operation_keeps K (holdSample_keeps K k) _ h) h
  | allocationPeriodExpiry => exact guarded_keeps (show execAllocationPeriodExpiry s = _ from e) (settle_keeps K (allocationEvent_keeps K h)) h
  | start f c =>
    exact consumerRequest_keeps K (show execStart f c s = _ from e) (fun c => judged_keeps fun done => startBody_keeps K c (startStatus_done done)) h
  | stop f c => exact consumerRequest_keeps K (show execStop f c s = _ from e) (fun c => judged_keeps fun _ => stopBody_keeps K c) h
  | nominate f c rate =>
    exact request_keeps K (show execNominate f c rate s = _ from e) (ownerRequest_keeps K (judged_keeps fun _ => nominateBody_keeps K _ rate) _ _ _ _ _) h
  | clear f c =>
    exact consumerRequest_keeps K (show execClear f c s = _ from e) (fun c => judged_keeps fun done => clearBody_keeps K c (clearStatus_done done)) h
  | fuelBackup f c =>
    exact consumerRequest_keeps K (show execFuelBackup f c s = _ from e) (fun c => judged_keeps fun done => fuelBackupBody_keeps K c (fuelBackupStatus_done done)) h
  | fuelGas f c =>
    exact consumerRequest_keeps K (show execFuelGas f c s = _ from e) (fun c => judged_keeps fun done => fuelGasBody_keeps K c (fuelGasStatus_done done)) h
  | purgeExpiry c => exact guarded_keeps (show execPurgeExpiry c s = _ from e) (operation_keeps K (purgeBody_keeps K c) _ h) h
  | overdrawMaskExpiry c => exact guarded_keeps (show execOverdrawMaskExpiry c s = _ from e) (operation_keeps K (overdrawBody_keeps K c) _ h) h
  | lineLowMaskExpiry c => exact guarded_keeps (show execLineLowMaskExpiry c s = _ from e) (operation_keeps K (lineLowBody_keeps K c) _ h) h
  | passingMaskExpiry c => exact guarded_keeps (show execPassingMaskExpiry c s = _ from e) (operation_keeps K (passingBody_keeps K c) _ h) h
  | lowDrawTimerExpiry c => exact guarded_keeps (show execLowDrawTimerExpiry c s = _ from e) (operation_keeps K (lowDrawBody_keeps K c) _ h) h
  | recoveryDelayExpiry c => exact guarded_keeps (show execRecoveryDelayExpiry c s = _ from e) (operation_keeps K (recoveryBody_keeps K c) _ h) h
  | schedule f start kw => exact execSchedule_keeps K e h
  | write f name v => exact execWrite_keeps K e h
  | writeIdentity f code name =>
    exact served_keeps K (show execWriteIdentity f code name s = _ from e) (judged_keeps fun _ => setIdentity_keeps K code name) h
  | propose f items => exact execPropose_keeps K B e h
  | concur f n => exact execConcur_keeps K B e h
  | reject f n => exact served_keeps K (show execReject f n s = _ from e) (judged_keeps fun _ => dropEntry_keeps K n _) h
  | withdraw f n => exact served_keeps K (show execWithdraw f n s = _ from e) (judged_keeps fun _ => dropEntry_keeps K n _) h
  | proposalExpiry n => exact guarded_keeps (show execProposalExpiry n s = _ from e) (operation_keeps K (takeExpiry_keeps K n) _ h) h
  | writeClock f time => exact execWriteClock_keeps K B e h
  | trim f d => exact served_keeps K (show execTrim f d s = _ from e) (judged_keeps (trimBody_keeps K)) h
  | regularBoundary => exact guarded_keeps (show execRegularBoundary s = _ from e) (operation_keeps K (takeBoundary_keeps B) _ h) h
  | archive f =>
    exact request_keeps K (show execArchive f s = _ from e) (fun h => serve_keeps K (judged_keeps fun _ => archiveBody_keeps K _) _ _ _ _
      (settle_keeps K (readAll_keeps K _ h))) h
  | cursorOldest f => exact served_keeps K (show execCursorOldest f s = _ from e) (placeCursor_keeps K _ oldest_within) h
  | cursorNewest f => exact served_keeps K (show execCursorNewest f s = _ from e) (placeCursor_keeps K _ newest_within) h
  | cursorNumber f n =>
    exact served_keeps K (show execCursorNumber f n s = _ from e) (judged_keeps fun done => placeCursor_keeps K _ (cursorNumber_within done)) h
  | scrubRead => exact guarded_keeps (show execScrubRead s = _ from e) (settle_keeps K (sweepWord_keeps K h)) h
  | startUpOperation strap cut => exact execStartUpOperation_keeps K W e h
  | supplyFall => exact execSupplyFall_keeps W e h
  | resetAssertion low => exact execResetAssertion_keeps K W e h
  | querySampleChannel f index => exact queryRequest_keeps K (show execQuerySampleChannel f index s = _ from e) h
  | queryPulseChannel f index => exact queryRequest_keeps K (show execQueryPulseChannel f index s = _ from e) h
  | queryConsumer f index => exact queryRequest_keeps K (show execQueryConsumer f index s = _ from e) h
  | queryHolder f index => exact queryRequest_keeps K (show execQueryHolder f index s = _ from e) h
  | queryAllocation f index => exact queryRequest_keeps K (show execQueryAllocation f index s = _ from e) h
  | queryTotals f index => exact queryRequest_keeps K (show execQueryTotals f index s = _ from e) h
  | queryExportSchedule f index => exact queryRequest_keeps K (show execQueryExportSchedule f index s = _ from e) h
  | queryContractItem f name => exact execQueryContractItem_keeps K e h
  | queryProposalTable f index => exact queryRequest_keeps K (show execQueryProposalTable f index s = _ from e) h
  | queryClock f index => exact queryRequest_keeps K (show execQueryClock f index s = _ from e) h
  | queryIntegrityReport f index => exact queryRequest_keeps K (show execQueryIntegrityReport f index s = _ from e) h
  | queryIdentity f index => exact queryRequest_keeps K (show execQueryIdentity f index s = _ from e) h
  | mask f classes => exact served_keeps K (show execMask f classes s = _ from e) (setMask_keeps K _ classes) h
  | notice f => exact served_keeps K (show execNotice f s = _ from e) (noticeBody_keeps K _) h
  | unknownRequest f code selector => exact execUnknownRequest_keeps K (selector := selector) e h
  | badFrame p raw => cases e; exact h
  | busyPortFrame p raw => cases e; exact h
  | responseSent p => cases e; exact K.ports h
  | storeWordError w => cases e; exact storeWordError_keeps K w h
  | backupSupplyLoss => exact execBackupSupplyLoss_keeps W e h

/-- The waiting commands are no elementary change: a step moves them, and a command does not. -/
theorem step_keeps (U : Upheld P) (e : step s = .next t) (h : P [] s)
    (queue : ∀ {s l}, P [] s → P [] { s with pending := l } := by intros; assumption) : P [] t := by
  unfold step at e
  split at e
  · cases e; exact tick_keeps U.kept queue h
  · exact exec_keeps U e (queue h)

end Sys2Proof.Proofs.Upkeep
end

section
/-! The conditions that an allocation event does not enter into: the field, the notices, the totals, the contract with its
table, the schedule and the store. -/

namespace Sys2Proof.Proofs.Upkeep

open Sys2Proof Sys2Proof.Machine Sys2Proof.Proofs.Notice

/-! ## What the stages of an event and a start-up leave alone -/

/-- The stages move consumer records, valve lines and the allocator alone (R54). -/
theorem planned_frame (s : State) (a : Nat) :
    ∃ sup ln, (plan a s).state = { s with supervisor := sup, lines := ln } := by
  refine ⟨(plan a s).state.supervisor, (plan a s).state.lines, ?_⟩
  have power := plan_power s a
  have free := plan_freeIndex s a
  have field := plan_field s a
  have metering := plan_metering s a
  have band := plan_band s a
  have allocator := plan_allocator s a
  have exports := plan_exports s a
  have contracts := plan_contracts s a
  have settlement := plan_settlement s a
  have store := plan_store s a
  have links := plan_links s a
  have pending := plan_pending s a
  generalize (plan a s).state = t at *
  cases t
  simp_all

/-- The part that begins to take events moves its pins, lines and flare demand alone (R174, R193). -/
theorem beginOperation_frame (s : State) : beginOperation s = { s with
    power := { s.power with running := true }, lines := (beginOperation s).lines
    allocator := (beginOperation s).allocator } := rfl

/-- What neither consumer records, output lines nor the allocator enter into is kept by the stages of an event. -/
theorem planned_of_frame {P : State → Prop}
    (blind : ∀ {s sup ln al}, P s → P { s with supervisor := sup, lines := ln, allocator := al }) {s : State} (a : Nat)
    (r : Allocation) (h : P s) : P (setResult r (plan a s).state) := by
  obtain ⟨sup, ln, moved⟩ := planned_frame s a
  rw [moved]
  exact blind (s := s) (al := { s.allocator with result := r }) h

/-! ## Channels and samples (O56) -/

theorem freshField_consistent {s : State} (h : s.field = freshField) : FieldConsistent s := by
  refine ⟨fun ch => ?_, fun k => ?_⟩
  · have fresh : channel s ch = freshChannel := by simp [channel, h, freshField]
    rw [fresh]
    exact ⟨rfl, rfl, rfl, fun _ => rfl, Nat.zero_le _, Nat.zero_le _⟩
  · have fresh : sample s k = freshSample := by simp [sample, h, freshField]
    rw [fresh]
    exact ⟨rfl, rfl, fun _ => rfl⟩

theorem field_kept : Bounds fun _ s => FieldConsistent s where
  field keep h := keep h
  plan h := planned_of_frame (P := FieldConsistent) (fun h => h) _ _ h

theorem field_upheld : Upheld fun _ s => FieldConsistent s :=
  field_kept.upheld {
    fresh := fun _ _ => freshField_consistent rfl
    begins := fun h => h }

/-! ## Notices and masks (O55) -/

theorem restartNotices_sound (kind : RestartKind) (k : Fin 10) : Sound (restartNotices kind)[k] := by
  revert k; cases kind <;> decide

theorem restartLinks_sound {s : State} {kind : RestartKind} (h : s.links = restartLinks kind) : NoticesSound s := by
  refine ⟨fun p k => ?_, fun p => ?_⟩
  · have fresh : s.links.notices[p] = restartNotices kind := by simp [h, restartLinks]
    rw [fresh]
    exact restartNotices_sound kind k
  · have fresh : s.links.masks[p] = restartMask := by simp [h, restartLinks]
    rw [fresh]
    exact ⟨rfl, rfl⟩

theorem notices_kept : Bounds fun _ s => NoticesSound s where
  attn _ _ keep h := keep h
  plan h := planned_of_frame (P := NoticesSound) (fun h => h) _ _ h

theorem notices_upheld : Upheld fun _ s => NoticesSound s :=
  notices_kept.upheld {
    relink := fun _ _ => restartLinks_sound rfl
    fresh := fun {s kind l} same h => by
      obtain rfl | rfl := same
      · exact h
      · exact restartLinks_sound rfl
    begins := fun h => h }

/-! ## Totals and remainders (O58) -/

theorem totals_kept : Bounds fun _ s => TotalsInRange s where
  metering keep h := keep h
  settlement archive _ _ _ h := ⟨h.1, h.2.1, fun r hr => h.2.2 r (archive ▸ hr)⟩
  plan h := planned_of_frame (P := TotalsInRange) (fun h => h) _ _ h
  ring mem _ h := ⟨h.1, h.2.1, fun r hr ch => by
    rcases mem r hr with old | closing
    · exact h.2.2 r old ch
    · rw [closing]; exact h.1 ch⟩

theorem coldTotals {s : State} (m : s.metering = coldMetering) (a : s.settlement.archive = []) : TotalsInRange s := by
  refine ⟨fun ch => ?_, fun ch => ?_, fun r hr => ?_⟩
  · have zero : s.metering.totals[ch] = 0 := by simp [m, coldMetering]
    rw [zero]
    exact Nat.zero_lt_succ _
  · have zero : s.metering.remainders[ch] = 0 := by simp [m, coldMetering]
    rw [zero]
    exact unitsPerWh_pos _
  · rw [a] at hr
    cases hr

theorem totals_upheld : Upheld fun _ s => TotalsInRange s :=
  totals_kept.upheld {
    lose := fun _ => coldTotals rfl rfl
    init := fun _ => coldTotals rfl rfl
    begins := fun h => h }

/-! ## The contract and the proposal table (O59) -/

abbrev ContractSound (s : State) : Prop := ContractInRange s ∧ ProposalsSound s

theorem inRange_writeItem {s : State} {i : Item} {v : Int} (range : itemInRange i v = true) (h : ContractInRange s) :
    ContractInRange { s with contracts := { s.contracts with contract := writeItem s.contracts.contract i v } } := by
  intro j
  by_cases same : j = i
  · subst same
    exact (congrArg (itemInRange j · = true) (readItem_writeItem_same ..)).mpr range
  · exact (congrArg (itemInRange j · = true) (readItem_writeItem_ne _ same _)).mpr (h j)

theorem contract_kept : Bounds fun _ s => ContractSound s where
  item range h := ⟨inRange_writeItem (range h.2) h.1, h.2⟩
  table same keep h := ⟨fun i => by rw [item, same]; exact h.1 i, keep h.2⟩
  plan h := planned_of_frame (P := ContractSound) (fun h => h) _ _ h

theorem readItem_coldContract (i : Item) : readItem coldContract i = itemDefault i := by
  cases i <;> simp [readItem, coldContract, itemDefault]

theorem coldContract_sound {s : State} (contract : s.contracts.contract = coldContract)
    (proposals : s.contracts.proposals = []) (next : s.contracts.nextProposal = 1) : ContractSound s := by
  refine ⟨fun i => ?_, ?_⟩
  · rw [item, contract, readItem_coldContract]
    exact itemDefault_inRange i
  · simp [ProposalsSound, proposals, next]

theorem contract_upheld : Upheld fun _ s => ContractSound s :=
  contract_kept.upheld {
    lose := fun _ => coldContract_sound rfl rfl rfl
    init := fun _ => coldContract_sound rfl rfl rfl
    begins := fun h => h }

/-! ## The schedule list (O60) -/

theorem schedule_kept : Bounds fun _ s => ScheduleOrdered s where
  schedule keep h := keep h
  settlement _ clock _ _ h := ⟨h.1, h.2.1, fun none => h.2.2 (Option.isNone_iff_eq_none.1 (by
    rw [← Option.not_isSome, ← clock, none]; rfl))⟩
  plan h := planned_of_frame (P := ScheduleOrdered) (fun h => h) _ _ h
  ring _ clock h := ⟨h.1, h.2.1, fun none => h.2.2 (by
    refine Classical.byContradiction fun running => ?_
    have := clock (Option.isSome_iff_ne_none.2 running)
    rw [none] at this
    cases this)⟩

theorem emptySchedule_ordered {s : State} (h : s.exports.schedule = []) : ScheduleOrdered s := by
  simp [ScheduleOrdered, h]

theorem schedule_upheld : Upheld fun _ s => ScheduleOrdered s :=
  schedule_kept.upheld {
    lose := fun _ => emptySchedule_ordered rfl
    init := fun _ => emptySchedule_ordered rfl
    begins := fun h => h }

/-! ## The store's errors and counts (O60) -/

theorem store_kept : Bounds fun _ s => StoreSound s where
  store keep h := keep h
  plan h := planned_of_frame (P := StoreSound) (fun h => h) _ _ h

theorem loseStore_inOrder (s : State) : errorsInOrder (loseStore s).store.errors = true := by
  simp only [loseStore, useFree]
  exact lostErrors_in_order _

theorem storeSound_loseStore {s : State} (h : StoreSound s) : StoreSound (loseStore s) := by
  obtain ⟨_, position, _⟩ := h
  refine ⟨loseStore_inOrder s, ?_, ?_, ?_, ?_⟩
  · simpa only [loseStore, useFree, initialiseStore] using position
  · simp only [loseStore, useFree, initialiseStore, coldReport]; decide
  · simp only [loseStore, useFree, initialiseStore, coldReport]; decide
  · simp only [loseStore, useFree, initialiseStore, coldReport]; decide

theorem store_upheld : Upheld fun _ s => StoreSound s :=
  store_kept.upheld {
    lose := storeSound_loseStore
    init := fun h => ⟨errorsInOrder_filter _ h.1, h.2.1, Nat.zero_le _, Nat.zero_le _, Nat.zero_le _⟩
    fresh := fun _ h => ⟨h.1, Nat.zero_lt_succ 16383, h.2.2⟩
    begins := fun h => h }

end Sys2Proof.Proofs.Upkeep
end

section
/-! The output lines follow the states behind them (R45, R75, R189, R193). -/

namespace Sys2Proof.Proofs.Upkeep

open Sys2Proof Sys2Proof.Machine Sys2Proof.Proofs.Notice

variable {s : State}

/-! ## Valve lines -/

theorem follows_tend {c : Fin 8} {r : Consumer} (same : r.state = (consumer s c).state) (h : LinesFollow s) :
    LinesFollow (setConsumer c r s) := by
  obtain ⟨gas, backup, flare, attn⟩ := h
  have states (d : Fin 8) : (consumer (setConsumer c r s) d).state = (consumer s d).state := by
    by_cases at_ : d = c
    · subst at_; rw [consumer_setConsumer_same, same]
    · rw [consumer_setConsumer_ne at_]
  exact ⟨fun d => (gas d).trans (by rw [states]; rfl), fun d => (backup d).trans (by rw [states]; rfl), flare, attn⟩

theorem follows_put (c : Fin 8) (r : Consumer) (h : LinesFollow s) : LinesFollow (putConsumer c r s) := by
  obtain ⟨gas, backup, flare, attn⟩ := h
  refine ⟨fun d => ?_, fun d => ?_, flare, attn⟩
  · by_cases at_ : d = c
    · subst at_; exact Vector.getElem_set_self ..
    · rw [consumer_putConsumer_ne at_]; exact (getElem_set_fin _ at_ _).trans (gas d)
  · by_cases at_ : d = c
    · subst at_; exact Vector.getElem_set_self ..
    · rw [consumer_putConsumer_ne at_]; exact (getElem_set_fin _ at_ _).trans (backup d)

/-- The stages of an event move consumers alone: their records within a state, or with their valve lines. -/
theorem plan_of_parts {P : State → Prop} (tend : ∀ {s c r}, r.state = (consumer s c).state → P s → P (setConsumer c r s))
    (put : ∀ {s c r}, P s → P (putConsumer c r s)) (a : Nat) (h : P s) : P (plan a s).state := by
  have reserved : P (reserve a s).state := foldl_induct (fun x : Reserving => P x.state) _ _ (fun x c _ hx => by
    unfold reserveOne
    split
    · exact tend rfl hx
    · exact tend rfl hx) _ h
  have shed : P (if a < floorSum (reserve a s).state then shedding a (reserve a s).state else ((reserve a s).state, [])).1 := by
    split
    · exact foldl_induct (fun x : State × List (Fin 8) => P x.1) _ _ (fun x c _ hx => by
        unfold shedOne
        split
        · exact put hx
        · exact hx) _ reserved
    · exact reserved
  unfold plan
  extract_lets r x
  change P x.1 at shed
  clear_value x
  split
  · exact shed
  · unfold planServed
    split
    · exact put shed
    · exact shed

theorem follows_plan (a : Nat) (h : LinesFollow s) : LinesFollow (plan a s).state :=
  plan_of_parts follows_tend (fun {_ c r} => follows_put c r) a h

/-! ## Attention lines and FLARE_EN -/

theorem follows_refreshAttn {p : Party} {l : LinkUnit}
    (others : ∀ q, q ≠ partyIndex p → l.notices[q] = s.links.notices[q] ∧ l.masks[q] = s.links.masks[q]) (h : LinesFollow s) :
    LinesFollow (refreshAttn p { s with links := l }) := by
  obtain ⟨gas, backup, flare, attn⟩ := h
  refine ⟨gas, backup, flare, fun q => ?_⟩
  by_cases same : q = partyIndex p
  · subst same; exact Vector.getElem_set_self ..
  · obtain ⟨notices, masks⟩ := others q same
    have was := attn q
    rw [← notices, ← masks] at was
    exact (getElem_set_fin _ same _).trans was

/-- A stopped part with every line low drives no line (R193). -/
theorem follows_stopped (stopped : s.power.running = false) (low : s.lines = lowLines) : LinesFollow s := by
  refine ⟨fun c => ?_, fun c => ?_, ?_, fun p => ?_⟩ <;> simp [stopped, low, lowLines]

theorem follows_relink (stopped : s.power.running = false) (l : LinkUnit) (h : LinesFollow s) :
    LinesFollow { s with links := l } := by
  obtain ⟨gas, backup, flare, attn⟩ := h
  refine ⟨gas, backup, flare, fun p => (attn p).trans ?_⟩
  simp [stopped]

/-! ## The start of operation (R174) -/

/-- A consumer's valve lines follow its state. -/
abbrev ValvesFollow (s : State) (c : Fin 8) : Prop :=
  s.lines.gasEn[c] = (s.power.running && (consumer s c).state == .active) ∧
  s.lines.backupEn[c] = (s.power.running && (consumer s c).state == .backup)

theorem valvesFollow_refreshValves {c d : Fin 8} (h : c = d ∨ ValvesFollow s c) : ValvesFollow (refreshValves d s) c := by
  by_cases same : c = d
  · subst same; exact ⟨Vector.getElem_set_self .., Vector.getElem_set_self ..⟩
  · obtain ⟨gas, backup⟩ := h.resolve_left same
    exact ⟨(getElem_set_fin _ same _).trans gas, (getElem_set_fin _ same _).trans backup⟩

/-- The valve lines of every consumer of a list follow once they have been refreshed. -/
theorem valvesFollow_foldl (l : List (Fin 8)) {c : Fin 8} (h : c ∈ l ∨ ValvesFollow s c) :
    ValvesFollow (l.foldl (fun s c => refreshValves c s) s) c := by
  induction l generalizing s with
  | nil => exact h.resolve_left List.not_mem_nil
  | cons d rest ih =>
    refine ih ?_
    rcases h with mem | now
    · rcases List.mem_cons.1 mem with same | later
      · exact .inr (valvesFollow_refreshValves (.inl same))
      · exact .inl later
    · exact .inr (valvesFollow_refreshValves (.inr now))

/-- A party's attention line follows its pending, unmasked classes. -/
abbrev AttnFollows (s : State) (q : Fin 3) : Prop :=
  s.lines.attn[q] = (s.power.running && attnCalled s.links.notices[q] s.links.masks[q])

theorem attnFollows_refreshAttn {p : Party} {q : Fin 3} (h : q = partyIndex p ∨ AttnFollows s q) :
    AttnFollows (refreshAttn p s) q := by
  by_cases same : q = partyIndex p
  · subst same; exact Vector.getElem_set_self ..
  · exact (getElem_set_fin _ same _).trans (h.resolve_left same)

/-- The lines follow once FLARE_EN and the valve lines do and every attention line has been refreshed. -/
theorem follows_refreshAll (valves : ∀ c, ValvesFollow s c)
    (flare : s.lines.flareEn = (s.power.running && decide (0 < s.allocator.result.flareDemand))) :
    LinesFollow ([Party.works, .town, .grid].foldl (fun s p => refreshAttn p s) s) := by
  refine ⟨fun c => (valves c).1, fun c => (valves c).2, flare, fun q => ?_⟩
  match q with
  | 0 => exact attnFollows_refreshAttn (.inr (attnFollows_refreshAttn (.inr (attnFollows_refreshAttn (.inl rfl)))))
  | 1 => exact attnFollows_refreshAttn (.inr (attnFollows_refreshAttn (.inl rfl)))
  | 2 => exact attnFollows_refreshAttn (.inl rfl)

theorem valvesFollow_setFlare {kw : Nat} {c : Fin 8} (h : ValvesFollow s c) : ValvesFollow (setFlare kw s) c := h

theorem follows_beginOperation (s : State) : LinesFollow (beginOperation s) := by
  have valves (c : Fin 8) := valvesFollow_foldl (s := { s with power := { s.power with running := true } })
    (List.finRange 8) (.inl (List.mem_finRange c))
  unfold beginOperation
  dsimp only
  generalize (List.finRange 8).foldl _ _ = t at valves ⊢
  exact follows_refreshAll (fun c => valvesFollow_setFlare (valves c)) rfl

/-! ## The condition (O55) -/

theorem follows_setResult {r : Allocation} (flare : r.flareDemand = s.allocator.result.flareDemand) (h : LinesFollow s) :
    LinesFollow (setResult r s) :=
  ⟨h.1, h.2.1, h.2.2.1.trans (by rw [← flare]; rfl), h.2.2.2⟩

theorem lines_kept : Bounds fun _ s => LinesFollow s where
  attn _ others _ h := follows_refreshAttn others h
  allocator result h := ⟨h.1, h.2.1, h.2.2.1.trans (by rw [result]), h.2.2.2⟩
  flare h := ⟨h.1, h.2.1, rfl, h.2.2.2⟩
  plan {_ s} h := follows_setResult (by rw [plan_allocator]; rfl) (follows_plan (availableRate s) h)
  tend same _ _ h := follows_tend same h
  put _ _ h := follows_put _ _ h
  move _ _ h := follows_tend rfl (follows_put _ _ h)
  nomination h := follows_tend rfl h

/-- The loss and the initialisation of the store leave every consumer's state alone (R173, R175). -/
theorem follows_initialiseStore (h : LinesFollow s) : LinesFollow (initialiseStore s) := by
  have states (c : Fin 8) : (consumer (initialiseStore s) c).state = (consumer s c).state := by
    simp [consumer, initialiseStore]
  obtain ⟨gas, backup, flare, attn⟩ := h
  exact ⟨fun d => (gas d).trans (by rw [states]; rfl), fun d => (backup d).trans (by rw [states]; rfl), flare, attn⟩

theorem follows_loseStore (h : LinesFollow s) : LinesFollow (loseStore s) := by
  obtain ⟨gas, backup, flare, attn⟩ := follows_initialiseStore h
  exact ⟨gas, backup, flare, attn⟩

theorem lines_upheld : Upheld fun _ s => LinesFollow s :=
  lines_kept.upheld {
    stop := fun stopped _ => follows_stopped stopped rfl
    lose := follows_loseStore
    relink := fun stopped h => follows_relink stopped _ h
    init := follows_initialiseStore
    fresh := fun _ _ => follows_stopped rfl rfl
    begins := fun {s} _ => follows_beginOperation s }

end Sys2Proof.Proofs.Upkeep
end

section
/-! What a settlement boundary makes of the ring, its cursors, the clock and the open record; one record is open exactly while
the clock runs (R149, R150, R155). -/

namespace Sys2Proof.Proofs.Upkeep

open Sys2Proof Sys2Proof.Machine

variable {s : State}

/-! ## A record joins the ring (R155) -/

/-- The records that a further one joins: the oldest of a full ring gives way. -/
def keptRecords (s : State) : List ArchiveRecord :=
  if s.settlement.archive.length < Config.archiveCapacity then s.settlement.archive else s.settlement.archive.drop 1

/-- The oldest record number of the ring once a record has joined it. -/
def oldestJoined (r : ArchiveRecord) (s : State) : Nat := ((keptRecords s).head?.getD r).number

/-- A party's cursor once a record has joined the ring. -/
def cursorJoined (r : ArchiveRecord) (s : State) (p : Fin 3) : Nat :=
  if s.settlement.archive.isEmpty then r.number else max s.settlement.cursors[p] (oldestJoined r s)

/-- A party's gap mark once a record has joined the ring. -/
def gapJoined (r : ArchiveRecord) (s : State) (p : Fin 3) : Bool :=
  s.settlement.gapMarks[p] || (!s.settlement.archive.isEmpty && decide (s.settlement.cursors[p] < oldestJoined r s))

theorem passRecord_settlement (r : ArchiveRecord) (empty : Bool) (s : State) (p : Party) :
    (passRecord r empty s p).settlement = { s.settlement with
      cursors := s.settlement.cursors.set (partyIndex p)
        (if empty then r.number else max s.settlement.cursors[partyIndex p] (oldestNumber s))
      gapMarks := s.settlement.gapMarks.set (partyIndex p) (s.settlement.gapMarks[partyIndex p] ||
        (!empty && decide (s.settlement.cursors[partyIndex p] < oldestNumber s))) } := by
  unfold passRecord
  cases empty with
  | true => simp [setCursor, wrote, setErrors]
  | false =>
    rw [if_neg Bool.false_ne_true, if_neg Bool.false_ne_true, Bool.not_false, Bool.true_and]
    unfold moveCursor
    split
    next below =>
      rw [Nat.max_eq_right (Nat.le_of_lt below), decide_eq_true below, Bool.or_true]
      rfl
    next within =>
      rw [Nat.max_eq_left (Nat.not_lt.1 within), decide_eq_false within, Bool.or_false]
      simp

/-- The ring with the record that has joined it. -/
def joinedRing (r : ArchiveRecord) (s : State) : Settlement :=
  { s.settlement with
    archive := keptRecords s ++ [r], cursors := Vector.ofFn (cursorJoined r s), gapMarks := Vector.ofFn (gapJoined r s) }

theorem oldestNumber_joined {t : State} {r : ArchiveRecord} (h : t.settlement.archive = keptRecords s ++ [r]) :
    oldestNumber t = oldestJoined r s := by
  unfold oldestNumber oldestJoined
  rw [h]
  cases keptRecords s <;> rfl

theorem writeArchive_settlement (r : ArchiveRecord) (s : State) : (writeArchive r s).settlement = joinedRing r s := by
  unfold writeArchive
  extract_lets _ _ t
  have ring : t.settlement = { s.settlement with archive := keptRecords s ++ [r] } := rfl
  clear_value t
  have oldest {u : State} (h : u.settlement.archive = t.settlement.archive) : oldestNumber u = oldestJoined r s :=
    oldestNumber_joined (h.trans (by rw [ring]))
  have passed (u : State) (p : Party) (h : u.settlement.archive = t.settlement.archive) :=
    (passRecord_settlement r s.settlement.archive.isEmpty u p).trans (by rw [oldest h])
  have first := passed t .works rfl
  have second := passed (passRecord r s.settlement.archive.isEmpty t .works) .town (by rw [first])
  have third := passed _ .grid (show _ = t.settlement.archive by rw [second, first])
  show State.settlement _ = _
  refine third.trans ?_
  rw [second, first, ring]
  refine (congrArg (fun c => ({ s.settlement with archive := keptRecords s ++ [r], cursors := c, gapMarks := _ } : Settlement)) ?_).trans
    (congrArg (fun g => ({ s.settlement with archive := keptRecords s ++ [r], cursors := _, gapMarks := g } : Settlement)) ?_)
  · ext p hp
    obtain rfl | rfl | rfl : p = 0 ∨ p = 1 ∨ p = 2 := by omega
    all_goals simp [cursorJoined, partyIndex]
  · ext p hp
    obtain rfl | rfl | rfl : p = 0 ∨ p = 1 ∨ p = 2 := by omega
    · simp [gapJoined, partyIndex]; rfl
    · simp [gapJoined, partyIndex]
    · simp [gapJoined, partyIndex]

theorem setAccounts_settlement (g h : Account) (s : State) : (setGasAccount g (setHeatAccount h s)).settlement =
    { s.settlement with heatAccount := h, gasAccount := g } := rfl

theorem joinedRing_setAccounts (r : ArchiveRecord) (g h : Account) (s : State) :
    joinedRing r (setGasAccount g (setHeatAccount h s)) =
      { joinedRing r s with heatAccount := h, gasAccount := g } := by
  have kept : keptRecords (setGasAccount g (setHeatAccount h s)) = keptRecords s := by
    unfold keptRecords; rw [setAccounts_settlement]
  have cursor : cursorJoined r (setGasAccount g (setHeatAccount h s)) = cursorJoined r s := by
    funext p; simp only [cursorJoined, oldestJoined, kept, setAccounts_settlement]
  have gap : gapJoined r (setGasAccount g (setHeatAccount h s)) = gapJoined r s := by
    funext p; unfold gapJoined oldestJoined; rw [kept, setAccounts_settlement]
  simp only [joinedRing, kept, cursor, gap, setAccounts_settlement]

/-- The settlement once a boundary has closed the open record: ring, cursors and accounts (R151). -/
theorem closeRecord_settlement (k : Boundary) (o : OpenRecord) (s : State) :
    (closeRecord k o s).settlement = { joinedRing (archiveRecord k s o) s with
      heatAccount := (archiveRecord k s o).heatAccount, gasAccount := (archiveRecord k s o).gasAccount } := by
  unfold closeRecord
  rw [writeArchive_settlement, joinedRing_setAccounts]

/-! ## What the opening of the next record leaves of the settlement -/

theorem applyEntry_settlement (x : Applying) (e : Proposal) :
    (applyEntry x e).state.settlement = x.state.settlement ∧ (applyEntry x e).state.exports = x.state.exports := by
  unfold applyEntry
  split
  · exact ⟨rfl, rfl⟩
  · split
    · exact ⟨rfl, rfl⟩
    · split <;> simp

theorem applyStaged_settlement (s : State) :
    (applyStaged s).settlement = s.settlement ∧ (applyStaged s).exports = s.exports := by
  have applied : (applyEntries s).state.settlement = s.settlement ∧ (applyEntries s).state.exports = s.exports :=
    foldl_induct (fun x : Applying => x.state.settlement = s.settlement ∧ x.state.exports = s.exports) _ _
      (fun x e _ hx => ⟨(applyEntry_settlement x e).1.trans hx.1, (applyEntry_settlement x e).2.trans hx.2⟩) _ ⟨rfl, rfl⟩
  unfold applyStaged
  dsimp only
  split <;> simpa [setProposals, setProposalsFrom, bumpRevision] using applied

theorem removeUnaligned_settlement (old : Nat) (s : State) : (removeUnaligned old s).settlement = s.settlement := by
  unfold removeUnaligned
  split
  · rfl
  · simp [setSchedule, setScheduleFrom]

theorem makeLatch_latch (start : Nat) (s : State) : (makeLatch start s).exports.latch = some (latchFor s start) := by
  simp [makeLatch, setSchedule, setScheduleFrom, setLatch]

theorem openRecord_settlement (k : Boundary) (start : Nat) (changed : Bool) (s : State) :
    (openRecord k start changed s).settlement = { s.settlement with
      openRecord := some (newRecord k start changed s), nextRecord := s.settlement.nextRecord + 1
      cursors := cursorsAt s (s.settlement.nextRecord + 1) } := by
  unfold openRecord
  rw [setNextRecord_settlement, wroteAll_settlement]
  simp only [cursorsAt, wroteAll_settlement]

theorem openRecord_exports (k : Boundary) (start : Nat) (changed : Bool) (s : State) :
    (openRecord k start changed s).exports = s.exports := by
  simp [openRecord]

theorem moveClock_settlement (k : Boundary) (s : State) :
    ∃ c m, (moveClock k s).settlement = { s.settlement with clock := c, clockMillis := m } ∧
      (c.isSome = true ∨ c = s.settlement.clock ∧ (k = .regular ∨ k = .outage)) := by
  have set (t : Nat) : ∃ c, (setClock t s).settlement = { s.settlement with clock := some c } := by
    unfold setClock
    split
    · exact ⟨_, rfl⟩
    · exact ⟨_, rfl⟩
  cases k with
  | regular => exact ⟨_, _, rfl, .inr ⟨rfl, .inl rfl⟩⟩
  | outage => exact ⟨_, _, rfl, .inr ⟨rfl, .inr rfl⟩⟩
  | step t =>
    obtain ⟨c, e⟩ := set t
    exact ⟨some c, s.settlement.clockMillis, e, .inl rfl⟩
  | first t =>
    obtain ⟨c, e⟩ := set t
    refine ⟨some c, 0, ?_, .inl rfl⟩
    simp only [moveClock, e]

/-! ## The condition at a boundary -/

/-- A state in which a boundary may open a record: the ring is in order, and the next record number follows it. -/
structure Closed (s : State) : Prop where
  length  : s.settlement.archive.length ≤ Config.archiveCapacity
  consec  : consecutive (s.settlement.archive.map (·.number)) = true
  next    : s.settlement.archive ≠ [] → s.settlement.nextRecord = newestPlusOne s
  cursors : ∀ p : Fin 3, oldestNumber s ≤ s.settlement.cursors[p] ∧ s.settlement.cursors[p] ≤ newestPlusOne s

abbrev Ordered (s : State) : Prop := OneOpenRecord s ∧ ArchiveOrdered s

theorem ordered_of_same {t : State} (settlement : t.settlement = s.settlement) (exports : t.exports = s.exports)
    (h : Ordered s) : Ordered t := by
  have oldest : oldestNumber t = oldestNumber s := by unfold oldestNumber; rw [settlement]
  have newest : newestPlusOne t = newestPlusOne s := by unfold newestPlusOne; rw [settlement]
  simpa only [Ordered, OneOpenRecord, ArchiveOrdered, settlement, exports, oldest, newest] using h

/-- What the opening of a record makes of a state ready for it (R150, R155). -/
theorem ordered_opened {t : State} {o : OpenRecord} (h : Closed s) (opened : t.settlement = { s.settlement with
      clock := t.settlement.clock, clockMillis := t.settlement.clockMillis
      openRecord := some o, nextRecord := s.settlement.nextRecord + 1
      cursors := cursorsAt s (s.settlement.nextRecord + 1) })
    (number : o.number = s.settlement.nextRecord) (clock : t.settlement.clock.isSome = true)
    (latch : t.exports.latch.isSome = true) : Ordered t := by
  obtain ⟨length, consec, next, cursors⟩ := h
  have archive : t.settlement.archive = s.settlement.archive := by rw [opened]
  have isOpen : t.settlement.openRecord = some o := by rw [opened]
  have nextIs : t.settlement.nextRecord = s.settlement.nextRecord + 1 := by rw [opened]
  refine ⟨⟨by rw [isOpen, clock]; rfl, by rw [latch, clock], fun o' e => ?_, fun none => ?_⟩, by rw [archive]; exact length,
    by rw [archive]; exact consec, fun _ => clock, fun o' e ne => ?_, ?_⟩
  · obtain rfl : o = o' := by simpa [isOpen] using e
    rw [nextIs, number]
  · rw [none] at clock; cases clock
  · obtain rfl : o = o' := by simpa [isOpen] using e
    rw [archive] at ne
    rw [number, next ne, (ends_of_ne archive ne).2]
  · exact cursorsAt_within archive (by rw [nextIs, opened]) cursors

theorem ordered_openInterval (k : Boundary) (h : Closed s)
    (running : s.settlement.clock.isSome = true ∨ (k ≠ .regular ∧ k ≠ .outage)) : Ordered (openInterval k s) := by
  obtain ⟨c, m, moved, set⟩ := moveClock_settlement k s
  have clock : c.isSome = true := by
    rcases set with some | ⟨same, regular | outage⟩
    · exact some
    · rw [same]; exact running.resolve_right fun h => h.1 regular
    · rw [same]; exact running.resolve_right fun h => h.2 outage
  have ready : Closed (moveClock k s) := by
    obtain ⟨length, consec, next, cursors⟩ := h
    refine ⟨?_, ?_, ?_, ?_⟩ <;> simp only [oldestNumber, newestPlusOne, moved]
    · exact length
    · exact consec
    · exact next
    · exact cursors
  have opened (start : Nat) (changed : Bool) (len : Nat) :
      let u := makeLatch (regularStart (intervalLength (applyStaged (moveClock k s))) start)
        (removeUnaligned len (applyStaged (moveClock k s)))
      Ordered (openRecord k start changed u) ∧ (openRecord k start changed u).settlement.clock = c := by
    intro u
    have same : u.settlement = (moveClock k s).settlement := by
      rw [makeLatch_settlement, removeUnaligned_settlement, (applyStaged_settlement _).1]
    have settled := openRecord_settlement k start changed u
    have latched : (openRecord k start changed u).exports.latch.isSome = true := by
      rw [openRecord_exports, makeLatch_latch]; rfl
    clear_value u
    refine ⟨ordered_opened (o := newRecord k start changed u) ready ?_ ?_ ?_ latched, ?_⟩
    · rw [settled, same]; simp only [cursorsAt, same]
    · rw [← same]; rfl
    · rw [settled, same, moved]; exact clock
    · rw [settled, same, moved]
  unfold openInterval
  dsimp only
  split
  · exact (opened _ _ _).1
  · exact ordered_of_same (resetRecovery_settlement _) (resetRecovery_exports _) (opened _ _ _).1

end Sys2Proof.Proofs.Upkeep
end

section
/-! Every step keeps one open record and the ring in order (R149, R150, R155). -/

namespace Sys2Proof.Proofs.Upkeep

open Sys2Proof Sys2Proof.Machine

variable {s : State}

/-! ## Consecutive numbers -/

theorem consecutive_tail {a : Nat} {l : List Nat} (h : consecutive (a :: l) = true) : consecutive l = true := by
  cases l with
  | nil => rfl
  | cons b l => exact (Bool.and_eq_true_iff.1 h).2

theorem consecutive_drop (l : List Nat) (n : Nat) (h : consecutive l = true) : consecutive (l.drop n) = true := by
  induction n generalizing l with
  | zero => exact h
  | succ n ih =>
    cases l with
    | nil => rfl
    | cons a l => exact ih l (consecutive_tail h)

theorem consecutive_append {l : List Nat} {b : Nat} (h : consecutive l = true) (next : ∀ a, l.getLast? = some a → b = a + 1) :
    consecutive (l ++ [b]) = true := by
  induction l with
  | nil => rfl
  | cons a l ih =>
    cases l with
    | nil => simpa [consecutive] using next a rfl
    | cons c l =>
      obtain ⟨step, rest⟩ := Bool.and_eq_true_iff.1 h
      exact Bool.and_eq_true_iff.2 ⟨step, ih rest fun a e => next a (by rwa [List.getLast?_cons_cons])⟩

/-! ## The closing of the open record (R155) -/

theorem newestPlusOne_of_append {t : State} {l : List ArchiveRecord} {r : ArchiveRecord}
    (h : t.settlement.archive = l ++ [r]) : newestPlusOne t = r.number + 1 := by
  simp [newestPlusOne, h]

/-- The last of the records kept is the newest of the ring. -/
theorem getLast_keptRecords {a : ArchiveRecord} (h : (keptRecords s).getLast? = some a) :
    s.settlement.archive.getLast? = some a := by
  unfold keptRecords at h
  split at h
  · exact h
  next full =>
    rw [List.getLast?_drop] at h
    split at h
    · cases h
    · exact h

/-- The oldest record of the ring lies at or after the oldest before a record has joined (R155). -/
theorem oldestJoined_le {o : OpenRecord} {r : ArchiveRecord} (number : r.number = o.number)
    (consec : consecutive (s.settlement.archive.map (·.number)) = true)
    (newest : s.settlement.archive ≠ [] → o.number = newestPlusOne s) :
    oldestJoined r s ≤ r.number := by
  unfold oldestJoined
  cases head : (keptRecords s).head? with
  | none => exact Nat.le_refl _
  | some a =>
    have mem : a ∈ s.settlement.archive := by
      have inKept := List.mem_of_head? head
      unfold keptRecords at inKept
      split at inKept
      · exact inKept
      · exact List.mem_of_mem_drop inKept
    have := between_of_mem consec mem
    have := newest (List.ne_nil_of_mem mem)
    show a.number ≤ r.number
    omega

theorem closed_closeRecord (k : Boundary) {o : OpenRecord} (isOpen : s.settlement.openRecord = some o) (h : Ordered s) :
    Closed (closeRecord k o s) := by
  obtain ⟨⟨_, _, next, _⟩, length, consec, _, newest, cursors⟩ := h
  have settled := closeRecord_settlement k o s
  have number : (archiveRecord k s o).number = o.number := rfl
  generalize archiveRecord k s o = r at settled number
  generalize closeRecord k o s = t at settled
  have ring : t.settlement.archive = keptRecords s ++ [r] := by rw [settled]; rfl
  have newestIs := newestPlusOne_of_append ring
  have oldestIs := oldestNumber_joined ring
  have below := oldestJoined_le number consec (newest o isOpen)
  refine ⟨?_, ?_, fun _ => ?_, fun p => ?_⟩
  · rw [ring, List.length_append]
    unfold keptRecords
    split
    next room => exact room
    next full =>
      rw [List.length_drop]
      simp only [List.length_singleton]
      have : 0 < Config.archiveCapacity := by decide
      omega
  · rw [ring, List.map_append]
    refine consecutive_append ?_ fun a e => ?_
    · unfold keptRecords
      split
      · exact consec
      · rw [List.map_drop]; exact consecutive_drop _ _ consec
    · rw [List.getLast?_map] at e
      obtain ⟨last, some, rfl⟩ := Option.map_eq_some_iff.1 e
      have isLast := getLast_keptRecords some
      show r.number = last.number + 1
      rw [number, newest o isOpen (List.ne_nil_of_mem (List.mem_of_getLast? isLast))]
      simp only [newestPlusOne, isLast]
  · rw [newestIs, number, ← next o isOpen, settled]
    rfl
  · rw [newestIs, oldestIs]
    have cursor : t.settlement.cursors[p] = cursorJoined r s p := by rw [settled]; simp [joinedRing]
    rw [cursor]
    unfold cursorJoined
    split
    · omega
    next filled =>
      have ne : s.settlement.archive ≠ [] := by simpa using filled
      have := cursors p
      have := newest o isOpen ne
      omega

/-- A state without an open record has an empty ring, which every cursor stands at the next record number of (R155, R160). -/
theorem closed_unset (closed : s.settlement.openRecord = none) (h : Ordered s) : Closed s := by
  obtain ⟨⟨one, _, _, _⟩, length, consec, running, _, cursors⟩ := h
  refine ⟨length, consec, fun ne => ?_, cursors⟩
  have := running ne
  rw [← one, closed] at this
  cases this

/-! ## The condition (O58) -/

theorem ordered_kept : Kept fun _ s => Ordered s where
  latch latched h := ⟨⟨h.1.1, by rw [← h.1.2.1, latched]; rfl, h.1.2.2⟩, h.2⟩
  settlement _ _ _ keep h := keep h
  plan h := planned_of_frame (P := Ordered) (fun h => h) _ _ h

theorem ordered_boundary : BoundaryKeeps fun _ s => Ordered s := by
  intro L s k fits h
  have credited : Ordered (boundaryCredit k s) := by
    unfold boundaryCredit
    split
    · exact h
    · exact creditFlare_keeps ordered_kept (L := []) h
  have clock : (boundaryCredit k s).settlement.clock = s.settlement.clock := by
    unfold boundaryCredit
    split
    · rfl
    · unfold creditFlare onOpen
      split <;> rfl
  unfold Machine.boundary
  dsimp only
  generalize boundaryCredit k s = t at credited clock
  split
  next closed =>
    have unset : t.settlement.clock = none := by
      have := credited.1.1
      rw [closed] at this
      simpa using this.symm
    refine ordered_openInterval k (closed_unset closed credited) (.inr ?_)
    rw [clock] at unset
    cases k with
    | first t => exact ⟨nofun, nofun⟩
    | _ => exact absurd unset fits
  next o isOpen =>
    have running : t.settlement.clock.isSome = true := by rw [← credited.1.1, isOpen]; rfl
    exact raiseNotice_keeps ordered_kept (L := []) _ _ _ (ordered_openInterval k (closed_closeRecord k isOpen credited)
      (.inl (by rw [closeRecord_settlement]; exact running)))

theorem coldSettlement_ordered {s : State} (settlement : s.settlement = coldSettlement) (latch : s.exports.latch = none) :
    Ordered s := by
  have one : OneOpenRecord s := by simp [OneOpenRecord, settlement, latch, coldSettlement]
  refine ⟨one, ?_⟩
  simp [ArchiveOrdered, oldestNumber, newestPlusOne, settlement, coldSettlement, consecutive]

theorem ordered_upheld : Upheld fun _ s => Ordered s where
  kept := ordered_kept
  boundary := ordered_boundary
  powered := Restarts.powered ordered_kept ordered_boundary {
    lose := fun _ => coldSettlement_ordered rfl rfl
    init := fun _ => coldSettlement_ordered rfl rfl
    begins := fun h => h }

end Sys2Proof.Proofs.Upkeep
end

section
/-! The sums of an allocation event: what the stages give makes up the available rate, and no share exceeds its weight
(R50, R55 to R62). -/

namespace Sys2Proof.Proofs.Sums

open Sys2Proof Sys2Proof.Machine

/-! ## Shares (R60, R62) -/

/-- The slots that a selection takes from a list, counted over the list. -/
theorem sum_taken {l t : List (Fin 8)} (hl : l.Nodup) (ht : t.Sublist l) :
    (l.map fun c => if t.contains c then 1 else 0).sum = t.length := by
  have count : ∀ m : List (Fin 8), (m.map fun c => if t.contains c then 1 else 0).sum = (m.filter t.contains).length := by
    intro m
    induction m with
    | nil => rfl
    | cons c m ih =>
      rw [List.map_cons, List.sum_cons, ih, List.filter_cons]
      split
      · rw [List.length_cons, Nat.add_comm]
      · rw [Nat.zero_add]
  rw [count]
  refine ((List.perm_ext_iff_of_nodup (hl.filter _) (hl.sublist ht)).2 fun c => ?_).length_eq
  simpa using fun h => ht.subset h

theorem sum_add (f g : Fin 8 → Nat) (l : List (Fin 8)) :
    (l.map fun c => f c + g c).sum = (l.map f).sum + (l.map g).sum := Lists.sum_map_plus ..

section
variable (w : Fin 8 → Nat) (l : List (Fin 8)) (amount : Nat)

theorem sum_weighted : (l.map fun c => w c * amount).sum = (l.map w).sum * amount := Lists.sum_map_times ..

/-- The parts rounded down do not exceed the amount. -/
theorem sum_parts_le (pos : 0 < (l.map w).sum) : (l.map fun c => w c * amount / (l.map w).sum).sum ≤ amount := by
  generalize e : (l.map w).sum = total at pos ⊢
  have scaled : ∀ m : List (Fin 8), total * (m.map fun c => w c * amount / total).sum ≤ (m.map fun c => w c * amount).sum := by
    intro m
    induction m with
    | nil => exact Nat.le_refl _
    | cons c m ih =>
      simp only [List.map_cons, List.sum_cons, Nat.mul_add]
      exact Nat.add_le_add (Nat.mul_div_le ..) ih
  have := scaled l
  rw [sum_weighted, e] at this
  exact Nat.le_of_mul_le_mul_left this pos

/-- What rounding down leaves over does not exceed the number of slots of weight above 0. -/
theorem leftover_le (pos : 0 < (l.map w).sum) :
    amount ≤ (l.map fun c => w c * amount / (l.map w).sum).sum + (l.filter fun c => 0 < w c).length := by
  generalize e : (l.map w).sum = total at pos ⊢
  have scaled : ∀ m : List (Fin 8), (m.map fun c => w c * amount).sum ≤
      total * ((m.map fun c => w c * amount / total).sum + (m.filter fun c => 0 < w c).length) := by
    intro m
    induction m with
    | nil => exact Nat.zero_le _
    | cons c m ih =>
      have one := Nat.lt_mul_div_succ (w c * amount) pos
      simp only [List.map_cons, List.sum_cons, List.filter_cons]
      split
      · rw [List.length_cons]
        calc w c * amount + (m.map fun c => w c * amount).sum
            ≤ total * (w c * amount / total + 1) + _ := Nat.add_le_add (Nat.le_of_lt one) ih
          _ = _ := by rw [← Nat.mul_add]; congr 1; omega
      next zero =>
        have none : w c = 0 := by simpa using zero
        simpa [none] using ih
  have := scaled l
  rw [sum_weighted, e] at this
  exact Nat.le_of_mul_le_mul_left this pos

/-- The shares of an amount make it up (R60, R62). -/
theorem sum_shares (nodup : l.Nodup) (pos : 0 < (l.map w).sum) : (l.map (shares w l amount)).sum = amount := by
  have le := sum_parts_le w l amount pos
  have rest := leftover_le w l amount pos
  have each : ∀ c ∈ l, shares w l amount c = w c * amount / (l.map w).sum + (if ((l.filter fun c => 0 < w c).take
      (amount - (l.map fun c => w c * amount / (l.map w).sum).sum)).contains c then 1 else 0) := by
    intro c hc
    simp only [shares, List.contains_iff_mem.2 hc, if_true]
  rw [List.map_congr_left each, sum_add, sum_taken nodup ((List.take_sublist ..).trans List.filter_sublist),
    List.length_take]
  omega

end

/-- No share exceeds its weight where the amount does not exceed the weights (R60, R62). -/
theorem partOf_le {p : Fin 8 → Bool} {w : Fin 8 → Nat} {amount : Nat} (fits : amount ≤ sumOver p w) (c : Fin 8) :
    partOf p w amount c ≤ w c := by
  unfold partOf
  by_cases zero : w c = 0
  · simp [zero]
  · have pos : 0 < w c := Nat.pos_of_ne_zero zero
    rcases Nat.lt_or_eq_of_le fits with below | exact_
    · have : w c * amount / sumOver p w < w c := by
        rw [Nat.div_lt_iff_lt_mul (by omega)]
        exact Nat.mul_lt_mul_of_pos_left below pos
      split <;> omega
    · have total : ∀ d, w d * amount / sumOver p w ≤ w d := fun d => by
        rw [exact_]
        exact Nat.div_le_of_le_mul (Nat.le_of_eq (Nat.mul_comm ..))
      by_cases none : sumOver p w = 0
      · simp [none, exact_]
      · have full : sumOver p (fun d => w d * amount / sumOver p w) = amount := by
          have : (fun d => w d * amount / sumOver p w) = w := by
            funext d; rw [exact_]; exact Nat.mul_div_cancel _ (Nat.pos_of_ne_zero none)
          rw [this, exact_]
        rw [full, Nat.sub_self, if_neg (by omega), Nat.add_zero]
        exact total c

/-! ## Sums over the eight slots -/

theorem sum_filter (p : Fin 8 → Bool) (f : Fin 8 → Nat) (l : List (Fin 8)) :
    ((l.filter p).map f).sum = (l.map fun c => if p c = true then f c else 0).sum := by
  induction l with
  | nil => rfl
  | cons c l ih =>
    rw [List.filter_cons, List.map_cons, List.sum_cons]
    split
    · rw [List.map_cons, List.sum_cons, ih]
    · rw [ih, Nat.zero_add]

theorem sumVec_eq (v : Vector Nat 8) : sumVec v = ((List.finRange 8).map fun c => v[c]).sum := by
  unfold sumVec
  congr 1
  apply List.ext_getElem <;> simp

theorem sumVec_ofFn (f : Fin 8 → Nat) : sumVec (Vector.ofFn f) = ((List.finRange 8).map f).sum := by
  rw [sumVec_eq]
  simp

/-- One slot's figure replaced by another. -/
theorem sumVec_set (v : Vector Nat 8) (c : Fin 8) (x : Nat) : sumVec (v.set c x) + v[c] = sumVec v + x := by
  have replaced := Lists.sum_map_replaced (f := fun d : Fin 8 => v[d]) (g := fun d : Fin 8 => (v.set c x)[d])
    (List.nodup_finRange 8) (List.mem_finRange c) fun d other => getElem_set_fin v other x
  have own : (v.set c x)[c] = x := Vector.getElem_set_self ..
  rw [sumVec_eq, sumVec_eq]
  rwa [own] at replaced

end Sys2Proof.Proofs.Sums
end

section
/-! The invariants of the lines, the archive, the contract, the schedule and the store. -/

namespace Sys2Proof.Proofs.Upkeep

open Sys2Proof Sys2Proof.Machine

theorem follow_exclusive {s : State} (h : LinesFollow s) (c : Fin 8) :
    ¬ (s.lines.gasEn[c] = true ∧ s.lines.backupEn[c] = true) := by
  obtain ⟨gas, backup, -⟩ := h
  rw [gas c, backup c]
  cases (consumer s c).state <;> simp

/-- Settles O55: the lines and the notices are among what every elementary change keeps. -/
theorem linesFollowTheirStates : Obligations.LinesFollowTheirStates := by
  unfold Obligations.LinesFollowTheirStates
  refine ⟨fun s t h e => ?_, fun s t h e => step_keeps notices_upheld e h⟩
  have after : LinesFollow t := step_keeps lines_upheld e h
  exact ⟨after, follow_exclusive after⟩

/-- Settles O58: the open record, the ring and the totals are among what every elementary change keeps. -/
theorem archiveStaysOrdered : Obligations.ArchiveStaysOrdered := by
  unfold Obligations.ArchiveStaysOrdered
  exact ⟨fun s t one ordered e => step_keeps ordered_upheld e ⟨one, ordered⟩, fun s t h e => step_keeps totals_upheld e h⟩

/-- Settles O59: the items and the proposal table are among what every elementary change keeps. -/
theorem contractStaysInRange : Obligations.ContractStaysInRange := by
  unfold Obligations.ContractStaysInRange
  exact fun s t range sound e => step_keeps contract_upheld e ⟨range, sound⟩

/-- Settles O60: the schedule and the store's errors are among what every elementary change keeps. -/
theorem scheduleStaysOrdered : Obligations.ScheduleStaysOrdered := by
  unfold Obligations.ScheduleStaysOrdered
  exact ⟨fun s t h e => step_keeps schedule_upheld e h, fun s t h e => step_keeps store_upheld e h⟩

end Sys2Proof.Proofs.Upkeep
end

section
/-! Every step keeps the consumer records consistent (R58, R82, R87, R93, R97). -/

namespace Sys2Proof.Proofs.Upkeep

open Sys2Proof Sys2Proof.Machine

variable {s t : State} {c : Fin 8} {r : Consumer}

/-! ## The records that the stages of an event give (R58, R59, R61) -/

theorem isCandidate_iff : isCandidate s c = true ↔ (consumer s c).state = .purging ∧ (consumer s c).target = some .active := by
  simp [isCandidate]

theorem recordConsistent_holding (cand : isCandidate s c = true) (h : RecordConsistent (consumer s c)) :
    RecordConsistent (holding (consumer s c)) := by
  obtain ⟨st, tg⟩ := isCandidate_iff.1 cand
  obtain ⟨target, purge, -, draws, passing, causes, delay, count⟩ := h
  exact ⟨target, purge, by simp [holding, tg], draws, passing, causes, delay, count⟩

theorem recordConsistent_losing (cand : isCandidate s c = true) (h : RecordConsistent (consumer s c)) :
    RecordConsistent (losing s c) := by
  obtain ⟨st, tg⟩ := isCandidate_iff.1 cand
  obtain ⟨-, purge, -, draws, passing, causes, delay, count⟩ := h
  exact ⟨by simp [losing, st], purge, by simp only [losing]; split <;> rfl, draws, passing, causes, delay, count⟩

theorem noCauses_of_consistent (h : RecordConsistent r) (st : r.state ≠ .tripped) : r.causes = noCauses := by
  obtain ⟨-, -, -, -, -, causes, -⟩ := h
  have none : (r.causes != noCauses) = false := causes.trans (by simpa using st)
  simpa using none

theorem recordConsistent_shed (isLit : lit s c = true) (h : RecordConsistent (consumer s c)) :
    RecordConsistent (shedRecord s c) := by
  have active : (consumer s c).state = .active := by simpa [lit] using isLit
  have noCause := noCauses_of_consistent h (by simp [active])
  obtain ⟨-, -, -, -, -, -, delay, count⟩ := h
  have noDelay := delay (by simp [active])
  unfold shedRecord
  split
  · exact ⟨rfl, rfl, rfl, fun _ => ⟨rfl, rfl, rfl⟩, nofun, by simp [purging, noCause], fun _ => noDelay, count⟩
  · exact ⟨rfl, rfl, rfl, fun _ => ⟨rfl, rfl, rfl⟩, nofun, by simp [settled, noCause], fun _ => noDelay, count⟩

theorem recordConsistent_restored (waits : isWaiting s c = true) (h : RecordConsistent (consumer s c)) :
    RecordConsistent (restored s c) := by
  have still : (consumer s c).state ≠ .tripped := by rintro e; simp [isWaiting, e] at waits
  have noCause := noCauses_of_consistent h still
  obtain ⟨-, -, -, -, -, -, delay, count⟩ := h
  exact ⟨rfl, rfl, rfl, fun _ => ⟨rfl, rfl, rfl⟩, nofun, by simp [restored, purging, noCause], fun _ => delay still, count⟩

/-! ## The stages -/

theorem consumersConsistent_setConsumer (hr : RecordConsistent r) (h : ∀ d, d ≠ c → RecordConsistent (consumer s d)) :
    ConsumersConsistent (setConsumer c r s) := fun d => by
  by_cases e : d = c
  · rw [e, consumer_setConsumer_same]; exact hr
  · rw [consumer_setConsumer_ne e]; exact h d e

theorem consumersConsistent_putConsumer (hr : RecordConsistent r) (h : ConsumersConsistent s) :
    ConsumersConsistent (putConsumer c r s) := fun d => by
  by_cases e : d = c
  · rw [e, consumer_putConsumer_same]; exact hr
  · rw [consumer_putConsumer_ne e]; exact h d

theorem consumersConsistent_moved (hr : Placed r) (h : ConsumersConsistent s) :
    ConsumersConsistent (evaluate c (putConsumer c r s)) := by
  have put : consumer (putConsumer c r s) c = r := consumer_putConsumer_same c r s
  unfold evaluate
  refine consumersConsistent_setConsumer (recordConsistent_evaluated (put.symm ▸ hr)) fun d ne => ?_
  rw [consumer_putConsumer_ne ne]
  exact h d

theorem reserve_consistent (a : Nat) (h : ConsumersConsistent s) : ConsumersConsistent (reserve a s).state := fun c => by
  obtain ⟨candidates, others, -⟩ := reserve_spec a s
  cases cand : isCandidate s c
  · rw [(others c cand).1]; exact h c
  · have := candidates c cand
    split at this
    · rw [this.1]; exact recordConsistent_holding cand (h c)
    · rw [this.1]; exact recordConsistent_losing cand (h c)

theorem shedding_consistent (a : Nat) (h : ConsumersConsistent s) : ConsumersConsistent (shedding a s).1 := fun c => by
  have := shedding_spec a s c
  split at this
  next picked => rw [this.1]; exact recordConsistent_shed picked.1 (h c)
  next => rw [this.1]; exact h c

theorem planServed_consistent (a : Nat) (x : Reserving) (l : List (Fin 8)) (h : ConsumersConsistent s) :
    ConsumersConsistent (planServed a x s l).state := by
  unfold planServed
  split
  next c picked =>
    have waits : isWaiting s c = true := by
      split at picked
      · exact toRestore_waiting picked
      · exact nomatch picked
    exact consumersConsistent_putConsumer (recordConsistent_restored waits (h c)) h
  next => exact h

theorem plan_consistent (a : Nat) (h : ConsumersConsistent s) : ConsumersConsistent (plan a s).state := by
  have shed : ConsumersConsistent (if a < floorSum (reserve a s).state then shedding a (reserve a s).state
      else ((reserve a s).state, [])).1 := by
    split
    · exact shedding_consistent a (reserve_consistent a h)
    · exact reserve_consistent a h
  unfold plan
  simp only
  generalize (if a < floorSum (reserve a s).state then shedding a (reserve a s).state
    else ((reserve a s).state, [])) = x at shed ⊢
  split
  · exact shed
  · exact planServed_consistent _ _ _ shed

/-! ## Every step -/

theorem consumersConsistent_of_supervisor (same : t.supervisor.consumers = s.supervisor.consumers)
    (h : ConsumersConsistent s) : ConsumersConsistent t := fun c => by
  have : consumer t c = consumer s c := by simp only [consumer, same]
  rw [this]; exact h c

theorem consumersConsistent_setResult (a : Allocation) (h : ConsumersConsistent s) : ConsumersConsistent (setResult a s) := h

theorem consumers_kept : Bounds fun _ s => ConsumersConsistent s where
  plan h := consumersConsistent_setResult _ (plan_consistent _ h)
  tend {_ s c r} _ _ keep h := consumersConsistent_setConsumer (s := s) (keep (h c)).1 fun d _ => h d
  put {_ s c r} _ keep h := consumersConsistent_putConsumer (keep (h c)).1 h
  move {_ s c r} _ keep h := consumersConsistent_moved (keep (h c)).1 h
  nomination {_ s c n} h := consumersConsistent_setConsumer (s := s) (h c) fun d _ => h d

theorem freshConsumer_consistent (n : Nat) (mark : Bool) : RecordConsistent (freshConsumer n mark) :=
  ⟨rfl, rfl, rfl, fun _ => ⟨rfl, rfl, rfl⟩, nofun, by simp [freshConsumer], fun _ => rfl, Nat.zero_le _⟩

theorem initialiseStore_consistent (h : ConsumersConsistent s) : ConsumersConsistent (initialiseStore s) := fun c => by
  have record : consumer (initialiseStore s) c = { consumer s c with nomination := 0, damageMark := false } := by
    simp only [consumer, initialiseStore]
    exact Vector.getElem_ofFn ..
  rw [record]
  exact h c

theorem freshBlocks_consistent {kind : RestartKind} : ConsumersConsistent (freshBlocks kind s) := fun c => by
  have record : consumer (freshBlocks kind s) c = freshConsumer (consumer s c).nomination (consumer s c).damageMark := by
    simp only [consumer, freshBlocks, freshSupervisor]
    exact Vector.getElem_ofFn ..
  rw [record]
  exact freshConsumer_consistent ..

theorem beginOperation_consistent (h : ConsumersConsistent s) : ConsumersConsistent (beginOperation s) := by
  rw [beginOperation_frame]
  exact h

theorem consumers_upheld : Upheld fun _ s => ConsumersConsistent s :=
  consumers_kept.upheld {
    lose := fun {s} h => by
      have init := initialiseStore_consistent h
      unfold loseStore
      generalize initialiseStore s = t at init ⊢
      exact init
    init := initialiseStore_consistent
    fresh := fun {_ kind _} _ _ => freshBlocks_consistent (kind := kind)
    begins := beginOperation_consistent }

/-- Settles O56: the consumer records and the field's are among what every elementary change keeps. -/
theorem consumersStayConsistent : Obligations.ConsumersStayConsistent := by
  unfold Obligations.ConsumersStayConsistent
  exact ⟨fun s t h e => step_keeps consumers_upheld e h, fun s t h e => step_keeps field_upheld e h⟩

end Sys2Proof.Proofs.Upkeep
end

section
/-! What the stages of an allocation event give: grants, reservations and surplus that make up the available rate, each
grant within the demand (R50, R56, R58 to R62). -/

namespace Sys2Proof.Proofs.Sums

open Sys2Proof Sys2Proof.Machine

variable {s t : State} {a : Nat}

/-! ## Sums over picked slots -/

theorem sumOver_le {p q : Fin 8 → Bool} {f g : Fin 8 → Nat} (sub : ∀ c, p c = true → q c = true)
    (le : ∀ c, p c = true → f c ≤ g c) : sumOver p f ≤ sumOver q g := by
  unfold sumOver
  rw [sum_filter, sum_filter]
  refine Lists.sum_map_le fun c _ => ?_
  by_cases h : p c = true
  · rw [if_pos h, if_pos (sub c h)]; exact le c h
  · rw [if_neg h]; exact Nat.zero_le _

theorem sumVec_picked (p : Fin 8 → Bool) (f : Fin 8 → Nat) :
    sumVec (Vector.ofFn fun c => if p c = true then f c else 0) = sumOver p f := by
  rw [sumVec_ofFn, sumOver, sum_filter]

theorem shares_outside {w : Fin 8 → Nat} {l : List (Fin 8)} {amount : Nat} {c : Fin 8} (h : c ∉ l) :
    shares w l amount c = 0 := by
  unfold shares
  exact if_neg fun inside => h (List.contains_iff_mem.1 inside)

/-- What is shared among picked slots is shared whole (R60, R62). -/
theorem sum_shares_picked (p : Fin 8 → Bool) (w : Fin 8 → Nat) (amount : Nat) (pos : 0 < sumOver p w) :
    ((List.finRange 8).map (shares w ((List.finRange 8).filter p) amount)).sum = amount := by
  have whole := sum_shares w _ amount ((List.nodup_finRange 8).filter p) pos
  rw [sum_filter] at whole
  refine Eq.trans (congrArg List.sum (List.map_congr_left fun c hc => ?_)) whole
  split
  · rfl
  next out => exact shares_outside fun mem => out (List.mem_filter.1 mem).2

theorem sumVec_added (v : Vector Nat 8) (f : Fin 8 → Nat) :
    sumVec (Vector.ofFn fun c => v[c] + f c) = sumVec v + ((List.finRange 8).map f).sum := by
  rw [sumVec_ofFn, sumVec_eq, sum_add]

/-! ## Stages 3 and 5 -/

theorem sumVec_proRata (short : a < floorSum s) : sumVec (proRata a s) = a := by
  unfold proRata
  rw [sumVec_ofFn]
  exact sum_shares_picked (lit s) (litFloor s) a (Nat.zero_lt_of_lt short)

theorem nominationPass_balances (s : State) (x : Vector Nat 8 × Nat) (k : Nat) :
    sumVec (nominationPass s x k).1 + (nominationPass s x k).2 = sumVec x.1 + x.2 := by
  unfold nominationPass
  extract_lets slots want total
  split
  next fits =>
    have picked : ((List.finRange 8).map fun c => if slots.contains c = true then want c else 0).sum = total := by
      have member : ∀ c, slots.contains c = (classOf s c == k && lit s c) := fun c => by
        rw [Bool.eq_iff_iff, List.contains_iff_mem, List.mem_filter]
        simp
      simp only [member]
      exact (sum_filter (fun c => classOf s c == k && lit s c) want _).symm
    rw [sumVec_added, picked]
    omega
  next exceeds =>
    have pos : 0 < total := by omega
    rw [sumVec_added, sum_shares_picked (fun c => classOf s c == k && lit s c) want x.2 pos]
    omega

theorem floorsAndNominations_balances (s : State) (left : Nat) :
    sumVec (floorsAndNominations s left).1 + (floorsAndNominations s left).2 = floorSum s + left := by
  unfold floorsAndNominations
  refine foldl_induct (fun x : Vector Nat 8 × Nat => sumVec x.1 + x.2 = floorSum s + left) _ _
    (fun x k _ hx => (nominationPass_balances s x k).trans hx) _ ?_
  rw [sumVec_picked, floorSum_eq]

theorem litFloor_le_demand (s : State) (c : Fin 8) : litFloor s c ≤ demand s c := Nat.min_le_right ..

theorem proRata_le (short : a < floorSum s) (c : Fin 8) : (proRata a s)[c] ≤ if lit s c = true then litFloor s c else 0 := by
  rw [proRata_spec]
  split
  · exact partOf_le (Nat.le_of_lt short) c
  · exact Nat.le_refl _

theorem floorsAndNominations_le (s : State) (left : Nat) (c : Fin 8) :
    (floorsAndNominations s left).1[c] ≤ if lit s c = true then demand s c else 0 := by
  have floor := litFloor_le_demand s c
  rw [floorsAndNominations_spec]
  split
  · have part : (if wantsOf s (classOf s c) ≤ left - sumOver (fun d => lit s d && classOf s d < classOf s c) (wantOf s)
        then wantOf s c else partOf (fun d => lit s d && classOf s d == classOf s c) (wantOf s)
          (left - sumOver (fun d => lit s d && classOf s d < classOf s c) (wantOf s)) c) ≤ wantOf s c := by
      split
      · exact Nat.le_refl _
      next exceeds => exact partOf_le (Nat.le_of_lt (Nat.lt_of_not_le exceeds)) c
    unfold wantOf at part ⊢
    omega
  · exact Nat.le_refl _

theorem le_floorsAndNominations (s : State) (left : Nat) {c : Fin 8} (h : lit s c = true) :
    litFloor s c ≤ (floorsAndNominations s left).1[c] := by
  rw [floorsAndNominations_spec, if_pos h]
  exact Nat.le_add_right ..

/-! ## Stage 1 -/

theorem reserve_fits (a : Nat) (s : State) : (reserve a s).sum = 0 ∨ floorSum s + (reserve a s).sum ≤ a := by
  unfold reserve
  refine foldl_induct (fun x : Reserving => x.sum = 0 ∨ floorSum s + x.sum ≤ a) _ _ (fun x c _ hx => ?_) _ (.inl rfl)
  unfold reserveOne
  split
  next fits =>
    have := (Bool.and_eq_true_iff.1 fits).2
    exact .inr (by simpa [Nat.add_assoc] using this)
  · exact hx

theorem reserve_given_candidate (a : Nat) {c : Fin 8} (h : (reserve a s).given[c] ≠ 0) :
    isCandidate s c = true ∧ isCandidate (reserve a s).state c = true := by
  obtain ⟨candidates, others, -⟩ := reserve_spec a s
  cases cand : isCandidate s c
  · exact absurd (others c cand).2.1 h
  · have := candidates c cand
    split at this
    · refine ⟨rfl, ?_⟩
      unfold isCandidate at cand ⊢
      rw [this.1]
      exact cand
    · exact absurd this.2.1 h

theorem sumVec_given (a : Nat) (s : State) : sumVec (reserve a s).given = (reserve a s).sum := by
  obtain ⟨-, others, sum⟩ := reserve_spec a s
  rw [sum, sumVec_eq, sumOver, sum_filter]
  refine congrArg List.sum (List.map_congr_left fun c _ => ?_)
  split
  · rfl
  next out => exact (others c (by simpa using out)).2.1

theorem demand_congr {c : Fin 8} (hc : t.contracts = s.contracts) (he : t.exports = s.exports)
    (hs : t.settlement.clock = s.settlement.clock) (hn : (consumer t c).nomination = (consumer s c).nomination) :
    demand t c = demand s c := by
  unfold demand cappedNomination effectiveCeiling derivedRate scheduledExport isLinked flagItem consumerItem itemNat item
  rw [hc, he, hs, hn]

theorem litFloor_of_demand {c : Fin 8} (hc : t.contracts = s.contracts) (hd : demand t c = demand s c) :
    litFloor t c = litFloor s c := by
  unfold litFloor
  rw [consumerItem_eq (congrArg ContractUnit.contract hc), hd]

/-! ## The whole plan -/

/-- What stage 2 leaves: the state, and the slots that it sheds (R59). -/
def afterShedding (a : Nat) (s : State) : State × List (Fin 8) :=
  if a < floorSum (reserve a s).state then shedding a (reserve a s).state else ((reserve a s).state, [])

theorem plan_eq (a : Nat) (s : State) : plan a s =
    if a < floorSum (afterShedding a s).1 then
      { state := (afterShedding a s).1, grants := proRata a (afterShedding a s).1, reservations := (reserve a s).given, surplus := 0,
        shed := (reserve a s).lost ++ (afterShedding a s).2, restored := none }
    else planServed a (reserve a s) (afterShedding a s).1 (afterShedding a s).2 := rfl

/-- A consumer after stage 2 is as stage 1 left it, or shed (R59). -/
theorem afterShedding_record (a : Nat) (s : State) (c : Fin 8) :
    consumer (afterShedding a s).1 c = consumer (reserve a s).state c ∨
      (lit s c = true ∧ classOf (reserve a s).state c ≠ 0 ∧ a < floorSum (reserve a s).state ∧
        consumer (afterShedding a s).1 c = shedRecord (reserve a s).state c) := by
  unfold afterShedding
  split
  next short =>
    have one := shedding_spec a (reserve a s).state c
    split at one
    next picked => exact .inr ⟨(lit_reserve a s c).symm.trans picked.1, picked.2.1, short, one.1⟩
    next => exact .inl one.1
  · exact .inl rfl

theorem shedRecord_nomination (s : State) (c : Fin 8) : (shedRecord s c).nomination = (consumer s c).nomination := by
  unfold shedRecord
  split <;> rfl

theorem reserve_nomination (a : Nat) (s : State) (c : Fin 8) :
    (consumer (reserve a s).state c).nomination = (consumer s c).nomination := by
  rw [(consumer_reserve a s c).1]
  rfl

theorem afterShedding_nomination (a : Nat) (s : State) (c : Fin 8) :
    (consumer (afterShedding a s).1 c).nomination = (consumer s c).nomination := by
  rcases afterShedding_record a s c with same | ⟨-, -, -, shed⟩
  · rw [same, reserve_nomination]
  · rw [shed, shedRecord_nomination, reserve_nomination]

theorem lit_of_afterShedding {c : Fin 8} (h : lit (afterShedding a s).1 c = true) : lit s c = true := by
  rcases afterShedding_record a s c with same | ⟨was, -⟩
  · unfold lit at h ⊢
    rw [same] at h
    exact (lit_reserve a s c).symm.trans h
  · exact was

theorem afterShedding_frame (a : Nat) (s : State) :
    (afterShedding a s).1.contracts = s.contracts ∧ (afterShedding a s).1.exports = s.exports ∧
      (afterShedding a s).1.settlement = s.settlement := by
  unfold afterShedding
  split
  · exact ⟨(shedding_contracts ..).trans (reserve_contracts ..), (shedding_exports ..).trans (reserve_exports ..),
      (shedding_settlement ..).trans (reserve_settlement ..)⟩
  · exact ⟨reserve_contracts .., reserve_exports .., reserve_settlement ..⟩

theorem demand_afterShedding (a : Nat) (s : State) (c : Fin 8) : demand (afterShedding a s).1 c = demand s c := by
  obtain ⟨contracts, exports, settlement⟩ := afterShedding_frame a s
  exact demand_congr contracts exports (congrArg Settlement.clock settlement) (afterShedding_nomination a s c)

theorem litFloor_afterShedding (a : Nat) (s : State) (c : Fin 8) : litFloor (afterShedding a s).1 c = litFloor s c := by
  obtain ⟨contracts, exports, settlement⟩ := afterShedding_frame a s
  exact litFloor_congr contracts exports settlement (afterShedding_nomination a s c)

theorem floorSum_afterShedding_le (a : Nat) (s : State) : floorSum (afterShedding a s).1 ≤ floorSum s :=
  sumOver_le (fun _ => lit_of_afterShedding) fun c _ => Nat.le_of_eq (litFloor_afterShedding a s c)

theorem floorSum_reserve (a : Nat) (s : State) : floorSum (reserve a s).state = floorSum s :=
  sumOver_congr (fun c => lit_reserve a s c) fun c _ =>
    litFloor_congr (reserve_contracts ..) (reserve_exports ..) (reserve_settlement ..) (reserve_nomination a s c)

theorem reserve_fits_afterShedding (a : Nat) (s : State) :
    (reserve a s).sum = 0 ∨ floorSum (afterShedding a s).1 + (reserve a s).sum ≤ a :=
  (reserve_fits a s).imp_right fun fits => by
    have := floorSum_afterShedding_le a s
    omega

/-- A candidate stands after stage 2 as stage 1 left it (R58). -/
theorem candidate_afterShedding {c : Fin 8} (h : isCandidate (reserve a s).state c = true) :
    isCandidate (afterShedding a s).1 c = true := by
  rcases afterShedding_record a s c with same | ⟨was, -⟩
  · unfold isCandidate at h ⊢
    rw [same]
    exact h
  · exfalso
    rw [← lit_reserve a] at was
    simp_all [isCandidate, lit]

/-- What a plan must give for the result to be sound: its parts make up the available rate, a grant is within the demand of an
ACTIVE consumer, and a reservation is a candidate's (R50, R56, R58, R67). -/
structure Sound (a : Nat) (p : Plan) : Prop where
  balanced : sumVec p.grants + sumVec p.reservations + p.surplus = a
  granted : ∀ c : Fin 8, p.grants[c] ≤ if lit p.state c = true then demand p.state c else 0
  reserved : ∀ c : Fin 8, p.reservations[c] ≠ 0 → isCandidate p.state c = true

theorem sound_served {x : State} {v : Vector Nat 8} {n : Nat} {l : List (Fin 8)} {r : Option (Fin 8)} (total : sumVec v = n)
    (fits : floorSum x + n ≤ a) (held : ∀ c : Fin 8, v[c] ≠ 0 → isCandidate x c = true) :
    Sound a ⟨x, (floorsAndNominations x (a - floorSum x - n)).1, v, (floorsAndNominations x (a - floorSum x - n)).2, l, r⟩ where
  balanced := by
    have := floorsAndNominations_balances x (a - floorSum x - n)
    simp only
    omega
  granted c := floorsAndNominations_le x _ c
  reserved := held

theorem not_lit_of_waiting {c : Fin 8} (h : isWaiting s c = true) : lit s c = false := by
  unfold isWaiting at h
  unfold lit
  cases st : (consumer s c).state <;> simp_all

theorem not_candidate_of_waiting {c : Fin 8} (h : isWaiting s c = true) : isCandidate s c = false := by
  unfold isWaiting at h
  unfold isCandidate
  cases st : (consumer s c).state <;> simp_all

theorem lit_restored {c d : Fin 8} (waits : isWaiting s c = true) : lit (putConsumer c (restored s c) s) d = lit s d := by
  by_cases e : d = c
  · subst e
    rw [not_lit_of_waiting waits, lit, consumer_putConsumer_same]
    rfl
  · rw [lit, consumer_putConsumer_ne e, lit]

theorem floorSum_restored {c : Fin 8} (waits : isWaiting s c = true) : floorSum (putConsumer c (restored s c) s) = floorSum s :=
  sumOver_congr (fun _ => lit_restored waits) fun d _ => litFloor_congr rfl rfl rfl (by
    by_cases e : d = c
    · rw [e, consumer_putConsumer_same]; rfl
    · rw [consumer_putConsumer_ne e])

theorem planServed_sound {x : State} {r : Reserving} {l : List (Fin 8)} (enough : floorSum x ≤ a) (total : sumVec r.given = r.sum)
    (fits : r.sum = 0 ∨ floorSum x + r.sum ≤ a) (held : ∀ c : Fin 8, r.given[c] ≠ 0 → isCandidate x c = true) :
    Sound a (planServed a r x l) := by
  have room : floorSum x + r.sum ≤ a := by omega
  unfold planServed
  split
  next c picked =>
    have restores : toRestore a r.sum x = some c := by
      split at picked
      · exact picked
      · exact nomatch picked
    obtain ⟨waits, -, floor⟩ := toRestore_eq_some.1 restores
    have none : r.given[c] = 0 := by
      refine Classical.byContradiction fun some => ?_
      exact Bool.noConfusion ((not_candidate_of_waiting waits).symm.trans (held c some))
    have same := floorSum_restored waits
    have set := sumVec_set r.given c (litFloor x c)
    extract_lets s' g
    have sound := sound_served (x := s') (n := r.sum + litFloor x c) (v := r.given.set c (litFloor x c)) (l := r.lost ++ l)
      (r := some c) (a := a) (by omega) (by rw [show floorSum s' = floorSum x from same]; omega) (fun d reserved => by
        by_cases e : d = c
        · subst e
          rw [isCandidate, consumer_putConsumer_same]
          rfl
        · rw [isCandidate, consumer_putConsumer_ne e]
          exact held d (by rwa [getElem_set_fin _ e] at reserved))
    rw [show floorSum s' = floorSum x from same] at sound
    exact sound
  next => exact sound_served total room held

theorem plan_sound (a : Nat) (s : State) : Sound a (plan a s) := by
  have held : ∀ c : Fin 8, (reserve a s).given[c] ≠ 0 → isCandidate (afterShedding a s).1 c = true := fun c h =>
    candidate_afterShedding (reserve_given_candidate a h).2
  have total := sumVec_given a s
  have fits := reserve_fits_afterShedding a s
  rw [plan_eq]
  generalize afterShedding a s = x at *
  generalize reserve a s = r at *
  split
  next short =>
    have floors := fun c => proRata_le short c
    have whole := sumVec_proRata short
    refine ⟨by simp only; omega, fun c => Nat.le_trans (floors c) ?_, held⟩
    split
    · exact litFloor_le_demand _ c
    · exact Nat.le_refl _
  next enough => exact planServed_sound (Nat.le_of_not_lt enough) total fits held

theorem planServed_nomination (a : Nat) (r : Reserving) (s : State) (l : List (Fin 8)) (c : Fin 8) :
    (consumer (planServed a r s l).state c).nomination = (consumer s c).nomination := by
  unfold planServed
  split
  next d _ =>
    by_cases e : c = d
    · simp only [e, consumer_putConsumer_same]; rfl
    · simp only [consumer_putConsumer_ne e]
  · rfl

theorem plan_nomination (a : Nat) (s : State) (c : Fin 8) :
    (consumer (plan a s).state c).nomination = (consumer s c).nomination := by
  rw [plan_eq]
  split
  · exact afterShedding_nomination a s c
  · rw [planServed_nomination, afterShedding_nomination]

theorem demand_plan (a : Nat) (s : State) (c : Fin 8) : demand (plan a s).state c = demand s c :=
  demand_congr (plan_contracts ..) (plan_exports ..) (congrArg Settlement.clock (plan_settlement ..)) (plan_nomination a s c)

end Sys2Proof.Proofs.Sums
end

section
/-! Every step keeps the allocation balanced and every grant within its limits (R50, R56, R58, R67 to R69). -/

namespace Sys2Proof.Proofs.Upkeep

open Sys2Proof Sys2Proof.Machine Sys2Proof.Proofs.Sums

variable {s t : State} {c : Fin 8} {r : Consumer} {L : List (Fin 8)}

/-! ## The balance, with the consumers consistent -/

abbrev Allotted (s : State) : Prop := ConsumersConsistent s ∧ AllocationSound s

/-- The result stays sound where consumers leave ACTIVE and the purge toward ACTIVE only without a grant and a reservation. -/
theorem allocationSound_moved (result : t.allocator.result = s.allocator.result)
    (others : ∀ d, d ≠ c → consumer t d = consumer s d) (released : Releases s c (consumer t c)) (h : AllocationSound s) :
    AllocationSound t := by
  obtain ⟨balanced, granted, reserved⟩ := h
  have grants : ∀ d, grant t d = grant s d := fun d => by simp only [grant, result]
  have reservations : ∀ d, reservation t d = reservation s d := fun d => by simp only [reservation, result]
  refine ⟨by rw [result]; exact balanced, fun d some => ?_, fun d some => ?_⟩
  · rw [grants] at some
    by_cases e : d = c
    · subst e
      refine Classical.byContradiction fun left => ?_
      exact some (released.1 left (granted d some))
    · rw [others d e]; exact granted d some
  · rw [reservations] at some
    by_cases e : d = c
    · subst e
      refine Classical.byContradiction fun left => ?_
      exact some (released.2 left (isCandidate_iff.2 (reserved d some)))
    · rw [others d e]; exact reserved d some

theorem allocationSound_same (result : t.allocator.result = s.allocator.result)
    (same : ∀ d, (consumer t d).state = (consumer s d).state ∧ (consumer t d).target = (consumer s d).target)
    (h : AllocationSound s) : AllocationSound t := by
  obtain ⟨balanced, granted, reserved⟩ := h
  refine ⟨by rw [result]; exact balanced, fun d some => ?_, fun d some => ?_⟩
  · rw [(same d).1]
    exact granted d (by simpa only [grant, result] using some)
  · rw [(same d).1, (same d).2]
    exact reserved d (by simpa only [reservation, result] using some)

theorem allocationSound_allocator {a : Allocator} (same : a.result.grants = s.allocator.result.grants ∧
    a.result.reservations = s.allocator.result.reservations ∧ a.result.surplus = s.allocator.result.surplus ∧
    a.result.available = s.allocator.result.available) (h : AllocationSound s) :
    AllocationSound { s with allocator := a } := by
  obtain ⟨grants, reservations, surplus, available⟩ := same
  obtain ⟨balanced, granted, reserved⟩ := h
  refine ⟨by simp only [Machine.Balanced, grants, reservations, surplus, available]; exact balanced, fun d some => ?_, fun d some => ?_⟩
  · exact granted d (by simpa only [grant, grants] using some)
  · exact reserved d (by simpa only [reservation, reservations] using some)

theorem allocationSound_lower {kw : Nat} (less : kw < grant s c) (h : AllocationSound s) :
    AllocationSound (setResult { s.allocator.result with
      grants := s.allocator.result.grants.set c kw, surplus := s.allocator.result.surplus + (grant s c - kw) } s) := by
  obtain ⟨balanced, granted, reserved⟩ := h
  refine ⟨?_, fun d some => ?_, reserved⟩
  · have cut := sumVec_set s.allocator.result.grants c kw
    simp only [Machine.Balanced, setResult, grant] at balanced less ⊢
    omega
  · refine granted d ?_
    by_cases e : d = c
    · subst e; exact Nat.ne_of_gt (Nat.zero_lt_of_lt less)
    · exact (show (s.allocator.result.grants.set c kw)[d] ≠ 0 from some) ∘ (getElem_set_fin _ e _).trans

theorem allocationSound_release (h : AllocationSound s) : AllocationSound (releaseReservation c s) := by
  obtain ⟨balanced, granted, reserved⟩ := h
  refine ⟨?_, granted, fun d some => ?_⟩
  · have cut := sumVec_set s.allocator.result.reservations c 0
    simp only [Machine.Balanced, releaseReservation, setResult, reservation] at balanced ⊢
    omega
  · refine reserved d ?_
    have after : (s.allocator.result.reservations.set c 0)[d] ≠ 0 := some
    by_cases e : d = c
    · subst e; exact absurd (Vector.getElem_set_self ..) after
    · exact after ∘ (getElem_set_fin _ e _).trans

theorem allocationSound_setResult {a : Nat} {p : Plan} (sound : Sums.Sound a p) (hs : p.state = t) :
    AllocationSound (setResult (planResult p s a) t) := by
  obtain ⟨balanced, granted, reserved⟩ := sound
  subst hs
  refine ⟨balanced, fun c some => ?_, fun c some => isCandidate_iff.1 (reserved c some)⟩
  refine Classical.byContradiction fun out => ?_
  have unlit : ¬ lit p.state c = true := fun isLit => out (eq_of_beq isLit)
  have none := granted c
  rw [if_neg unlit] at none
  exact some (Nat.le_zero.1 none)

theorem allocationSound_evaluate (h : AllocationSound s) : AllocationSound (evaluate c s) :=
  allocationSound_same (s := s) rfl (fun d => by
    rw [consumer_evaluate]
    exact ⟨rfl, rfl⟩) h

theorem allocationSound_put (released : Releases s c r) (h : AllocationSound s) : AllocationSound (putConsumer c r s) :=
  allocationSound_moved (s := s) (c := c) rfl (fun d ne => consumer_putConsumer_ne ne r s)
    (by rw [consumer_putConsumer_same]; exact released) h

theorem allocationSound_tended (released : Releases s c r) (h : AllocationSound s) : AllocationSound (setConsumer c r s) :=
  allocationSound_moved (s := s) (c := c) rfl (fun d ne => consumer_setConsumer_ne ne r s)
    (by rw [consumer_setConsumer_same]; exact released) h

theorem allotted_kept : Bounds fun _ s => Allotted s where
  allocator {_ s a} same h := ⟨h.1, allocationSound_allocator (by rw [same]; exact ⟨rfl, rfl, rfl, rfl⟩) h.2⟩
  flare {_ s kw} h := ⟨h.1, allocationSound_allocator (s := s) ⟨rfl, rfl, rfl, rfl⟩ h.2⟩
  lower {_ s c kw} less h := ⟨h.1, allocationSound_lower less h.2⟩
  release {_ s c} h := ⟨h.1, allocationSound_release h.2⟩
  plan h := ⟨consumersConsistent_setResult _ (plan_consistent _ h.1), allocationSound_setResult (plan_sound _ _) rfl⟩
  tend {_ s c r} st n keep h := ⟨consumers_kept.tend (L := []) st n keep h.1, allocationSound_tended (keep (h.1 c)).2 h.2⟩
  put {_ s c r} n keep h := ⟨consumers_kept.put (L := []) n keep h.1, allocationSound_put (keep (h.1 c)).2 h.2⟩
  move {_ s c r} n keep h := ⟨consumers_kept.move (L := []) n keep h.1,
    allocationSound_evaluate (allocationSound_put (keep (h.1 c)).2 h.2)⟩
  nomination {_ s c n} h := ⟨consumers_kept.nomination (L := []) h.1,
    allocationSound_tended (releases_same (s := s) rfl rfl) h.2⟩

theorem emptyAllocation_sound (result : s.allocator.result = emptyAllocation) : AllocationSound s := by
  refine ⟨by rw [result]; decide, fun c some => ?_, fun c some => ?_⟩
  · exact absurd (by simp [grant, result, emptyAllocation]) some
  · exact absurd (by simp [reservation, result, emptyAllocation]) some

theorem initialiseStore_allocation (h : AllocationSound s) : AllocationSound (initialiseStore s) :=
  allocationSound_same (s := s) rfl (fun c => by
    have record : consumer (initialiseStore s) c = { consumer s c with nomination := 0, damageMark := false } := by
      simp only [consumer, initialiseStore]
      exact Vector.getElem_ofFn ..
    rw [record]
    exact ⟨rfl, rfl⟩) h

theorem beginOperation_allocation (h : AllocationSound s) : AllocationSound (beginOperation s) := by
  rw [beginOperation_frame]
  exact allocationSound_allocator ⟨rfl, rfl, rfl, rfl⟩ h

theorem allotted_upheld : Upheld fun _ s => Allotted s :=
  allotted_kept.upheld {
    lose := fun {s} h => by
      have init := initialiseStore_allocation h.2
      have records := initialiseStore_consistent h.1
      unfold loseStore
      generalize initialiseStore s = t at init records ⊢
      exact ⟨records, init⟩
    init := fun h => ⟨initialiseStore_consistent h.1, initialiseStore_allocation h.2⟩
    fresh := fun {_ kind _} _ _ => ⟨freshBlocks_consistent (kind := kind), emptyAllocation_sound rfl⟩
    begins := fun h => ⟨beginOperation_consistent h.1, beginOperation_allocation h.2⟩ }

/-! ## The limits of the grants -/

variable {g : Bool}

/-- The main supply is present and no grant exceeds its limit, but for those that still wait for their cut (R67, R69, R175);
with `g`, of a running part alone. -/
abbrev Limited (g : Bool) (L : List (Fin 8)) (s : State) : Prop :=
  (g = true → s.power.running = true) → s.power.mainSupply = true ∧ ∀ c : Fin 8, c ∉ L → grant s c ≤ grantLimit s c

theorem grantLimit_congr (contract : t.contracts.contract = s.contracts.contract)
    (nomination : (consumer t c).nomination = (consumer s c).nomination) : grantLimit t c = grantLimit s c := by
  simp only [grantLimit, effectiveCeiling, nomination, consumerItem_eq contract]

theorem limited_of_limits {L' : List (Fin 8)} (power : t.power = s.power) (sub : L ⊆ L')
    (limits : ∀ d, d ∉ L' → grant t d ≤ grant s d ∧ grantLimit t d = grantLimit s d) (h : Limited g L s) : Limited g L' t := by
  intro serves
  obtain ⟨supplied, within⟩ := h (power ▸ serves)
  refine ⟨power ▸ supplied, fun d out => ?_⟩
  rw [(limits d out).2]
  exact Nat.le_trans (limits d out).1 (within d fun mem => out (sub mem))

theorem limited_setConsumer (nomination : r.nomination = (consumer s c).nomination) (h : Limited g L s) :
    Limited g L (setConsumer c r s) :=
  limited_of_limits (s := s) rfl (List.Subset.refl L) (fun d _ => ⟨Nat.le_refl _, grantLimit_congr rfl (by
    by_cases e : d = c
    · rw [e, consumer_setConsumer_same, nomination]
    · rw [consumer_setConsumer_ne e])⟩) h

theorem limited_putConsumer (nomination : r.nomination = (consumer s c).nomination) (h : Limited g L s) :
    Limited g L (putConsumer c r s) :=
  limited_setConsumer nomination h

theorem limited_evaluate (h : Limited g L s) : Limited g L (evaluate c s) := limited_setConsumer rfl h

theorem limited_lower {kw : Nat} {a : Allocation} (less : kw < grant s c) (grants : a.grants = s.allocator.result.grants.set c kw)
    (h : Limited g L s) : Limited g L (setResult a s) :=
  limited_of_limits (s := s) rfl (List.Subset.refl L) (fun d _ => ⟨by
    show a.grants[d] ≤ _
    simp only [grants]
    by_cases e : d = c
    · subst e
      exact Nat.le_trans (Nat.le_of_eq (Vector.getElem_set_self ..)) (Nat.le_of_lt less)
    · exact Nat.le_of_eq (getElem_set_fin _ e _), rfl⟩) h

theorem limited_item {i : Item} {v : Int} (h : Limited g L s) :
    Limited g (debtOf i ++ L) { s with contracts := { s.contracts with contract := writeItem s.contracts.contract i v } } :=
  limited_of_limits (s := s) rfl (List.subset_append_right ..) (fun d out => ⟨Nat.le_refl _, by
    have free : d ∉ debtOf i := fun mem => out (List.mem_append_left _ mem)
    have kept : ∀ k, k = cCeiling ∨ k = cHardCeiling → i ≠ .consumer d k := by
      rintro k ceiling rfl
      exact free (by simp [debtOf, ceiling])
    simp only [grantLimit, effectiveCeiling, consumerItem, itemNat, item]
    rw [readItem_writeItem_ne _ (kept cCeiling (.inl rfl)).symm, readItem_writeItem_ne _ (kept cHardCeiling (.inr rfl)).symm]
    rfl⟩) h

theorem limited_plan {p : Plan} {a : Nat} (sound : Sums.Sound a p) (power : p.state.power = s.power) (h : Limited g L s) :
    Limited g L (setResult (planResult p s a) p.state) := by
  intro serves
  refine ⟨?_, fun c _ => ?_⟩
  · have supplied := (h fun e => power ▸ serves e).1
    show p.state.power.mainSupply = true
    rw [power]; exact supplied
  · have granted := sound.granted c
    have limit := demand_le_grantLimit p.state c
    refine Nat.le_trans (m := demand p.state c) ?_ limit
    split at granted
    · exact granted
    · exact Nat.le_trans granted (Nat.zero_le _)

theorem limited_kept (g : Bool) : Bounds (Limited g) where
  more sub h := fun serves => ⟨(h serves).1, fun c out => (h serves).2 c fun mem => out (sub mem)⟩
  paid {_ s c} low h := fun serves => ⟨(h serves).1, fun d out => by
    by_cases e : d = c
    · subst e; exact low
    · exact (h serves).2 d (by simp [e, out])⟩
  allocator {_ s a} same h := limited_of_limits (s := s) rfl (List.Subset.refl _)
    (fun d _ => ⟨Nat.le_of_eq (by
      have grants : a.result.grants = s.allocator.result.grants := by rw [same]
      simp only [grant, grants]), rfl⟩) h
  lower less h := limited_lower less rfl h
  plan h := limited_plan (plan_sound _ _) (plan_power ..) h
  tend _ n _ h := limited_setConsumer n h
  put n _ h := limited_putConsumer n h
  move n _ h := limited_evaluate (limited_putConsumer n h)
  nomination {_ s c n} h := limited_of_limits (s := s) rfl (List.subset_cons_self ..) (fun d out => ⟨Nat.le_refl _,
    grantLimit_congr rfl (by rw [consumer_setConsumer_ne fun e => out (by simp [e])])⟩) h
  item _ h := limited_item h
  table {_ s _} contract _ h := limited_of_limits (s := s) rfl (List.Subset.refl _)
    (fun d _ => ⟨Nat.le_refl _, grantLimit_congr contract rfl⟩) h

theorem freshBlocks_limited {kind : RestartKind} {l : LinkUnit} : Limited false [] { freshBlocks kind s with links := l } :=
  fun _ => ⟨rfl, fun c _ => by
    have none : grant { freshBlocks kind s with links := l } c = 0 := by simp [grant, freshBlocks, freshAllocator, emptyAllocation]
    rw [none]
    exact Nat.zero_le _⟩

theorem beginOperation_limited (h : Limited false [] s) : Limited false [] (beginOperation s) := by
  rw [beginOperation_frame]
  exact fun _ => h nofun

theorem limited_of_always (h : Limited false [] s) : Limited g [] s := fun _ => h nofun

theorem loseStore_power (s : State) : (loseStore s).power = s.power := rfl

theorem limited_powered : Powered (Limited true []) where
  stop {s pw} off _ serves := absurd (off.symm.trans (serves rfl)) Bool.false_ne_true
  backup h := h
  lose {s} unsupplied h serves := by
    have running : s.power.running = true := loseStore_power s ▸ serves rfl
    exact absurd (unsupplied.symm.trans (h fun _ => running).1) Bool.false_ne_true
  warm _ _ := limited_of_always (warmStart_keeps (limited_kept false).toKept (limited_kept false).boundary
    freshBlocks_limited beginOperation_limited)
  cold {s cut} _ _ := by
    unfold coldStart
    dsimp only
    generalize readSignatures s = r
    split
    · intro serves
      refine absurd (serves rfl) ?_
      unfold keepOrLose
      split
      · exact Bool.false_ne_true
      · rw [loseStore_power]
        exact Bool.false_ne_true
    · exact limited_of_always (beginOperation_limited freshBlocks_limited)

theorem limited_upheld : Upheld (Limited true) where
  kept := (limited_kept true).toKept
  boundary := (limited_kept true).boundary
  powered := limited_powered

theorem limited_iff : Limited true [] s ↔ GrantsWithinLimits s :=
  ⟨fun h on => ⟨(h fun _ => on).1, fun c => (h fun _ => on).2 c List.not_mem_nil⟩,
    fun h serves => ⟨(h (serves rfl)).1, fun c _ => (h (serves rfl)).2 c⟩⟩

/-- Settles O57: the balance and the limits are among what every elementary change keeps, the stages giving both afresh. -/
theorem allocationStaysSound : Obligations.AllocationStaysSound := by
  unfold Obligations.AllocationStaysSound
  exact ⟨fun s t records sound e => (step_keeps allotted_upheld e ⟨records, sound⟩).2,
    fun s t h e => limited_iff.1 (step_keeps limited_upheld e (limited_iff.2 h))⟩

end Sys2Proof.Proofs.Upkeep
end

section
/-! The part as a machine: every command is answered with a next state, in which the waiting commands stand as they did;
reset meets what every step keeps. -/

namespace Sys2Proof.Proofs.Upkeep

open Sys2Proof Sys2Proof.Machine

/-! ## Every command is answered -/

/-- A command is answered with a next state. -/
def Continues (o : Host.Outcome State Fault Refusal) : Prop := ∃ t, o = .next t

theorem continues_ite {p : Prop} [Decidable p] {a b : Out} (ha : Continues a) (hb : Continues b) :
    Continues (if p then a else b) := by
  split
  · exact ha
  · exact hb

theorem request_continues (f : Frame) (code length : Nat) (d : Bool) (run : State → State) (s : State) :
    Continues (request f code length d run s) :=
  continues_ite (continues_ite ⟨_, rfl⟩ ⟨_, rfl⟩) ⟨_, rfl⟩

theorem consumerRequest_continues (f : Frame) (code c : Nat) (reads : State → Fin 8 → List Thing)
    (body : Fin 8 → State → State) (answer : Fin 8 → State → State → Status × List Field) (s : State) :
    Continues (consumerRequest f code c reads body answer s) :=
  request_continues ..

theorem exec_continues (i : Instr) (s : State) : Continues (exec i s) := by
  cases i
  case pulseArrival => exact continues_ite (continues_ite ⟨_, rfl⟩ ⟨_, rfl⟩) ⟨_, rfl⟩
  case sampleFrame raw =>
    show Continues (execSampleFrame raw s)
    unfold execSampleFrame
    split
    · exact ⟨_, rfl⟩
    · exact continues_ite ⟨_, rfl⟩ ⟨_, rfl⟩
  case write f name v =>
    show Continues (execWrite f name v s)
    unfold execWrite
    split <;> exact request_continues ..
  case propose f items =>
    show Continues (execPropose f items s)
    unfold execPropose
    split <;> exact request_continues ..
  case queryContractItem f name =>
    show Continues (execQueryContractItem f name s)
    unfold execQueryContractItem
    split <;> exact request_continues ..
  case resetAssertion low => exact continues_ite ⟨_, rfl⟩ (continues_ite ⟨_, rfl⟩ (continues_ite ⟨_, rfl⟩ ⟨_, rfl⟩))
  case startUpOperation strap cut =>
    show Continues (execStartUpOperation strap cut s)
    unfold execStartUpOperation
    refine continues_ite ⟨_, rfl⟩ ?_
    split <;> exact ⟨_, rfl⟩
  case zeroFlowExpiry | freshnessExpiry | allocationPeriodExpiry | purgeExpiry | overdrawMaskExpiry | lineLowMaskExpiry
    | passingMaskExpiry | lowDrawTimerExpiry | recoveryDelayExpiry | proposalExpiry | regularBoundary | scrubRead
    | unknownRequest => exact continues_ite ⟨_, rfl⟩ ⟨_, rfl⟩
  case supplyFall | badFrame | busyPortFrame | responseSent | storeWordError | backupSupplyLoss => exact ⟨_, rfl⟩
  all_goals
    simp only [exec, execStart, execStop, execClear, execFuelBackup, execFuelGas, execNominate, execSchedule, execWriteIdentity,
      execConcur, execReject, execWithdraw, execWriteClock, execTrim, execArchive, execCursorOldest,
      execCursorNewest, execCursorNumber, execQuerySampleChannel, execQueryPulseChannel, execQueryConsumer,
      execQueryHolder, execQueryAllocation, execQueryTotals, execQueryExportSchedule, execQueryProposalTable,
      execQueryClock, execQueryIntegrityReport, execQueryIdentity, execMask, execNotice, consumerRequest, queryRequest]
    exact request_continues ..

theorem pending_kept (l : List Instr) : Bounds fun _ s => s.pending = l where
  plan h := (setResult_pending ..).trans ((plan_pending ..).trans h)

theorem pending_upheld (l : List Instr) : Upheld fun _ s => s.pending = l :=
  (pending_kept l).upheld {
    begins := fun h => h }

/-- Settles O3: each command's meaning ends in a next state, and no elementary change moves the waiting commands. -/
theorem everyCommandAnswersNext : Obligations.EveryCommandAnswersNext := by
  unfold Obligations.EveryCommandAnswersNext
  intro i s
  obtain ⟨t, e⟩ := exec_continues i s
  exact ⟨t, e, exec_keeps (pending_upheld s.pending) e rfl⟩

/-- Settles O1, by the definition of a step. -/
theorem stepExecutesTheFrontCommand : Obligations.StepExecutesTheFrontCommand := by
  unfold Obligations.StepExecutesTheFrontCommand
  intro c rest s
  rfl

/-! ## Reset -/

/-- Settles O54, clause by clause from what a cold start leaves. -/
theorem resetMeetsEveryCondition : Obligations.ResetMeetsEveryCondition := by
  unfold Obligations.ResetMeetsEveryCondition
  have contract : ContractSound State.reset := coldContract_sound rfl rfl rfl
  obtain ⟨inRange, proposals⟩ := contract
  have records : ConsumersConsistent State.reset := by decide
  have limits : GrantsWithinLimits State.reset := by decide
  have one : OneOpenRecord State.reset := ⟨rfl, rfl, nofun, fun _ => rfl⟩
  have ring : ArchiveOrdered State.reset := by decide
  have store : StoreSound State.reset := by decide
  exact ⟨by decide, records, emptyAllocation_sound rfl, limits, one, ring, inRange, proposals, by decide,
    restartLinks_sound rfl, freshField_consistent rfl, coldTotals rfl rfl, store⟩

end Sys2Proof.Proofs.Upkeep
end

section
/-! Encoding and decoding (10-6): a frame that carries a body is good and gives the body back. -/

namespace Sys2Proof.Proofs.Frames

open Sys2Proof Sys2Proof.Machine Sys2Proof.Laws

/-! ## The check field (R191) -/

theorem length_crcField (bs : List Byte) : (crcField bs).length = 2 := rfl

theorem length_sealed (bs : List Byte) : (sealed bs).length = bs.length + 2 := by
  rw [sealed, List.length_append, length_crcField]

theorem crcChecks_sealed (bs : List Byte) : crcChecks (sealed bs) = true := by
  have cut : (sealed bs).length - 2 = bs.length := by rw [length_sealed]; rfl
  unfold crcChecks
  rw [cut, sealed, List.drop_left, List.take_left]
  exact beq_self_eq_true _

/-! ## Request frames (Tables 10-6-1 and 10-6-2) -/

theorem declaredLength_frame {n : Nat} (short : n < 65536) (rest : List Byte) :
    declaredLength (bytesOfNat 2 n ++ rest) = n := by
  have read := read_two [] n rest short
  simp only [declaredLength, bytesOfNat_two, List.cons_append, List.nil_append, List.take_succ_cons, List.take_zero,
    natOfBytes, List.foldl_cons, List.foldl_nil, BitVec.toNat_ofNat]
  omega

theorem frame_chars (body : List Byte) :
    (frameOfBody body).chars = bytesOfNat 2 body.length ++ (body ++ crcField (bytesOfNat 2 body.length ++ body)) := by
  rw [frameOfBody, sealed, List.append_assoc]

theorem declaredLength_frameOfBody {body : List Byte} (short : body.length ≤ 64) :
    declaredLength (frameOfBody body).chars = body.length := by
  rw [frame_chars]
  exact declaredLength_frame (by omega) _

theorem goodRequest_frameOfBody {body : List Byte} (some : 1 ≤ body.length) (short : body.length ≤ 64) :
    goodRequest (frameOfBody body) = true := by
  have length : (frameOfBody body).chars.length = body.length + 4 := by
    rw [frame_chars, List.length_append, List.length_append, length_crcField, bytesOfNat_two]
    simp only [List.length_cons, List.length_nil]
    omega
  have checks : crcChecks (frameOfBody body).chars = true := crcChecks_sealed _
  have noError : (frameOfBody body).stopError = false := rfl
  unfold goodRequest
  rw [declaredLength_frameOfBody short, length, checks, noError]
  simp [some, short]

theorem requestBody_frameOfBody {body : List Byte} (short : body.length ≤ 64) : requestBody (frameOfBody body) = body := by
  unfold requestBody
  rw [declaredLength_frameOfBody short, frame_chars, bytesOfNat_two]
  exact List.take_left

/-- Every command reads back from its body. -/
theorem encoding_statement (i : Instr) : Encoding.Statement i := by
  cases i
  case start => exact Encoding.start _ _
  case stop => exact Encoding.stop _ _
  case clear => exact Encoding.clear _ _
  case fuelBackup => exact Encoding.fuelBackup _ _
  case fuelGas => exact Encoding.fuelGas _ _
  case nominate => exact Encoding.nominate _ _ _
  case schedule => exact Encoding.schedule _ _ _
  case write => exact Encoding.write _ _ _
  case writeIdentity => exact Encoding.writeIdentity _ _ _
  case propose => exact Encoding.propose _ _
  case concur => exact Encoding.concur _ _
  case reject => exact Encoding.reject _ _
  case withdraw => exact Encoding.withdraw _ _
  case mask => exact Encoding.mask _ _
  case writeClock => exact Encoding.writeClock _ _
  case trim => exact Encoding.trim _ _
  case archive => exact Encoding.archive _
  case cursorOldest => exact Encoding.cursorOldest _
  case cursorNewest => exact Encoding.cursorNewest _
  case cursorNumber => exact Encoding.cursorNumber _ _
  case notice => exact Encoding.notice _
  case querySampleChannel => exact Encoding.querySampleChannel _ _
  case queryPulseChannel => exact Encoding.queryPulseChannel _ _
  case queryConsumer => exact Encoding.queryConsumer _ _
  case queryHolder => exact Encoding.queryHolder _ _
  case queryAllocation => exact Encoding.queryAllocation _ _
  case queryTotals => exact Encoding.queryTotals _ _
  case queryExportSchedule => exact Encoding.queryExportSchedule _ _
  case queryProposalTable => exact Encoding.queryProposalTable _ _
  case queryClock => exact Encoding.queryClock _ _
  case queryIntegrityReport => exact Encoding.queryIntegrityReport _ _
  case queryIdentity => exact Encoding.queryIdentity _ _
  case queryContractItem => exact Encoding.queryContractItem _ _
  all_goals exact fun _ _ _ e => nomatch e

/-- A well-formed request's frame is of a length that the link carries. -/
theorem frameFits_of_encodeBody {i : Instr} {f : Frame} {body : List Byte} (well : i.wellFormed = true)
    (e : encodeBody i = some (f, body)) : frameFits f = true := by
  cases i
  all_goals cases e
  all_goals
    simp only [Instr.wellFormed, Bool.and_eq_true] at well
    simp only [well]

theorem decodeRequest_encoded {i : Instr} {f : Frame} {body : List Byte} (well : i.wellFormed = true)
    (e : encodeBody i = some (f, body)) (length : f.length = body.length) :
    decodeRequest f.party (frameOfBody body) = i := by
  have fits := frameFits_of_encodeBody well e
  simp only [frameFits, Bool.and_eq_true, decide_eq_true_eq] at fits
  have short : body.length ≤ 64 := by omega
  unfold decodeRequest
  rw [goodRequest_frameOfBody (by omega) short, if_pos rfl, declaredLength_frameOfBody short, requestBody_frameOfBody short,
    ← length]
  exact encoding_statement i f body well e length

/-! ## Sample frames (Table 10-6-4) -/

theorem length_sampleChars (k code : Nat) (v : Int) : (sampleChars k code v).length = 9 := length_sealed _

theorem goodSample_sampleChars (k code : Nat) (v : Int) :
    goodSample { chars := sampleChars k code v, stopError := false } = true := by
  have length := length_sampleChars k code v
  have checks : crcChecks (sampleChars k code v) = true := crcChecks_sealed _
  have first : (sampleChars k code v)[0]? = some 6#8 := rfl
  unfold goodSample
  simp only [length, checks, first]
  rfl

theorem natOfBytes_four {n : Nat} (h : n < 4294967296) : natOfBytes (bytesOfNat 4 n) = n := by
  simp only [bytesOfNat_four, natOfBytes, List.foldl_cons, List.foldl_nil, BitVec.toNat_ofNat]
  omega

theorem parseSample_sampleChars (k : Fin 22) (code : Fin 256) {v : Int} (low : -2147483648 ≤ v) (high : v ≤ 2147483647) :
    parseSample { chars := sampleChars k code v, stopError := false } = some (k, statusOfCode code, v) := by
  have value : intOfNat 4 (natOfBytes (bytesOfNat 4 (natOfInt 4 v))) = v := by
    rw [natOfBytes_four (natOfInt_lt 4 v)]
    exact intOfNat_natOfInt_four (by simp [fitsSigned]; omega)
  have channel : (BitVec.ofNat 8 k.val).toNat = k := toNat_byte (by omega)
  have status : (BitVec.ofNat 8 code.val).toNat = code := toNat_byte code.isLt
  have four : ((bytesOfNat 4 (natOfInt 4 v)) ++ crcField ([6#8, BitVec.ofNat 8 k, BitVec.ofNat 8 code] ++
      bytesOfNat 4 (natOfInt 4 v))).take 4 = bytesOfNat 4 (natOfInt 4 v) := List.take_left' rfl
  unfold parseSample
  rw [goodSample_sampleChars, if_pos rfl]
  simp only [sampleChars, sealed, List.cons_append, List.nil_append] at four ⊢
  simp only [channel, status, k.isLt, four, value, dite_true]

/-- Settles O4: the frame of a body is good and gives the body back, from which each command is read. -/
theorem framesDecodeToWhatTheyCarry : Obligations.FramesDecodeToWhatTheyCarry := by
  unfold Obligations.FramesDecodeToWhatTheyCarry
  refine ⟨fun i f body well e length => decodeRequest_encoded well e length, fun k code v low high => ?_⟩
  exact parseSample_sampleChars k code low high

/-- Settles O5, by evaluating the decoder on the four frames. -/
theorem writtenOutFramesDecode : Obligations.WrittenOutFramesDecode := by
  unfold Obligations.WrittenOutFramesDecode
  exact ⟨by decide +kernel, by decide +kernel, by decide +kernel, by decide +kernel⟩

end Sys2Proof.Proofs.Frames
end

section
/-! What an allocation event distributes (R50 to R62). -/

namespace Sys2Proof.Proofs.Sums

open Sys2Proof Sys2Proof.Machine Sys2Proof.Proofs.Event

variable {s t : State} {a : Nat} {c : Fin 8}

/-! ## The figures that an event starts from (R43, R55) -/

theorem flagItem_eq (h : t.contracts.contract = s.contracts.contract) (i : Item) : flagItem t i = flagItem s i := by
  unfold flagItem
  rw [item_eq h]

theorem classOf_eq (h : t.contracts.contract = s.contracts.contract) (c : Fin 8) : classOf t c = classOf s c := by
  unfold classOf
  rw [consumerItem_eq h]

theorem sourceSum_eq (hf : t.field = s.field) (hc : t.contracts.contract = s.contracts.contract) : sourceSum t = sourceSum s := by
  unfold sourceSum
  simp only [flagItem_eq hc, takeRate_eq hf hc]

theorem holderTerm_eq (hb : t.band = s.band) (hc : t.contracts.contract = s.contracts.contract) : holderTerm t = holderTerm s := by
  unfold holderTerm
  simp only [hb, item_eq hc]

theorem availableRate_eq (hf : t.field = s.field) (hb : t.band = s.band) (hc : t.contracts.contract = s.contracts.contract) :
    availableRate t = availableRate s := by
  unfold availableRate
  rw [sourceSum_eq hf hc, holderTerm_eq hb hc, item_eq hc]

/-! ## Class 0 and the floors are kept (R59, R60, R62) -/

theorem not_candidate_of_lit (h : lit s c = true) : isCandidate s c = false := by
  unfold lit at h
  unfold isCandidate
  simp_all

theorem not_waiting_of_lit (h : lit s c = true) : isWaiting s c = false := by
  unfold lit at h
  unfold isWaiting
  simp_all

theorem reserve_of_lit (a : Nat) (h : lit s c = true) : consumer (reserve a s).state c = consumer s c :=
  (consumer_reserve a s c).2 (not_candidate_of_lit h)

/-- An ACTIVE consumer of class 0, and any where the floors fit, is left alone by stages 1 and 2 (R59). -/
theorem afterShedding_of_lit (h : lit s c = true) (kept : classOf s c = 0 ∨ floorSum s ≤ a) :
    consumer (afterShedding a s).1 c = consumer s c := by
  rcases afterShedding_record a s c with same | ⟨-, class_, short, -⟩
  · exact same.trans (reserve_of_lit a h)
  · rw [classOf_eq (congrArg ContractUnit.contract (reserve_contracts ..))] at class_
    rw [floorSum_reserve] at short
    omega

theorem lit_congr (h : consumer t c = consumer s c) : lit t c = lit s c := by
  unfold lit
  rw [h]

theorem plan_of_lit (h : lit s c = true) (kept : classOf s c = 0 ∨ floorSum s ≤ a) :
    consumer (plan a s).state c = consumer s c := by
  have left := afterShedding_of_lit h kept
  rw [plan_eq]
  split
  · exact left
  · rw [consumer_planServed _ _ _ _ (not_waiting_of_lit ((lit_congr left).trans h)), left]

theorem planServed_floor {r : Reserving} {l : List (Fin 8)} (h : lit s c = true) :
    litFloor s c ≤ (planServed a r s l).grants[c] := by
  unfold planServed
  split
  next d picked =>
    have waits : isWaiting s d = true := by
      split at picked
      · exact toRestore_waiting picked
      · exact nomatch picked
    have other : c ≠ d := by
      rintro rfl
      exact Bool.noConfusion ((not_waiting_of_lit h).symm.trans waits)
    have floor : litFloor (putConsumer d (restored s d) s) c = litFloor s c :=
      litFloor_congr rfl rfl rfl (by rw [consumer_putConsumer_ne other])
    rw [← floor]
    exact le_floorsAndNominations _ _ ((lit_restored waits).trans h)
  next => exact le_floorsAndNominations _ _ h

/-- Where the floors fit, every ACTIVE consumer is granted its own at least (R62). -/
theorem plan_floor (h : lit s c = true) (fits : floorSum s ≤ a) : litFloor s c ≤ (plan a s).grants[c] := by
  have left := afterShedding_of_lit h (.inr fits)
  have enough : ¬ a < floorSum (afterShedding a s).1 := by
    have := floorSum_afterShedding_le a s
    omega
  rw [plan_eq, if_neg enough, ← litFloor_afterShedding a s c]
  exact planServed_floor ((lit_congr left).trans h)

/-! ## The event -/

/-- What the flare credit leaves as it was is all that an event distributes by (R65). -/
theorem creditFlare_figures (clean : s.store.errors = []) :
    availableRate (creditFlare s) = availableRate s ∧ floorSum (creditFlare s) = floorSum s ∧
    ∀ c, demand (creditFlare s) c = demand s c ∧ litFloor (creditFlare s) c = litFloor s c ∧
      consumer (creditFlare s) c = consumer s c ∧ classOf (creditFlare s) c = classOf s c := by
  obtain ⟨-, -, field, -, band, exports, contracts, -, -, -, settlement, -⟩ := creditFlare_outside clean
  have contract := congrArg ContractUnit.contract contracts
  have clock : (creditFlare s).settlement.clock = s.settlement.clock := by
    have same := congrArg (fun x : Settlement => x.clock) settlement
    exact same
  have record : ∀ c, consumer (creditFlare s) c = consumer s c := consumer_eq (creditFlare_supervisor s)
  have demands : ∀ c, demand (creditFlare s) c = demand s c := fun c =>
    demand_congr contracts exports clock (by rw [record])
  have floors : ∀ c, litFloor (creditFlare s) c = litFloor s c := fun c => litFloor_of_demand contracts (demands c)
  exact ⟨availableRate_eq field band contract, sumOver_congr (fun c => lit_congr (record c)) fun c _ => floors c,
    fun c => ⟨demands c, floors c, record c, classOf_eq contract c⟩⟩

theorem runStages_reservation (s : State) (c : Fin 8) :
    reservation (runStages s) c = (plan (availableRate s) s).reservations[c] := by
  unfold reservation
  rw [runStages_result]
  generalize plan (availableRate s) s = p
  rfl

theorem runStages_record (s : State) (c : Fin 8) :
    (consumer (runStages s) c).state = (consumer (plan (availableRate s) s).state c).state ∧
      (consumer (runStages s) c).target = (consumer (plan (availableRate s) s).state c).target := by
  have left := consumer_runStages s c
  generalize consumer (runStages s) c = r at left ⊢
  generalize consumer (plan (availableRate s) s).state c = p at left ⊢
  rw [left]
  exact ⟨rfl, rfl⟩

/-- The result of an event balances, within the demands, with grants in ACTIVE and reservations in PURGING toward ACTIVE. -/
theorem runStages_sound (s : State) : Machine.Balanced (runStages s).allocator.result ∧ ∀ c : Fin 8,
    grant (runStages s) c ≤ demand s c ∧
    (grant (runStages s) c ≠ 0 → (consumer (runStages s) c).state = .active) ∧
    (reservation (runStages s) c ≠ 0 → (consumer (runStages s) c).state = .purging ∧
      (consumer (runStages s) c).target = some .active) := by
  obtain ⟨balanced, granted, reserved⟩ := plan_sound (availableRate s) s
  refine ⟨?_, fun c => ?_⟩
  · rw [runStages_result]
    generalize plan (availableRate s) s = p at balanced
    exact balanced
  · obtain ⟨state, target⟩ := runStages_record s c
    rw [runStages_grant, runStages_reservation, state, target]
    refine ⟨Nat.le_trans (granted c) ?_, fun some => ?_, fun some => Upkeep.isCandidate_iff.1 (reserved c some)⟩
    · rw [demand_plan]
      split
      · exact Nat.le_refl _
      · exact Nat.zero_le _
    · refine Classical.byContradiction fun out => ?_
      have none := granted c
      have unlit : ¬ lit (plan (availableRate s) s).state c = true := fun isLit => out (eq_of_beq isLit)
      rw [if_neg unlit] at none
      exact some (Nat.le_zero.1 none)

theorem lit_runStages (s : State) (c : Fin 8) : lit (runStages s) c = lit (plan (availableRate s) s).state c := by
  unfold lit
  rw [(runStages_record s c).1]

/-- Settles O18: the stages' sums, their bounds, and what they leave of class 0 and of the floors. -/
theorem allocationEventDistributesTheAvailableRate : Obligations.AllocationEventDistributesTheAvailableRate := by
  unfold Obligations.AllocationEventDistributesTheAvailableRate
  intro s clean
  obtain ⟨rate, floors, each⟩ := creditFlare_figures clean
  rw [allocationEvent_clean clean]
  generalize creditFlare s = x at *
  obtain ⟨balanced, sound⟩ := runStages_sound x
  refine ⟨?_, balanced, fun c => ?_, fun c isLit => ?_⟩
  · rw [runStages_result]
    generalize plan (availableRate x) x = p
    exact rate
  · rw [← (each c).1]
    exact sound c
  · obtain ⟨-, floor, record, class_⟩ := each c
    have isLit' : lit x c = true := (lit_congr record).trans isLit
    have stays : ∀ kept : classOf x c = 0 ∨ floorSum x ≤ availableRate x, lit (runStages x) c = true := fun kept => by
      rw [lit_runStages, lit_congr (plan_of_lit isLit' kept), isLit']
    refine ⟨fun zero => stays (.inl (class_.trans zero)), fun fits => ?_⟩
    have fits' : floorSum x ≤ availableRate x := by rw [floors, rate]; exact fits
    refine ⟨stays (.inr fits'), ?_⟩
    rw [runStages_grant, ← floor]
    exact plan_floor isLit' fits'

end Sys2Proof.Proofs.Sums
end

section
/-! Facts about notices and evaluation points that several operations share, and the operations of the Field Input Unit that
meter nothing: noise, the zero-flow expiry, sample frames and the freshness expiry (1-3, 1-5). -/

namespace Sys2Proof.Proofs.Fields

open Sys2Proof Sys2Proof.Machine Sys2Proof.Proofs.Event

variable {s t : State}

/-! ## Notices (R184, R185) -/

theorem exists_party (p : Fin 3) : ∃ q : Party, partyIndex q = p :=
  match p with
  | 0 => ⟨.works, rfl⟩
  | 1 => ⟨.town, rfl⟩
  | 2 => ⟨.grid, rfl⟩

theorem raiseNotice_otherNotices (ps : PartySet) (k : Fin 10) (d : Detail) (s : State) :
    OtherNoticesKept s (raiseNotice ps k d s) k := by
  have standing := raiseNotice_standing ps k d s
  refine ⟨congrArg Standing.ports standing, congrArg Standing.masks standing, fun p j other => ?_⟩
  obtain ⟨q, rfl⟩ := exists_party p
  rw [notices_raiseNotice, if_neg fun both => other both.2]

theorem raiseNotice_permissives (ps : PartySet) (k : Fin 10) (d : Detail) (s : State) :
    PermissivesKept s (raiseNotice ps k d s) := by
  have standing := raiseNotice_standing ps k d s
  exact ⟨congrArg Standing.gasEn standing, congrArg Standing.backupEn standing, congrArg Standing.flareEn standing⟩

theorem raiseNotice_all (k : Fin 10) (d : Detail) (s : State) (p : Fin 3) :
    (raiseNotice allParties k d s).links.notices[p][k] = addOccurrence d s.links.notices[p][k] := by
  obtain ⟨q, rfl⟩ := exists_party p
  rw [notices_raiseNotice, if_pos ⟨hasParty_allParties q, rfl⟩]

/-- A notice moves records and attention lines alone. -/
theorem raiseNotice_frame (ps : PartySet) (k : Fin 10) (d : Detail) (s : State) : raiseNotice ps k d s = { s with
    links := { s.links with notices := (raiseNotice ps k d s).links.notices }
    lines := { s.lines with attn := (raiseNotice ps k d s).lines.attn } } :=
  foldl_induct (fun t : State => t = { s with
    links := { s.links with notices := t.links.notices }, lines := { s.lines with attn := t.lines.attn } }) _ _
    (fun t p _ kept => by
      split
      · generalize ht : t.links.notices = n at kept
        generalize t.lines.attn = a at kept
        subst kept
        rfl
      · exact kept) _ rfl

/-! ## Evaluation points (R88) -/

theorem evaluated_congr (field : t.field = s.field) (allocator : t.allocator = s.allocator) (supervisor : t.supervisor = s.supervisor)
    (contracts : t.contracts = s.contracts) (c : Fin 8) : evaluated t c = evaluated s c := by
  cases s
  cases t
  cases field
  cases allocator
  cases supervisor
  cases contracts
  rfl

theorem evaluateSome_frame (c : Option (Fin 8)) (s : State) :
    evaluateSome c s = { s with supervisor := (evaluateSome c s).supervisor } := by
  cases c <;> rfl

theorem evaluateSome_kept (c : Option (Fin 8)) (s : State) : ConsumersKept s (evaluateSome c s) c := by
  cases c with
  | none => exact ⟨rfl, fun _ => ⟨rfl, fun _ => rfl⟩⟩
  | some c =>
    refine ⟨rfl, fun d => ⟨consumer_evaluate c d s, fun other => ?_⟩⟩
    exact consumer_setConsumer_ne (fun e => other (congrArg some e.symm)) _ _

theorem evaluateSome_at (c : Option (Fin 8)) (s : State) : EvaluatedAt s (evaluateSome c s) c := by
  rintro d rfl
  exact consumer_setConsumer_same ..

/-- An evaluation point that follows other changes, told of the state before them. -/
theorem evaluateSome_after {u : State} (c : Option (Fin 8)) (field : t.field = u.field) (allocator : t.allocator = s.allocator)
    (supervisor : t.supervisor = s.supervisor) (contracts : t.contracts = s.contracts) :
    ConsumersKept s (evaluateSome c t) c ∧ EvaluatedAt { s with field := u.field } (evaluateSome c t) c := by
  obtain ⟨base, records⟩ := evaluateSome_kept c t
  have before : ∀ d, consumer t d = consumer s d := consumer_eq supervisor
  refine ⟨⟨base.trans (by rw [supervisor]), fun d => ?_⟩, fun d e => ?_⟩
  · rw [← before]
    exact records d
  · rw [evaluateSome_at c t d e]
    exact evaluated_congr (s := { s with field := u.field }) field allocator supervisor contracts d

/-! ## Operations where no word is in error -/

/-- An operation that hands over no trigger is its body. -/
theorem operation_quiet (calm : Calm s) {reads : List Thing} {body : State → State}
    (quiet : (body s).allocator.triggers = s.allocator.triggers) : operation reads body s = body s := by
  obtain ⟨-, clean, idle⟩ := calm
  rw [operation_calm clean idle, settle_idle (quiet.trans idle)]

theorem reads_calm (calm : Calm s) (reads : List Thing) : settle (readAll reads s) = s := by
  obtain ⟨-, clean, idle⟩ := calm
  rw [readAll_clean clean, settle_idle idle]

/-! ## Noise (R2, R6) -/

theorem exec_pulseArrival (ch : Fin 16) (high low : Nat) (s : State) :
    exec (.pulseArrival ch high low) s = execPulseArrival ch high low s := rfl

theorem edgeCounts_of_long (calm : Calm s) {high low : Nat} (longHigh : 200 ≤ high) (longLow : 200 ≤ low) :
    edgeCounts s high low = true := by
  obtain ⟨running, -⟩ := calm
  simp [edgeCounts, running, longHigh, longLow]

theorem edgeCounts_of_short {high low : Nat} (short : high < 200 ∨ low < 200) : edgeCounts s high low = false := by
  unfold edgeCounts
  rcases short with short | short <;> simp [Nat.not_le.2 short]

theorem countUp_eq (limit n : Nat) : countUp limit n = min limit (n + 1) := by
  unfold countUp
  split <;> omega

theorem sinceLast_eq {ch : Fin 16} {last : Nat} (h : (channel s ch).lastArrival = some last) :
    sinceLast s ch = sinceArrival s last := by
  rw [sinceLast, h]

theorem passesSpacing_early {ch : Fin 16} {last : Nat} (flows : (channel s ch).state ≠ .noFlow)
    (arrival : (channel s ch).lastArrival = some last) (early : sinceArrival s last < itemNat s (minSpacingItem ch)) :
    passesSpacing s ch = false := by
  simp [passesSpacing, flows, sinceLast_eq arrival, early]

theorem execPulseArrival_calm (calm : Calm s) {ch : Fin 16} {high low : Nat} (longHigh : 200 ≤ high) (longLow : 200 ≤ low) :
    exec (.pulseArrival ch high low) s =
      if passesSpacing s ch then .next (operation (pulseReads s ch) (acceptPulse ch) s) else .next (rejectPulse ch s) := by
  rw [exec_pulseArrival, execPulseArrival, edgeCounts_of_long calm longHigh longLow, if_pos rfl]
  simp only [reads_calm calm]

/-- Settles O10: a pulse fails the spacing check, or its edge does not count. -/
theorem earlyPulseIsNoise : Obligations.EarlyPulseIsNoise := by
  unfold Obligations.EarlyPulseIsNoise
  refine fun s ch high low => ⟨fun last calm longHigh longLow flows arrival early => ?_, fun short => ?_⟩
  · rw [execPulseArrival_calm calm longHigh longLow, passesSpacing_early flows arrival early, rejectPulse, countUp_eq]
    rfl
  · rw [exec_pulseArrival, execPulseArrival, edgeCounts_of_short short]
    rfl

/-! ## The zero-flow expiry (R7) -/

theorem zeroFlowDue_of_late {ch : Fin 16} {last : Nat} (flows : (channel s ch).state ≠ .noFlow)
    (arrival : (channel s ch).lastArrival = some last) (late : 1000 * itemNat s (zeroFlowItem ch) ≤ sinceArrival s last) :
    zeroFlowDue s ch = true := by
  unfold zeroFlowDue
  rw [arrival]
  cases st : (channel s ch).state
  case noFlow => exact absurd st flows
  all_goals exact decide_eq_true late

/-- Settles O13: the expiry that is due empties the channel's record and evaluates its consumer. -/
theorem zeroFlowExpiryEmptiesTheChannel : Obligations.ZeroFlowExpiryEmptiesTheChannel := by
  unfold Obligations.ZeroFlowExpiryEmptiesTheChannel
  intro s ch last calm flows arrival late
  have due := zeroFlowDue_of_late flows arrival late
  have effect : exec (.zeroFlowExpiry ch) s = .next (expireFlow ch s) := by
    have body : takeZeroFlow ch s = expireFlow ch s := if_pos due
    have quiet : (expireFlow ch s).allocator.triggers = s.allocator.triggers := by
      rw [expireFlow, evaluateSome_frame]
      rfl
    show execZeroFlowExpiry ch s = _
    unfold execZeroFlowExpiry
    rw [due, calm.1, operation_quiet calm (by rw [body]; exact quiet), body]
    rfl
  refine ⟨_, effect, ?_⟩
  generalize emptied : setChannel ch { freshChannel with noise := (channel s ch).noise } s = u
  have expired : expireFlow ch s = evaluateSome (channelConsumer ch) u := by rw [expireFlow, emptied]
  obtain ⟨kept, evaluates⟩ := evaluateSome_after (s := s) (t := u) (u := u) (channelConsumer ch) rfl (by rw [← emptied]; rfl)
    (by rw [← emptied]; rfl) (by rw [← emptied]; rfl)
  rw [expired]
  have frame := evaluateSome_frame (channelConsumer ch) u
  have field : (evaluateSome (channelConsumer ch) u).field = u.field := by rw [frame]
  rw [field]
  refine ⟨by rw [← emptied]; rfl, kept, evaluates, ?_⟩
  rw [frame, ← emptied]
  exact ⟨rfl, rfl, rfl, rfl, rfl, rfl, rfl, rfl, rfl, rfl, rfl⟩

/-! ## Sample frames and the freshness expiry (R11 to R14) -/

theorem exec_sampleFrame (raw : RawFrame) (s : State) : exec (.sampleFrame raw) s = execSampleFrame raw s := rfl

theorem execSampleFrame_calm (calm : Calm s) {raw : RawFrame} {k : Fin 22} {status : SampleStatus} {v : Int}
    (parsed : parseSample raw = some (k, status, v)) :
    exec (.sampleFrame raw) s = .next (operation (frameReads k)
      (if frameValid s k status v then takeValid k status v else holdSample k) s) := by
  rw [exec_sampleFrame, execSampleFrame, parsed]
  simp only [calm.1, if_true, reads_calm calm]

theorem frameValid_inRange {k : Fin 22} {status : SampleStatus} {v : Int} (usable : status ≠ .bad)
    (low : item s (.rangeLow k) ≤ v) (high : v ≤ item s (.rangeHigh k)) : frameValid s k status v = true := by
  simp [frameValid, usable, low, high]

theorem frameValid_outside {k : Fin 22} {status : SampleStatus} {v : Int}
    (invalid : status = .bad ∨ v < item s (.rangeLow k) ∨ item s (.rangeHigh k) < v) : frameValid s k status v = false := by
  unfold frameValid
  rcases invalid with bad | low | high
  · simp [bad]
  · simp [Int.not_le.2 low]
  · simp [Int.not_le.2 high]

/-- A record that is replaced and told, or not, and its consumer evaluated: what else moves. -/
theorem sampleTaken {t : State} {k : Fin 22} {r : SampleRecord} {c : Option (Fin 8)}
    (frame : t = { setSample k r s with links := t.links, lines := t.lines }) :
    (evaluateSome c t).field = (setSample k r s).field ∧ (evaluateSome c t).links = t.links ∧
    (evaluateSome c t).lines = t.lines ∧
    ConsumersKept s (evaluateSome c t) c ∧ EvaluatedAt { s with field := (evaluateSome c t).field } (evaluateSome c t) c ∧
    (evaluateSome c t).power = s.power ∧ (evaluateSome c t).freeIndex = s.freeIndex ∧
    (evaluateSome c t).metering = s.metering ∧ (evaluateSome c t).band = s.band ∧
    (evaluateSome c t).allocator = s.allocator ∧ (evaluateSome c t).exports = s.exports ∧
    (evaluateSome c t).contracts = s.contracts ∧ (evaluateSome c t).settlement = s.settlement ∧
    (evaluateSome c t).store = s.store := by
  have evaluation := evaluateSome_frame c t
  have field : (evaluateSome c t).field = t.field := by rw [evaluation]
  obtain ⟨kept, evaluates⟩ := evaluateSome_after (s := s) (t := t) (u := t) c rfl (by rw [frame]; rfl) (by rw [frame]; rfl)
    (by rw [frame]; rfl)
  rw [field]
  refine ⟨by rw [frame], by rw [evaluation], by rw [evaluation], kept, evaluates, ?_⟩
  rw [evaluation, frame]
  exact ⟨rfl, rfl, rfl, rfl, rfl, rfl, rfl, rfl, rfl⟩

theorem noticeField_frame (k : Fin 22) (st : SampleState) (s : State) :
    noticeField k st s = { s with links := (noticeField k st s).links, lines := (noticeField k st s).lines } := by
  have frame := raiseNotice_frame allParties clsField (.field k st) s
  generalize told : noticeField k st s = t
  rw [show raiseNotice allParties clsField (.field k st) s = t from told] at frame
  generalize t.links.notices = n at frame
  generalize t.lines.attn = a at frame
  subst frame
  rfl

/-- What a FIELD notice leaves, where only the record changed before it. -/
theorem noticeField_told (k : Fin 22) (r : SampleRecord) (st : SampleState) (s : State) :
    OtherNoticesKept s (noticeField k st (setSample k r s)) clsField ∧
    PermissivesKept s (noticeField k st (setSample k r s)) ∧
    ∀ p : Fin 3, (noticeField k st (setSample k r s)).links.notices[p][clsField] =
      addOccurrence (.field k st) s.links.notices[p][clsField] :=
  ⟨raiseNotice_otherNotices allParties clsField (.field k st) (setSample k r s),
    raiseNotice_permissives allParties clsField (.field k st) (setSample k r s),
    raiseNotice_all clsField (.field k st) (setSample k r s)⟩

/-- Settles O14: the record is replaced, told where it was not VALID, and its consumer evaluated. -/
theorem validFrameMakesTheRecordValid : Obligations.ValidFrameMakesTheRecordValid := by
  unfold Obligations.ValidFrameMakesTheRecordValid
  intro s raw k status v calm parsed notLevel usable low high
  generalize told : (if (sample s k).state = .valid then setSample k (validRecord s k status v) s
    else noticeField k .valid (setSample k (validRecord s k status v) s)) = t
  have frame : t = { setSample k (validRecord s k status v) s with links := t.links, lines := t.lines } := by
    rw [← told]
    split
    · rfl
    · exact noticeField_frame ..
  obtain ⟨field, links, lines, kept, evaluates, power, free, metering, band, allocator, rest⟩ :=
    sampleTaken (c := sampleConsumer k) frame
  have taken : takeValid k status v s = evaluateSome (sampleConsumer k) t := by
    rw [takeValid, if_neg notLevel, told]
  have effect : exec (.sampleFrame raw) s = .next (evaluateSome (sampleConsumer k) t) := by
    rw [execSampleFrame_calm calm parsed, frameValid_inRange usable low high, if_pos rfl, operation_quiet calm, taken]
    rw [taken, allocator]
  refine ⟨_, effect, field, fun valid => ?_, fun invalid => ?_, kept, evaluates, power, free, metering, band, allocator, rest⟩
  · rw [links, lines, ← told, if_pos valid]
    exact ⟨rfl, rfl⟩
  · rw [if_neg invalid] at told
    obtain ⟨others, permissives, each⟩ := noticeField_told k (validRecord s k status v) .valid s
    rw [told] at others permissives each
    simp only [OtherNoticesKept, PermissivesKept, links, lines]
    exact ⟨others, permissives, each⟩

theorem exec_freshnessExpiry (k : Fin 22) (s : State) : exec (.freshnessExpiry k) s = execFreshnessExpiry k s := rfl

theorem freshnessDue_of_ran {k : Fin 22} {tm : Timer} (timer : (sample s k).timer = some tm)
    (ran : tm.length ≤ sinceArrival s tm.start) : freshnessDue s k = true := by
  rw [freshnessDue, timer]
  exact decide_eq_true ran

theorem holdSample_valid {k : Fin 22} (valid : (sample s k).state = .valid) : holdSample k s = evaluateSome (sampleConsumer k)
    (noticeField k .held (setSample k { sample s k with state := .held, timer := none } s)) := if_pos valid

/-- Settles O15: an invalid frame and the expiry both hold a VALID record, and a frame moves no other. -/
theorem invalidFrameAndExpiryHoldTheRecord : Obligations.InvalidFrameAndExpiryHoldTheRecord := by
  unfold Obligations.InvalidFrameAndExpiryHoldTheRecord
  refine fun s k calm => ⟨fun i invalid valid => ?_, fun raw status v parsed invalid notValid => ?_⟩
  · have frame := noticeField_frame k .held (setSample k { sample s k with state := .held, timer := none } s)
    obtain ⟨others, permissives, told⟩ := noticeField_told k { sample s k with state := .held, timer := none } .held s
    have held := holdSample_valid valid
    generalize noticeField k .held (setSample k { sample s k with state := .held, timer := none } s) = t at *
    obtain ⟨field, links, lines, kept, evaluates, power, free, metering, band, allocator, rest⟩ :=
      sampleTaken (c := sampleConsumer k) frame
    have quiet : (holdSample k s).allocator.triggers = s.allocator.triggers := by rw [held, allocator]
    have effect : exec i s = .next (evaluateSome (sampleConsumer k) t) := by
      rcases invalid with ⟨raw, status, v, rfl, parsed, invalid⟩ | ⟨tm, rfl, timer, ran⟩
      · rw [execSampleFrame_calm calm parsed, frameValid_outside invalid, if_neg Bool.false_ne_true, operation_quiet calm quiet, held]
      · rw [exec_freshnessExpiry, execFreshnessExpiry, freshnessDue_of_ran timer ran, calm.1, operation_quiet calm quiet, held]
        rfl
    refine ⟨_, effect, field, ?_, ?_, ?_, kept, evaluates, power, free, metering, band, allocator, rest⟩
    · simp only [OtherNoticesKept, links]
      exact others
    · simp only [PermissivesKept, lines]
      exact permissives
    · rw [links]
      exact told
  · have still : holdSample k s = s := if_neg notValid
    rw [execSampleFrame_calm calm parsed, frameValid_outside invalid, if_neg Bool.false_ne_true,
      operation_quiet calm (by rw [still]), still]


end Sys2Proof.Proofs.Fields
end

section
/-! An accepted pulse (1-3, 2-1 to 2-6): the channel's record, the total with its remainder, the marks of the open record. -/

namespace Sys2Proof.Proofs.Pulses

open Sys2Proof Sys2Proof.Machine Sys2Proof.Proofs.Fields

variable {s t : State} {ch : Fin 16}

/-! ## Totals and remainders (R25, R28, R29) -/

/-- The Metering Engine with a quantity added to a channel's total through its remainder. -/
def counted (s : State) (ch : Fin 16) (q : Nat) : Metering where
  totals := s.metering.totals.set ch ((s.metering.totals[ch] + (remainderOf s ch + q) / unitsPerWh ch) % Config.totalModulus)
  remainders := if h : ch.val < 15 then s.metering.remainders.set ch.val ((remainderOf s ch + q) % unitsPerWh ch)
    else s.metering.remainders

theorem accumulate_clean (clean : s.store.errors = []) (q : Nat) :
    accumulate ch q s = { s with metering := counted s ch q } := by
  unfold accumulate setTotal
  exact wrote_clean (s := { s with metering := counted s ch q }) clean _

theorem remainderOf_counted_same (h : s.metering = counted t ch q) : remainderOf s ch = (remainderOf t ch + q) % unitsPerWh ch := by
  by_cases below : ch.val < 15
  · simp only [remainderOf, h, counted, below, dite_true]
    exact Vector.getElem_set_self ..
  · rw [remainderOf, dif_neg below]
    have last : ch = 15 := by omega
    subst last
    exact (Nat.mod_one _).symm

theorem remainderOf_counted_ne {d : Fin 16} (h : s.metering = counted t ch q) (ne : d ≠ ch) : remainderOf s d = remainderOf t d := by
  have apart : ch.val ≠ d.val := fun e => ne (Fin.ext e.symm)
  unfold remainderOf
  split
  next below =>
    simp only [h, counted]
    split
    · exact Vector.getElem_set_ne _ _ apart
    · rfl
  next => rfl

/-- A total and its remainder together rise by the quantity, modulo the greatest total (R25, R28). -/
theorem counted_exact (u M T R q : Nat) :
    (u * ((T + (R + q) / u) % M) + (R + q) % u) % (u * M) = (u * T + R + q) % (u * M) := by
  have whole : u * (T + (R + q) / u) + (R + q) % u = u * T + R + q := by
    have := Nat.div_add_mod (R + q) u
    rw [Nat.mul_add]
    omega
  rw [← whole, Nat.add_mod, Nat.mul_mod_mul_left, Nat.mod_mod, ← Nat.mul_mod_mul_left u _ M, ← Nat.add_mod]

/-! ## The marks of the open record (R26, R31) -/

/-- The open record with the ESTIMATED mark that doubtful inputs call for. -/
def estimated (s : State) (ch : Fin 16) (o : OpenRecord) : OpenRecord :=
  if (pulseInputs ch).any (doubtful s) then
    if h : ch.val < 12 then { o with estimatedGas := o.estimatedGas.set ch.val true }
    else if h' : ch.val < 15 then { o with estimatedHeat := o.estimatedHeat.set (ch.val - 12) true }
    else o
  else o

/-- The open record with the reverse-ΔT count of a heat point. -/
def reversed (s : State) (ch : Fin 16) (o : OpenRecord) : OpenRecord :=
  match heatPointOf ch with
  | some n => if heatDifference s n < 0 then { o with reverse := o.reverse.set n (countUp 65535 o.reverse[n]) } else o
  | none => o

/-- The open record changed, as an operation without damage changes it. -/
def withOpen (f : OpenRecord → OpenRecord) (s : State) : State :=
  { s with settlement := { s.settlement with openRecord := s.settlement.openRecord.map f } }

theorem withOpen_id (s : State) : withOpen (fun o => o) s = s := by
  unfold withOpen
  rw [Option.map_id']

theorem markInputs_clean (clean : s.store.errors = []) : markInputs ch s = withOpen (estimated s ch) s := by
  unfold markInputs estimated
  split
  · unfold markEstimated
    split
    · exact onOpen_clean clean _ _
    · split
      · exact onOpen_clean clean _ _
      · exact (withOpen_id s).symm
  · exact (withOpen_id s).symm

theorem countReverse_clean (clean : s.store.errors = []) : countReverse ch s = withOpen (reversed s ch) s := by
  unfold countReverse reversed
  cases heatPointOf ch with
  | none => exact (withOpen_id s).symm
  | some n =>
    simp only
    split
    · exact onOpen_clean clean _ _
    · exact (withOpen_id s).symm

theorem meterPulse_clean (clean : s.store.errors = []) : meterPulse ch s =
    withOpen (reversed s ch ∘ estimated s ch) { s with metering := counted s ch (pulseQuantity s ch) } := by
  unfold meterPulse
  rw [accumulate_clean clean]
  generalize u_eq : ({ s with metering := counted s ch (pulseQuantity s ch) } : State) = u
  have clean' : u.store.errors = [] := by rw [← u_eq]; exact clean
  have marks : reversed u ch = reversed s ch ∧ estimated u ch = estimated s ch := by rw [← u_eq]; exact ⟨rfl, rfl⟩
  rw [markInputs_clean clean', countReverse_clean (s := withOpen (estimated u ch) u) clean']
  have same : reversed (withOpen (estimated u ch) u) ch = reversed u ch := rfl
  rw [same, marks.1, marks.2]
  unfold withOpen
  rw [Option.map_map]

/-- What a pulse meters, when its own record has changed already. -/
theorem acceptPulse_clean (clean : s.store.errors = []) : acceptPulse ch s = evaluateSome (channelConsumer ch)
    (withOpen (reversed s ch ∘ estimated s ch) { s with
      field := (setChannel ch (acceptedRecord s ch) s).field, metering := counted s ch (pulseQuantity s ch) }) := by
  unfold acceptPulse
  rw [meterPulse_clean (s := setChannel ch (acceptedRecord s ch) s) clean]
  rfl

/-! ## What the marks say (R26, R31) -/

theorem doubtful_iff {k : Fin 22} : doubtful s k = true ↔ InputDoubtful s k := by
  simp [doubtful]

theorem heatPointOf_gas (gas : ch.val < 12) : heatPointOf ch = none := dif_neg (by omega)

theorem heatPointOf_heat {n : Fin 3} (heat : ch.val = 12 + n.val) : heatPointOf ch = some n := by
  unfold heatPointOf
  rw [dif_pos (by omega)]
  congr
  omega

theorem heatPointOf_export : heatPointOf 15 = none := rfl

theorem not_export_of_gas (gas : ch.val < 12) : ch ≠ 15 := fun e => by
  subst e
  exact absurd gas (by decide)

theorem pulseInputs_gas (gas : ch.val < 12) : pulseInputs ch = [4, 5, calorificChannel ch] := by
  have other := not_export_of_gas gas
  rw [pulseInputs, heatPointOf_gas gas]
  exact if_neg other

theorem pulseInputs_heat {n : Fin 3} (heat : ch.val = 12 + n.val) : pulseInputs ch = [supplyChannel n, returnChannel n] := by
  rw [pulseInputs, heatPointOf_heat heat]

theorem anyDoubtful_gas (gas : ch.val < 12) : (pulseInputs ch).any (doubtful s) = true ↔
    InputDoubtful s 4 ∨ InputDoubtful s 5 ∨ InputDoubtful s (calorificChannel ch) := by
  rw [pulseInputs_gas gas]
  simp only [List.any_cons, List.any_nil, Bool.or_false, Bool.or_eq_true, doubtful_iff]

theorem anyDoubtful_heat {n : Fin 3} (heat : ch.val = 12 + n.val) : (pulseInputs ch).any (doubtful s) = true ↔
    InputDoubtful s (supplyChannel n) ∨ InputDoubtful s (returnChannel n) := by
  rw [pulseInputs_heat heat]
  simp only [List.any_cons, List.any_nil, Bool.or_false, Bool.or_eq_true, doubtful_iff]

theorem estimated_withoutMarks (s : State) (ch : Fin 16) (o : OpenRecord) :
    withoutMarks (estimated s ch o) = withoutMarks o := by
  unfold estimated
  split
  · split
    · rfl
    · split <;> rfl
  · rfl

theorem reversed_withoutMarks (s : State) (ch : Fin 16) (o : OpenRecord) :
    withoutMarks (reversed s ch o) = withoutMarks o := by
  unfold reversed
  split
  · split <;> rfl
  · rfl

theorem estimated_reverse (s : State) (ch : Fin 16) (o : OpenRecord) : (estimated s ch o).reverse = o.reverse := by
  unfold estimated
  split
  · split
    · rfl
    · split <;> rfl
  · rfl

theorem reversed_estimates (s : State) (ch : Fin 16) (o : OpenRecord) :
    (reversed s ch o).estimatedGas = o.estimatedGas ∧ (reversed s ch o).estimatedHeat = o.estimatedHeat := by
  unfold reversed
  split
  · split <;> exact ⟨rfl, rfl⟩
  · exact ⟨rfl, rfl⟩

theorem estimated_gas (s : State) (ch : Fin 16) (o : OpenRecord) (g : Fin 12) : (estimated s ch o).estimatedGas[g] =
    (o.estimatedGas[g] || decide (g.val = ch.val ∧ (pulseInputs ch).any (doubtful s) = true)) := by
  unfold estimated
  by_cases some : (pulseInputs ch).any (doubtful s) = true
  · simp only [some, if_true, and_true]
    by_cases gas : ch.val < 12
    · rw [dif_pos gas]
      by_cases e : g.val = ch.val
      · simp [e]
      · simp [e, Ne.symm e]
    · have other : g.val ≠ ch.val := by omega
      rw [dif_neg gas]
      split <;> simp [other]
  · simp [some]

theorem estimated_heat (s : State) (ch : Fin 16) (o : OpenRecord) (n : Fin 3) : (estimated s ch o).estimatedHeat[n] =
    (o.estimatedHeat[n] || decide (12 + n.val = ch.val ∧ (pulseInputs ch).any (doubtful s) = true)) := by
  unfold estimated
  by_cases some : (pulseInputs ch).any (doubtful s) = true
  · simp only [some, if_true, and_true]
    by_cases gas : ch.val < 12
    · have other : 12 + n.val ≠ ch.val := by omega
      rw [dif_pos gas]
      simp [other]
    · rw [dif_neg gas]
      split
      · by_cases e : 12 + n.val = ch.val
        · have : ch.val - 12 = n.val := by omega
          simp [e, this]
        · have : ch.val - 12 ≠ n.val := by omega
          simp [e, this]
      · have other : 12 + n.val ≠ ch.val := by omega
        simp [other]
  · simp [some]

theorem clampInt_eq {lo hi : Int} (h : lo ≤ hi) (x : Int) : clampInt lo hi x = max lo (min hi x) := by
  unfold clampInt
  split
  · omega
  · split <;> omega

theorem heatDifference_eq (s : State) (n : Fin 3) : heatDifference s n =
    max 0 (min 18000 (valueInUse s (supplyChannel n))) - max 0 (min 18000 (valueInUse s (returnChannel n))) := by
  unfold heatDifference
  rw [clampInt_eq (by decide), clampInt_eq (by decide)]

theorem heatDifference_neg {n : Fin 3} : heatDifference s n < 0 ↔
    max 0 (min 18000 (valueInUse s (supplyChannel n))) < max 0 (min 18000 (valueInUse s (returnChannel n))) := by
  rw [heatDifference_eq]
  omega

theorem heatPointOf_eq_some {n : Fin 3} (h : heatPointOf ch = some n) : ch.val = 12 + n.val := by
  unfold heatPointOf at h
  split at h
  · cases h
    simp only
    omega
  · cases h

theorem reversed_reverse (s : State) (ch : Fin 16) (o : OpenRecord) (n : Fin 3) : (reversed s ch o).reverse[n] =
    if 12 + n.val = ch.val ∧ heatDifference s n < 0 then min 65535 (o.reverse[n] + 1) else o.reverse[n] := by
  unfold reversed
  split
  next m point =>
    have heat := heatPointOf_eq_some point
    by_cases e : n = m
    · subst e
      by_cases below : heatDifference s n < 0
      · rw [if_pos below, if_pos ⟨heat.symm, below⟩, ← countUp_eq]
        exact Vector.getElem_set_self ..
      · rw [if_neg below, if_neg fun both => below both.2]
    · have other : ¬ 12 + n.val = ch.val := fun same => e (Fin.ext (by omega))
      refine Eq.trans ?_ (if_neg fun both => other both.1).symm
      split
      · exact getElem_set_fin _ e _
      · rfl
  next none =>
    rw [if_neg fun both => by rw [heatPointOf_heat both.1.symm] at none; cases none]

theorem markedByPulse (s : State) (ch : Fin 16) (t : State)
    (marks : t.settlement.openRecord = s.settlement.openRecord.map (reversed s ch ∘ estimated s ch)) : MarkedByPulse s t ch := by
  refine ⟨?_, fun o o' isOpen after => ?_⟩
  · rw [marks, Option.map_map]
    congr 1
    funext o
    simp only [Function.comp, reversed_withoutMarks, estimated_withoutMarks]
  · have : o' = reversed s ch (estimated s ch o) := by
      rw [marks, isOpen] at after
      exact (Option.some.inj after).symm
    subst this
    obtain ⟨gas, heat⟩ := reversed_estimates s ch (estimated s ch o)
    refine ⟨fun g => ?_, fun n => ?_, fun n => ?_⟩
    · rw [gas, estimated_gas]
      congr 1
      refine decide_eq_decide.2 (and_congr_right fun e => ?_)
      rw [anyDoubtful_gas (by omega), calorificChannel]
      simp only [e]
    · rw [heat, estimated_heat]
      congr 1
      refine decide_eq_decide.2 (and_congr_right fun e => ?_)
      exact anyDoubtful_heat e.symm
    · rw [reversed_reverse, estimated_reverse]
      simp only [heatDifference_neg]
      rfl

/-! ## The accepted pulse (R4, R5, R8, R9) -/

theorem execPulseArrival_accepted (calm : Calm s) {high low : Nat} (longHigh : 200 ≤ high) (longLow : 200 ≤ low)
    (passes : passesSpacing s ch = true) : exec (.pulseArrival ch high low) s = .next (acceptPulse ch s) := by
  rw [execPulseArrival_calm calm longHigh longLow, if_pos passes, operation_quiet calm]
  rw [acceptPulse_clean calm.2.1, evaluateSome_frame]
  rfl

/-- What every accepted pulse leaves (R8, R25, R26, R28, R29, R31, R88). -/
theorem acceptPulse_leaves (calm : Calm s) {r : PulseChannel} (record : acceptedRecord s ch = r) {t : State}
    (after : acceptPulse ch s = t) :
    t.field = (setChannel ch r s).field ∧
    t.metering = counted s ch (pulseQuantity s ch) ∧
    t.settlement.openRecord = s.settlement.openRecord.map (reversed s ch ∘ estimated s ch) ∧
    (t.metering.totals = s.metering.totals.set ch
        ((s.metering.totals[ch] + (remainderOf s ch + pulseQuantity s ch) / unitsPerWh ch) % 10000000000000) ∧
      remainderOf t ch = (remainderOf s ch + pulseQuantity s ch) % unitsPerWh ch ∧
      (∀ d : Fin 16, d ≠ ch → remainderOf t d = remainderOf s d) ∧
      ConsumersKept s t (channelConsumer ch) ∧ EvaluatedAt { s with field := t.field } t (channelConsumer ch) ∧
      SettlementKept s t ∧ MarkedByPulse s t ch ∧
      t.power = s.power ∧ t.freeIndex = s.freeIndex ∧ t.band = s.band ∧ t.allocator = s.allocator ∧
      t.exports = s.exports ∧ t.contracts = s.contracts ∧ t.store = s.store ∧ t.links = s.links ∧ t.lines = s.lines) := by
  rw [acceptPulse_clean calm.2.1, record] at after
  generalize metered : withOpen (reversed s ch ∘ estimated s ch) { s with
    field := (setChannel ch r s).field, metering := counted s ch (pulseQuantity s ch) } = u at after
  obtain ⟨kept, evaluates⟩ := evaluateSome_after (s := s) (t := u) (u := u) (channelConsumer ch) rfl (by rw [← metered]; rfl)
    (by rw [← metered]; rfl) (by rw [← metered]; rfl)
  have frame := evaluateSome_frame (channelConsumer ch) u
  rw [after] at kept evaluates frame
  generalize t.supervisor = sup at frame
  have field : t.field = u.field := by rw [frame]
  have metering : t.metering = counted s ch (pulseQuantity s ch) := by rw [frame, ← metered]; rfl
  have marks : t.settlement.openRecord = s.settlement.openRecord.map (reversed s ch ∘ estimated s ch) := by
    rw [frame, ← metered]; rfl
  refine ⟨by rw [field, ← metered]; rfl, metering, marks, by rw [metering]; rfl, remainderOf_counted_same metering,
    fun d ne => remainderOf_counted_ne metering ne, kept, by rw [field]; exact evaluates, ?_, markedByPulse s ch t marks, ?_⟩
  · rw [frame, ← metered]
    rfl
  · rw [frame, ← metered]
    exact ⟨rfl, rfl, rfl, rfl, rfl, rfl, rfl, rfl, rfl⟩

theorem passesSpacing_noFlow (empty : (channel s ch).state = .noFlow) : passesSpacing s ch = true := by
  simp [passesSpacing, empty]

/-- Settles O8: a NO_FLOW channel accepts every pulse, and its record becomes FIRST. -/
theorem firstPulseIsAccepted : Obligations.FirstPulseIsAccepted := by
  unfold Obligations.FirstPulseIsAccepted
  intro s ch high low calm longHigh longLow empty
  have record : acceptedRecord s ch = ⟨.first, some s.field.arrivalBase, none, some (recordedEnergy s ch), 0,
      (channel s ch).noise⟩ := by
    rw [acceptedRecord, empty]
  obtain ⟨field, -, -, rest⟩ := acceptPulse_leaves calm record rfl
  exact ⟨_, execPulseArrival_accepted calm longHigh longLow (passesSpacing_noFlow empty), field, rest⟩

theorem acceptedRecord_later {last : Nat} (flows : (channel s ch).state ≠ .noFlow)
    (arrival : (channel s ch).lastArrival = some last) : acceptedRecord s ch =
      { state := .flowing, lastArrival := some s.field.arrivalBase, period := some (sinceArrival s last),
        lastEnergy := some (recordedEnergy s ch), rate := rateOf ch (recordedEnergy s ch) (sinceArrival s last),
        noise := (channel s ch).noise } := by
  unfold acceptedRecord
  rw [sinceLast_eq arrival]
  cases st : (channel s ch).state
  case noFlow => exact absurd st flows
  all_goals rfl

/-- Settles O9: a later pulse passes the spacing check, and its record is FLOWING with the rate over the elapsed time. -/
theorem laterPulseFormsARate : Obligations.LaterPulseFormsARate := by
  unfold Obligations.LaterPulseFormsARate
  intro s ch high low last calm longHigh longLow flows arrival spaced
  have passes : passesSpacing s ch = true := by simp [passesSpacing, sinceLast_eq arrival, spaced]
  obtain ⟨field, -, -, rest⟩ := acceptPulse_leaves calm (acceptedRecord_later flows arrival) rfl
  exact ⟨_, execPulseArrival_accepted calm longHigh longLow passes, field, rest⟩

/-! ## Energy (R23 to R29) -/

theorem pulseQuantity_gas (gas : ch.val < 12) : pulseQuantity s ch =
    gasEnergy (itemNat s (pulseWeightItem ch)) (valueInUse s 4) (valueInUse s 5) (valueInUse s (calorificChannel ch)) := by
  have other := not_export_of_gas gas
  rw [pulseQuantity, heatPointOf_gas gas]
  exact if_neg other

theorem pulseQuantity_heat {n : Fin 3} (heat : ch.val = 12 + n.val) :
    pulseQuantity s ch = heatOfPulse s n (itemNat s (pulseWeightItem ch)) := by
  rw [pulseQuantity, heatPointOf_heat heat]

/-- Each anchor of Table 2-3-2 holds for 3,000 hundredths of a degree (R27). -/
theorem heatCoefficient_eq (r : Nat) : heatCoefficient r =
    if r < 3000 then 4216 - 54 * r / 3000
    else if r < 6000 then 4162 - 47 * (r - 3000) / 3000
    else if r < 9000 then 4115 - 56 * (r - 6000) / 3000
    else if r < 12000 then 4059 - 56 * (r - 9000) / 3000
    else if r < 15000 then 4003 - 51 * (r - 12000) / 3000
    else 3952 := by
  have at_anchor : ∀ k, min r 15000 / 3000 = k → heatCoefficient r =
      (heatAnchor k).1 - (heatAnchor k).2 * (min r 15000 - 3000 * k) / 3000 := by
    rintro k rfl
    rfl
  split
  · rw [at_anchor 0 (by omega), Nat.min_eq_left (by omega)]; rfl
  split
  · rw [at_anchor 1 (by omega), Nat.min_eq_left (by omega)]; rfl
  split
  · rw [at_anchor 2 (by omega), Nat.min_eq_left (by omega)]; rfl
  split
  · rw [at_anchor 3 (by omega), Nat.min_eq_left (by omega)]; rfl
  split
  · rw [at_anchor 4 (by omega), Nat.min_eq_left (by omega)]; rfl
  · rw [at_anchor 5 (by omega)]; simp [heatAnchor]

theorem unitsPerWh_gas (gas : ch.val < 12) : unitsPerWh ch = 3600 := by
  have other := not_export_of_gas gas
  rw [unitsPerWh, if_neg other, if_pos gas]

theorem unitsPerWh_heat {n : Fin 3} (heat : ch.val = 12 + n.val) : unitsPerWh ch = 360000000 := by
  have other : ch ≠ 15 := fun e => by
    subst e
    have number : (15 : Nat) = 12 + n.val := heat
    omega
  rw [unitsPerWh, if_neg other, if_neg (by omega)]

theorem total_exact (metering : t.metering = counted s ch (pulseQuantity s ch)) :
    (unitsPerWh ch * t.metering.totals[ch] + remainderOf t ch) % (unitsPerWh ch * 10000000000000) =
      (unitsPerWh ch * s.metering.totals[ch] + remainderOf s ch + pulseQuantity s ch) % (unitsPerWh ch * 10000000000000) := by
  have total : t.metering.totals[ch] =
      (s.metering.totals[ch] + (remainderOf s ch + pulseQuantity s ch) / unitsPerWh ch) % 10000000000000 := by
    rw [metering]
    exact Vector.getElem_set_self ..
  rw [total, remainderOf_counted_same metering]
  exact counted_exact ..

theorem acceptedPulse_metering (calm : Calm s) {high low : Nat} (longHigh : 200 ≤ high) (longLow : 200 ≤ low)
    (passes : passesSpacing s ch = true) (e : exec (.pulseArrival ch high low) s = .next t) :
    t.metering = counted s ch (pulseQuantity s ch) := by
  rw [execPulseArrival_accepted calm longHigh longLow passes] at e
  cases e
  obtain ⟨-, metering, -⟩ := acceptPulse_leaves calm rfl rfl
  exact metering

theorem remainderOf_export (s : State) : remainderOf s 15 = 0 := rfl

/-- Settles O11: a total and its remainder rise by the quantity of the pulse, which is the arithmetic of its chapter. -/
theorem energyIsCountedExactly : Obligations.EnergyIsCountedExactly := by
  unfold Obligations.EnergyIsCountedExactly
  refine ⟨heatCoefficient_eq, fun s t ch high low calm longHigh longLow passes e => ?_⟩
  have exact_ := total_exact (acceptedPulse_metering calm longHigh longLow passes e)
  refine ⟨fun gas => ?_, fun n heat => ?_, fun last => ?_⟩
  · rw [unitsPerWh_gas gas, pulseQuantity_gas gas, gasEnergy, gasDivisor, clampInt_eq (by decide), clampInt_eq (by decide),
      clampInt_eq (by decide)] at exact_
    exact exact_
  · rw [unitsPerWh_heat heat, pulseQuantity_heat heat, heatOfPulse, heatDifference_eq, clampInt_eq (by decide), Int.min_comm _ 15000] at exact_
    exact exact_
  · subst last
    have quantity : pulseQuantity s 15 = itemNat s (.exportItem xPulseWeight) := rfl
    rw [remainderOf_export, remainderOf_export, quantity, show unitsPerWh 15 = 1 from rfl, Nat.one_mul, Nat.one_mul,
      Nat.one_mul, Nat.add_zero, Nat.add_zero] at exact_
    exact exact_

theorem heatOfPulse_reverse {n : Fin 3} (below : heatDifference s n < 0) (weight : Nat) : heatOfPulse s n weight = 0 := by
  have none : (min (heatDifference s n) 15000).toNat = 0 := by omega
  rw [heatOfPulse, none, Nat.mul_zero, Nat.zero_mul]

theorem lastEnergy_acceptedRecord (s : State) (ch : Fin 16) : (acceptedRecord s ch).lastEnergy = some (recordedEnergy s ch) := by
  unfold acceptedRecord
  split <;> rfl

/-- Settles O12: the quantity is 0, and the count of the heat point rises. -/
theorem reverseHeatPulseAddsNothing : Obligations.ReverseHeatPulseAddsNothing := by
  unfold Obligations.ReverseHeatPulseAddsNothing
  intro s n ch high low o calm longHigh longLow heat passes isOpen colder
  have below : heatDifference s n < 0 := heatDifference_neg.2 colder
  have nothing : pulseQuantity s ch = 0 := by rw [pulseQuantity_heat heat, heatOfPulse_reverse below]
  have energy : recordedEnergy s ch = 0 := by
    rw [recordedEnergy, heatPointOf_heat heat]
    simp only [heatOfPulse_reverse below]
  generalize after : acceptPulse ch s = t
  obtain ⟨field, metering, marks, totals, -, others, -⟩ := acceptPulse_leaves calm rfl after
  have effect : exec (.pulseArrival ch high low) s = .next t := by
    rw [execPulseArrival_accepted calm longHigh longLow passes, after]
  rw [isOpen] at marks
  have total := total_exact metering
  rw [unitsPerWh_heat heat, nothing, Nat.add_zero] at total
  refine ⟨t, _, effect, total, fun d ne => ⟨?_, others d ne⟩, marks, ?_, ?_, ?_⟩
  · rw [totals]
    exact getElem_set_fin _ ne _
  · rw [Function.comp, reversed_withoutMarks, estimated_withoutMarks]
  · rw [Function.comp, reversed, heatPointOf_heat heat]
    simp only [below, if_true, estimated_reverse, countUp_eq]
  · have record : channel t ch = acceptedRecord s ch := by
      rw [channel_eq field, channel_setChannel_same]
    rw [record, lastEnergy_acceptedRecord, energy]

end Sys2Proof.Proofs.Pulses
end

section
/-! A trip of a consumer (R93, R97), and what the event that may follow it leaves. -/

namespace Sys2Proof.Proofs.Trips

open Sys2Proof Sys2Proof.Machine Sys2Proof.Proofs.Event Sys2Proof.Proofs.Fields

variable {s t : State} {c : Fin 8} {cause : Cause}

/-! ## The parts of a trip -/

theorem raiseNotice_outside (ps : PartySet) (k : Fin 10) (d : Detail) (s : State) :
    OutsideAllocationKept s (raiseNotice ps k d s) := by
  rw [raiseNotice_frame]
  exact ⟨rfl, rfl, rfl, rfl, rfl, rfl, rfl, rfl, rfl, rfl, rfl, rfl⟩

theorem setConsumer_outside (c : Fin 8) (r : Consumer) (s : State) : OutsideAllocationKept s (setConsumer c r s) :=
  ⟨rfl, rfl, rfl, rfl, rfl, rfl, rfl, rfl, rfl, rfl, rfl, rfl⟩

theorem releaseReservation_outside (c : Fin 8) (s : State) : OutsideAllocationKept s (releaseReservation c s) :=
  ⟨rfl, rfl, rfl, rfl, rfl, rfl, rfl, rfl, rfl, rfl, rfl, rfl⟩

theorem outsideAllocationKept_refl (s : State) : OutsideAllocationKept s s :=
  ⟨rfl, rfl, rfl, rfl, rfl, rfl, rfl, rfl, rfl, rfl, rfl, rfl⟩

theorem releaseForTrip_outside (c : Fin 8) (s : State) : OutsideAllocationKept s (releaseForTrip c s) := by
  unfold releaseForTrip
  split
  · exact releaseGrant_outside c s
  · exact releaseReservation_outside c s
  · exact outsideAllocationKept_refl s

theorem otherNotices_of_links {u : State} {k : Fin 10} (links : u.links = s.links) (h : OtherNoticesKept u t k) :
    OtherNoticesKept s t k := by
  simpa only [OtherNoticesKept, links] using h

/-- A lowered grant is told in the class GRANT, to the owner (R66). -/
theorem lowerGrant_otherNotices (c : Fin 8) (kw : Nat) (s : State) : OtherNoticesKept s (lowerGrant c kw s) clsGrant := by
  unfold lowerGrant
  split
  · refine otherNotices_of_links (u := setResult { s.allocator.result with
      grants := s.allocator.result.grants.set c kw, surplus := s.allocator.result.surplus + (grant s c - kw) } s) rfl ?_
    exact raiseNotice_otherNotices ..
  · exact ⟨rfl, rfl, fun _ _ _ => rfl⟩

theorem releaseForTrip_otherNotices (c : Fin 8) (s : State) : OtherNoticesKept s (releaseForTrip c s) clsGrant := by
  unfold releaseForTrip
  split
  · exact lowerGrant_otherNotices c 0 s
  · exact ⟨rfl, rfl, fun _ _ _ => rfl⟩
  · exact ⟨rfl, rfl, fun _ _ _ => rfl⟩

theorem setConsumer_self (c : Fin 8) (s : State) : setConsumer c (consumer s c) s = s := by
  have same : s.supervisor.consumers.set c (consumer s c) = s.supervisor.consumers := Vector.set_getElem_self ..
  unfold setConsumer
  rw [same]

theorem startRecovery_frame (c : Fin 8) (s : State) :
    startRecovery c s = setConsumer c { consumer s c with recoveryTimer := (consumer (startRecovery c s) c).recoveryTimer } s := by
  unfold startRecovery
  split
  · rw [consumer_setConsumer_same]
  · exact (setConsumer_self c s).symm

theorem flagItem_eq (h : t.contracts = s.contracts) (i : Item) : flagItem t i = flagItem s i := by
  unfold flagItem
  rw [item_eq (congrArg ContractUnit.contract h)]

/-- The delay that a consumer in TRIPPED without one gets (R97). -/
theorem startRecovery_timer (contracts : t.contracts = s.contracts) (base : t.supervisor.base = s.supervisor.base)
    (tripped : (consumer t c).state = .tripped) (count : (consumer t c).recoveryCount = (consumer s c).recoveryCount)
    (idle : (consumer t c).recoveryTimer = none) : (consumer (startRecovery c t) c).recoveryTimer = recoveryStarted s c := by
  have auto : isAuto t c = isAuto s c := flagItem_eq contracts _
  have delay : startTimer t c cRecoveryDelay = ⟨s.supervisor.base, 1000 * consumerItem s c cRecoveryDelay⟩ := by
    rw [startTimer, consumerItem_eq (congrArg ContractUnit.contract contracts), base]
  unfold startRecovery recoveryStarted
  rw [tripped, count, idle, auto, delay]
  by_cases applies : isAuto s c = true ∧ (consumer s c).recoveryCount < 3
  · obtain ⟨isAuto, low⟩ := applies
    simp [isAuto, low]
  · rw [if_neg applies, if_neg (by simpa using applies), idle]

/-! ## Entering TRIPPED (R93) -/

/-- The record that a consumer outside TRIPPED gets. -/
def enteredRecord (s : State) (c : Fin 8) (cause : Cause) : Consumer :=
  { settled (consumer s c) .tripped with
    shedFlag := false, causes := addCause (consumer s c).causes cause
    lastTrip := some { time := s.settlement.clock, causes := addCause (consumer s c).causes cause }
    overdrawTimer := none, lineLowTimer := none, lowDrawTimer := none, recoveryTimer := recoveryStarted s c }

/-- The state `t` follows on `s` by a trip of a consumer that was not TRIPPED, up to the event that may follow. -/
structure Entered (s : State) (c : Fin 8) (cause : Cause) (t : State) : Prop where
  record : consumer t c = withTimers (enteredRecord s c cause) (consumer t c)
  others : ∀ d, d ≠ c → consumer t d = consumer s d
  valves : ValvesClosed t c
  noticed : TripNoticed s t c (addCause (consumer s c).causes cause)
  notices : OtherNoticesKept (releaseForTrip c s) t clsTrip
  allocator : t.allocator = (releaseForTrip c s).allocator
  outside : OutsideAllocationKept s t

theorem trippedRecord_entered (notTripped : (consumer s c).state ≠ .tripped) :
    trippedRecord s c cause = { enteredRecord s c cause with recoveryTimer := none } := if_neg notTripped

theorem tripBody_entered (notTripped : (consumer s c).state ≠ .tripped) : Entered s c cause (tripBody c cause s) := by
  have release := releaseForTrip_outside c s
  have supervisor : (releaseForTrip c s).supervisor = s.supervisor := releaseForTrip_supervisor s c
  have grants := releaseForTrip_otherNotices c s
  unfold tripBody
  simp only
  rw [if_neg notTripped]
  generalize released : releaseForTrip c s = x at *
  obtain ⟨-, -, -, -, -, -, contracts, -, -, -, settlement, -⟩ := id release
  have record : consumer x c = consumer s c := consumer_eq supervisor c
  have clock : x.settlement.clock = s.settlement.clock := by
    have same := congrArg (fun y : Settlement => y.clock) settlement
    exact same
  have entry : trippedRecord x c cause = { enteredRecord s c cause with recoveryTimer := none } := by
    rw [trippedRecord_entered (by rw [record]; exact notTripped)]
    simp only [enteredRecord, record, clock]
  rw [entry]
  generalize put : putConsumer c { enteredRecord s c cause with recoveryTimer := none } x = u
  have recordU : consumer u c = { enteredRecord s c cause with recoveryTimer := none } := by
    rw [← put]; exact consumer_putConsumer_same ..
  have othersU : ∀ d, d ≠ c → consumer u d = consumer s d := fun d ne => by
    rw [← put, consumer_putConsumer_ne ne, consumer_eq supervisor]
  have valvesU : ValvesClosed u c := by
    rw [← put]
    refine valvesClosed_putConsumer_same c ?_ ?_ x <;> simp [enteredRecord, settled]
  have outsideU : OutsideAllocationKept x u := by rw [← put]; exact putConsumer_outside ..
  have linksU : u.links = x.links := by rw [← put]; rfl
  have allocatorU : u.allocator = x.allocator := by rw [← put]; rfl
  have base : x.supervisor.base = s.supervisor.base := by rw [supervisor]
  have baseU : u.supervisor.base = s.supervisor.base := by rw [← put]; exact base
  have contractsU : u.contracts = s.contracts := by rw [← put]; exact contracts
  have settlementU : u.settlement = x.settlement := by rw [← put]; rfl
  have owner : ownerOf u c = ownerOf s c := ownerOf_eq (congrArg ContractUnit.contract contractsU) c
  have causes : (consumer u c).causes = addCause (consumer s c).causes cause := by rw [recordU]; rfl
  generalize told : noticeTrip c u = v
  have supervisorV : v.supervisor = u.supervisor := by rw [← told]; exact noticeTrip_supervisor ..
  have contractsV : v.contracts = s.contracts := by rw [← told, noticeTrip_contracts, contractsU]
  have recordV : consumer v c = { enteredRecord s c cause with recoveryTimer := none } := by
    rw [consumer_eq supervisorV, recordU]
  have delay := startRecovery_timer (s := s) (t := v) (c := c) contractsV (by rw [supervisorV, baseU]) (by rw [recordV]; rfl)
    (by rw [recordV]; rfl) (by rw [recordV])
  have frame := startRecovery_frame c v
  generalize startRecovery c v = y at delay frame
  have recordY : consumer y c = enteredRecord s c cause := by
    rw [frame, consumer_setConsumer_same, delay, recordV]
    rfl
  have linksY : y.links = v.links := by rw [frame]; rfl
  have links : (evaluate c y).links = v.links := linksY
  have noticed : ∀ (q : Party) (j : Fin 10), v.links.notices[partyIndex q][j] =
      if hasParty (withWorks (ownerOf s c)) q = true ∧ j = clsTrip then
        addOccurrence (.trip c (addCause (consumer s c).causes cause) s.settlement.clock) u.links.notices[partyIndex q][j]
      else u.links.notices[partyIndex q][j] := fun q j => by
    rw [← told, noticeTrip, notices_raiseNotice, owner, causes, settlementU, clock]
  refine ⟨?_, fun d ne => ?_, ?_, fun q => ?_, ?_, ?_, ?_⟩
  · rw [← recordY]
    exact consumer_evaluate c c y
  · rw [evaluate, consumer_setConsumer_ne ne, frame, consumer_setConsumer_ne ne, consumer_eq supervisorV, othersU d ne]
  · have lines : (evaluate c y).lines = v.lines := by rw [frame]; rfl
    have closed : ValvesClosed v c := valvesClosed_of_standing (by rw [← told]; exact raiseNotice_standing ..) valvesU
    unfold ValvesClosed
    rw [lines]
    exact closed
  · rw [links, noticed, linksU, grants.2.2 _ _ (by decide)]
    simp only [hasParty_withWorks, and_true]
  · have others := raiseNotice_otherNotices (withWorks (ownerOf u c)) clsTrip
      (.trip c (consumer u c).causes u.settlement.clock) u
    rw [show raiseNotice _ _ _ u = v from told] at others
    rw [released]
    simp only [OtherNoticesKept, links]
    exact otherNotices_of_links linksU others
  · have allocatorV : v.allocator = u.allocator := by rw [← told]; exact noticeTrip_allocator ..
    show y.allocator = _
    rw [frame, released]
    exact allocatorV.trans allocatorU
  · refine outsideAllocationKept_trans release (outsideAllocationKept_trans outsideU (outsideAllocationKept_trans (t := v) ?_ ?_))
    · rw [← told]; exact raiseNotice_outside ..
    · refine outsideAllocationKept_trans ?_ (evaluate_outside c y)
      rw [frame]
      exact setConsumer_outside ..

theorem enteredRecord_state : (enteredRecord s c cause).state = .tripped := rfl

theorem Entered.state (entered : Entered s c cause t) : (consumer t c).state = .tripped := by
  rw [entered.record]
  rfl

theorem Entered.causes (entered : Entered s c cause t) : (consumer t c).causes = addCause (consumer s c).causes cause := by
  rw [entered.record]
  rfl

theorem Entered.timed (entered : Entered s c cause t) : TripTimed s t c := by
  rw [TripTimed, entered.causes, entered.record]
  exact ⟨rfl, rfl⟩

/-! ## The event that follows (R53, R54) -/

section
variable (r r' : Consumer)

@[simp] theorem withTimers_state : (withTimers r r').state = r.state := rfl
@[simp] theorem withTimers_target : (withTimers r r').target = r.target := rfl
@[simp] theorem withTimers_reservation : (withTimers r r').reservation = r.reservation := rfl
@[simp] theorem withTimers_shedFlag : (withTimers r r').shedFlag = r.shedFlag := rfl
@[simp] theorem withTimers_nomination : (withTimers r r').nomination = r.nomination := rfl
@[simp] theorem withTimers_causes : (withTimers r r').causes = r.causes := rfl
@[simp] theorem withTimers_damageMark : (withTimers r r').damageMark = r.damageMark := rfl
@[simp] theorem withTimers_lastTrip : (withTimers r r').lastTrip = r.lastTrip := rfl
@[simp] theorem withTimers_recoveryCount : (withTimers r r').recoveryCount = r.recoveryCount := rfl
@[simp] theorem withTimers_recoveryTimer : (withTimers r r').recoveryTimer = r.recoveryTimer := rfl
@[simp] theorem withTimers_purgeTimer : (withTimers r r').purgeTimer = r.purgeTimer := rfl

end


theorem otherNotices_trans {u : State} {j k : Fin 10} {p : Fin 3} (apart : j ≠ k) (first : OtherNoticesKept s u k)
    (rest : t.links.notices[p][j] = u.links.notices[p][j]) : t.links.notices[p][j] = s.links.notices[p][j] :=
  rest.trans (first.2.2 p j apart)

/-- An event tells of SHED and GRANT alone (R66, R86). -/
theorem runStages_notices (s : State) (p : Fin 3) {j : Fin 10} (shed : j ≠ clsShed) (grant : j ≠ clsGrant) :
    (runStages s).links.notices[p][j] = s.links.notices[p][j] := by
  obtain ⟨q, rfl⟩ := exists_party p
  have plain := plan_links s (availableRate s)
  unfold runStages
  generalize plan (availableRate s) s = x at plain ⊢
  have applied : (applyPlan x s).links = s.links := plain
  have told := notices_eventNotices x s.allocator.result.grants (applyPlan x s) q j
  rw [if_neg shed, if_neg grant] at told
  rw [eventEvaluations_links, told, applied]

theorem creditFlare_notices (s : State) : (creditFlare s).links.notices = s.links.notices := by rw [creditFlare_links]

/-- A consumer in OFF or TRIPPED takes no part in an event (R57, R67). -/
theorem runStages_resting (rests : (consumer s c).state = .off ∨ (consumer s c).state = .tripped) :
    consumer (runStages s) c = withTimers (consumer s c) (consumer (runStages s) c) ∧ grant (runStages s) c = 0 := by
  have noCandidate : isCandidate s c = false := by rcases rests with rests | rests <;> simp [isCandidate, rests]
  have left := event_leaves s (rests.imp_right .inl) noCandidate
  refine ⟨left, ?_⟩
  have unlit : lit (runStages s) c = false := by
    rw [lit, left, withTimers_state]
    rcases rests with rests | rests <;> rw [rests] <;> rfl
  rw [Sums.lit_runStages] at unlit
  rw [runStages_grant]
  exact plan_grant_of_not_lit _ s unlit

/-- A trip from ACTIVE, with the event that follows it. -/
theorem entered_event (clean : t.store.errors = []) (entered : Entered s c cause t) :
    (consumer (runStages (creditFlare t)) c).state = .tripped ∧
    (consumer (runStages (creditFlare t)) c).causes = addCause (consumer s c).causes cause ∧
    grant (runStages (creditFlare t)) c = 0 ∧ TripTimed s (runStages (creditFlare t)) c ∧
    TripNoticed s (runStages (creditFlare t)) c (addCause (consumer s c).causes cause) ∧
    ValvesClosed (runStages (creditFlare t)) c ∧ OutsideAllocationKept s (runStages (creditFlare t)) := by
  have credited : consumer (creditFlare t) c = consumer t c := consumer_eq (creditFlare_supervisor t) c
  obtain ⟨left, none⟩ := runStages_resting (s := creditFlare t) (c := c) (by rw [credited]; exact .inr entered.state)
  rw [credited] at left
  have state : (consumer (runStages (creditFlare t)) c).state = .tripped := by
    rw [left, withTimers_state, entered.state]
  have causes : (consumer (runStages (creditFlare t)) c).causes = addCause (consumer s c).causes cause := by
    rw [left, withTimers_causes, entered.causes]
  obtain ⟨last, delay⟩ := entered.timed
  refine ⟨state, causes, none, ⟨?_, ?_⟩, fun p => ?_, ?_, ?_⟩
  · rw [causes, left, withTimers_lastTrip, last, entered.causes]
  · rw [left, withTimers_recoveryTimer, delay]
  · rw [runStages_notices _ _ (by decide) (by decide), creditFlare_links]
    exact entered.noticed p
  · refine valvesClosed_runStages ?_
    unfold ValvesClosed
    rw [creditFlare_lines]
    exact entered.valves
  · exact outsideAllocationKept_trans entered.outside
      (outsideAllocationKept_trans (creditFlare_outside clean) (runStages_outside _))

end Sys2Proof.Proofs.Trips
end

section
/-! The expiries of a consumer's timers (5-5 to 5-7): the purge, the three masks, low draw and the recovery delay. -/

namespace Sys2Proof.Proofs.Timers

open Sys2Proof Sys2Proof.Machine Sys2Proof.Proofs.Event Sys2Proof.Proofs.Fields Sys2Proof.Proofs.Trips

variable {s t : State} {c : Fin 8} {tm : Timer}

theorem due_of_ran (calm : Calm s) {timer : Option Timer} (runs : timer = some tm)
    (ran : tm.start + tm.length ≤ s.supervisor.base) : consumerDue s timer = true := by
  subst runs
  simp [consumerDue, timerDue, calm.1, ran]

theorem operation_settles (calm : Calm s) (reads : List Thing) (body : State → State) :
    operation reads body s = settle (body s) := operation_calm calm.2.1 calm.2.2 reads body

theorem settle_quiet (calm : Calm s) (quiet : t.allocator.triggers = s.allocator.triggers) : settle t = t :=
  settle_idle (quiet.trans calm.2.2)

/-! ## Low draw (R94) -/

theorem raiseNotice_onlyParty (p : Party) (k : Fin 10) (d : Detail) (s : State) :
    raiseNotice (onlyParty p) k d s = raiseFor p k d s := by
  unfold raiseNotice
  cases p <;> rfl

theorem execLowDraw_due (calm : Calm s) (due : consumerDue s (consumer s c).lowDrawTimer = true) :
    exec (.lowDrawTimerExpiry c) s = .next (settle (
      if lit s c && lowDrawHolds s c then
        raiseNotice (onlyParty (ownerOf s c)) clsLowDraw (.lowDraw c)
          (setConsumer c { consumer s c with lowDrawTimer := some (startTimer s c cLowDrawTime) } s)
      else setConsumer c { consumer s c with lowDrawTimer := none } s)) := by
  show execLowDrawTimerExpiry c s = _
  rw [execLowDrawTimerExpiry, if_pos due, operation_settles calm, lowDrawBody, if_pos due]

theorem lit_of_active (active : (consumer s c).state = .active) : lit s c = true := beq_iff_eq.2 active

theorem not_lit (other : (consumer s c).state ≠ .active) : lit s c = false := beq_eq_false_iff_ne.2 other

/-- Settles O29: the timer starts again with a notice, or is stopped. -/
theorem lowDrawExpiryOnlyReports : Obligations.LowDrawExpiryOnlyReports := by
  unfold Obligations.LowDrawExpiryOnlyReports
  intro s c tm calm timer ran
  rw [execLowDraw_due calm (due_of_ran calm timer ran)]
  refine ⟨fun active below => ?_, fun ends => ?_⟩
  · have holds : (lit s c && lowDrawHolds s c) = true := by
      rw [lit_of_active active, lowDrawHolds, decide_eq_true below]
      rfl
    rw [if_pos holds, raiseNotice_onlyParty]
    exact congrArg _ (settle_quiet calm rfl)
  · have stops : ¬ (lit s c && lowDrawHolds s c) = true := by
      rcases ends with other | above
      · simp [not_lit other]
      · simp [lowDrawHolds, Nat.not_lt.2 above]
    rw [if_neg stops]
    exact congrArg _ (settle_quiet calm rfl)

/-! ## Recovery (R97) -/

theorem execRecovery_due (calm : Calm s) (due : consumerDue s (consumer s c).recoveryTimer = true)
    (applies : recoveryApplies s c = true) : exec (.recoveryDelayExpiry c) s = .next (settle (
      if recheckPasses s c then trigger (evaluate c (putConsumer c (recoveringRecord s c) s))
      else setConsumer c { consumer s c with recoveryTimer := some (startTimer s c cRecoveryDelay) } s)) := by
  show execRecoveryDelayExpiry c s = _
  rw [execRecoveryDelayExpiry, if_pos due, operation_settles calm, recoveryBody, if_pos due, if_pos applies]

/-- The purge that recovery begins, and its event, tell of no trip (R97). -/
theorem recovery_notices (calm : Calm s) (p : Fin 3) :
    (settle (trigger (evaluate c (putConsumer c (recoveringRecord s c) s)))).links.notices[p][clsTrip] =
      s.links.notices[p][clsTrip] := by
  obtain ⟨-, clean, idle⟩ := calm
  rw [settle_trigger (s := evaluate c (putConsumer c (recoveringRecord s c) s)) clean idle,
    runStages_notices _ _ (by decide) (by decide), creditFlare_links]
  rfl

/-- Settles O30: the recheck decides between a purge toward ACTIVE and the delay started again. -/
theorem recoveryExpiryPurgesOrWaits : Obligations.RecoveryExpiryPurgesOrWaits := by
  unfold Obligations.RecoveryExpiryPurgesOrWaits
  intro s c tm calm timer ran tripped auto low
  have applies : recoveryApplies s c = true := by simp [recoveryApplies, tripped, auto, low]
  rw [execRecovery_due calm (due_of_ran calm timer ran) applies]
  refine ⟨fun passes => ⟨_, rfl, ?_⟩, fun fails => ?_⟩
  · rw [if_pos passes]
    obtain ⟨-, clean, idle⟩ := id calm
    have begun := purgeBegun_settle clean idle c (r := recoveringRecord s c) rfl
    exact ⟨begun.record, begun.reserved rfl rfl, begun.timeBase, begun.ports, recovery_notices calm, begun.outside⟩
  · rw [fails, if_neg Bool.false_ne_true]
    exact congrArg _ (settle_quiet calm rfl)

/-! ## A purge that fails (R84) -/

theorem execPurge_due (calm : Calm s) (due : consumerDue s (consumer s c).purgeTimer = true) :
    exec (.purgeExpiry c) s = .next (settle (if purgeConfirmed s c then enterTarget c s else trip c .purgeFail s)) := by
  show execPurgeExpiry c s = _
  rw [execPurgeExpiry, if_pos due, operation_settles calm, purgeBody, if_pos due]

theorem purgeConfirmed_false (fails : (sample s (lineChannel c)).state ≠ .valid ∨
    item s (.consumer c cPurgeThreshold) < valueInUse s (lineChannel c)) : purgeConfirmed s c = false := by
  unfold purgeConfirmed
  rcases fails with invalid | above
  · simp [invalid]
  · simp [Int.not_le.2 above]

theorem trip_quiet (unlit : lit s c = false) (cause : Cause) : trip c cause s = tripBody c cause s := by
  rw [trip, unlit]
  rfl

theorem tripBody_idle (calm : Calm s) (cause : Cause) : settle (tripBody c cause s) = tripBody c cause s :=
  settle_quiet calm (tripBody_triggers s c cause)

theorem releaseForTrip_purging (purges : (consumer s c).state = .purging) : releaseForTrip c s = releaseReservation c s := by
  rw [releaseForTrip, purges]

/-- Settles O27: a trip from PURGING, which no event follows. -/
theorem failedPurgeTrips : Obligations.FailedPurgeTrips := by
  unfold Obligations.FailedPurgeTrips
  intro s c tm calm purges timer ran fails
  have unlit : lit s c = false := not_lit (by rw [purges]; nofun)
  have entered := tripBody_entered (s := s) (c := c) (cause := .purgeFail) (by rw [purges]; nofun)
  have effect : exec (.purgeExpiry c) s = .next (tripBody c .purgeFail s) := by
    rw [execPurge_due calm (due_of_ran calm timer ran), purgeConfirmed_false fails, if_neg Bool.false_ne_true, trip_quiet unlit,
      tripBody_idle calm]
  generalize tripBody c .purgeFail s = t at *
  obtain ⟨record, others, ⟨gas, backup⟩, noticed, notices, allocator, outside⟩ := id entered
  obtain ⟨last, delay⟩ := entered.timed
  rw [releaseForTrip_purging purges] at notices allocator
  refine ⟨t, effect, outside, otherNotices_of_links (u := releaseReservation c s) rfl notices, entered.state, entered.causes,
    ?_, ?_, ?_, ?_, last, delay, gas, backup, allocator, ?_, others⟩
  · rw [record]; rfl
  · rw [record]; rfl
  · rw [record]; rfl
  · rw [record]; rfl
  · rw [entered.causes]; exact noticed

end Sys2Proof.Proofs.Timers
end

section
/-! The mask expiries (5-6): a trip from ACTIVE with its event, the passing mask elsewhere (R89 to R93). -/

namespace Sys2Proof.Proofs.Masks

open Sys2Proof Sys2Proof.Machine Sys2Proof.Proofs.Event Sys2Proof.Proofs.Fields Sys2Proof.Proofs.Trips
open Sys2Proof.Proofs.Timers

variable {s t : State} {c : Fin 8} {tm : Timer} {cause : Cause}

/-! ## What each expiry does -/

theorem execOverdraw_due (calm : Calm s) (due : consumerDue s (consumer s c).overdrawTimer = true) :
    exec (.overdrawMaskExpiry c) s = .next (settle (if lit s c && overdrawHolds s c then trip c .overdraw s
      else setConsumer c { consumer s c with overdrawTimer := none } s)) := by
  show execOverdrawMaskExpiry c s = _
  rw [execOverdrawMaskExpiry, if_pos due, operation_settles calm, overdrawBody, if_pos due]

theorem execLineLow_due (calm : Calm s) (due : consumerDue s (consumer s c).lineLowTimer = true) :
    exec (.lineLowMaskExpiry c) s = .next (settle (if lit s c && lineLowHolds s c then trip c .lineLow s
      else setConsumer c { consumer s c with lineLowTimer := none } s)) := by
  show execLineLowMaskExpiry c s = _
  rw [execLineLowMaskExpiry, if_pos due, operation_settles calm, lineLowBody, if_pos due]

theorem execPassing_due (calm : Calm s) (due : consumerDue s (consumer s c).passingTimer = true) :
    exec (.passingMaskExpiry c) s = .next (settle (if passingApplies s c && passingHolds s c then trip c .valvePassing s
      else setConsumer c { consumer s c with passingTimer := none } s)) := by
  show execPassingMaskExpiry c s = _
  rw [execPassingMaskExpiry, if_pos due, operation_settles calm, passingBody, if_pos due]

/-! ## Trips -/

theorem tripNoticed_of_causes {causes : CauseSet} (same : causes = (consumer t c).causes) (told : TripNoticed s t c causes) :
    TripNoticed s t c (consumer t c).causes := same ▸ told

/-- A trip from ACTIVE gives up the grant, and the event that follows leaves the consumer TRIPPED. -/
theorem trip_active (calm : Calm s) (active : (consumer s c).state = .active) (cause : Cause) :
    ∃ t : State, settle (trip c cause s) = t ∧ (consumer t c).state = .tripped ∧
      (consumer t c).causes = addCause (consumer s c).causes cause ∧ grant t c = 0 ∧ TripTimed s t c ∧
      TripNoticed s t c (consumer t c).causes ∧ t.lines.gasEn[c] = false ∧ t.lines.backupEn[c] = false ∧
      OutsideAllocationKept s t := by
  obtain ⟨-, clean, idle⟩ := calm
  have entered := tripBody_entered (s := s) (c := c) (cause := cause) (by rw [active]; nofun)
  have cleanBody : (tripBody c cause s).store.errors = [] := by rw [tripBody_store, clean]
  obtain ⟨state, causes, noGrant, timed, told, ⟨gas, backup⟩, outside⟩ := entered_event cleanBody entered
  have effect : settle (trip c cause s) = runStages (creditFlare (tripBody c cause s)) := by
    rw [trip, lit_of_active active, if_pos rfl]
    exact settle_trigger cleanBody ((tripBody_triggers s c cause).trans idle)
  exact ⟨_, effect, state, causes, noGrant, timed, tripNoticed_of_causes causes.symm told, gas, backup, outside⟩

/-- A trip from a state that is neither ACTIVE nor TRIPPED. -/
theorem trip_inactive (calm : Calm s) (inactive : (consumer s c).state ≠ .active)
    (notTripped : (consumer s c).state ≠ .tripped) (cause : Cause) :
    ∃ t : State, settle (trip c cause s) = t ∧ (consumer t c).state = .tripped ∧
      (consumer t c).causes = addCause (consumer s c).causes cause ∧ TripTimed s t c ∧
      TripNoticed s t c (consumer t c).causes ∧ t.lines.gasEn[c] = false ∧ t.lines.backupEn[c] = false ∧
      OutsideAllocationKept s t := by
  have entered := tripBody_entered (s := s) (c := c) (cause := cause) notTripped
  obtain ⟨gas, backup⟩ := entered.valves
  refine ⟨_, by rw [trip_quiet (not_lit inactive), tripBody_idle calm], entered.state, entered.causes, entered.timed,
    tripNoticed_of_causes entered.causes.symm entered.noticed, gas, backup, entered.outside⟩

/-- A consumer that is TRIPPED already takes VALVE_PASSING into its causes, and its timers but the passing timer stand. -/
theorem passing_tripped (calm : Calm s) (tripped : (consumer s c).state = .tripped) :
    ∃ t : State, settle (trip c .valvePassing s) = t ∧
      consumer t c = { consumer s c with
        causes := { (consumer s c).causes with valvePassing := true }, passingTimer := none
        lastTrip := some { time := s.settlement.clock, causes := { (consumer s c).causes with valvePassing := true } } } ∧
      TripNoticed s t c (consumer t c).causes ∧ OtherNoticesKept s t clsTrip ∧
      (∀ d : Fin 8, d ≠ c → consumer t d = consumer s d) ∧ t.allocator = s.allocator ∧ OutsideAllocationKept s t := by
  have inactive : (consumer s c).state ≠ .active := by rw [tripped]; nofun
  have noRelease : releaseForTrip c s = s := by rw [releaseForTrip, tripped]
  have entry : trippedRecord s c .valvePassing = { consumer s c with
      causes := { (consumer s c).causes with valvePassing := true }, passingTimer := none
      lastTrip := some { time := s.settlement.clock, causes := { (consumer s c).causes with valvePassing := true } } } := by
    rw [trippedRecord, if_pos tripped]
    rfl
  have body : tripBody c .valvePassing s = noticeTrip c (putConsumer c (trippedRecord s c .valvePassing) s) := by
    rw [tripBody, if_pos tripped, noRelease]
  refine ⟨_, by rw [trip_quiet (not_lit inactive), tripBody_idle calm], ?_⟩
  rw [body, entry]
  generalize recorded : ({ consumer s c with
      causes := { (consumer s c).causes with valvePassing := true }, passingTimer := none
      lastTrip := some { time := s.settlement.clock
                         causes := { (consumer s c).causes with valvePassing := true } } } : Consumer) = r
  have supervisor := noticeTrip_supervisor (s := putConsumer c r s) c
  have record : consumer (noticeTrip c (putConsumer c r s)) c = r := by
    rw [consumer_eq supervisor, consumer_putConsumer_same]
  have owner : ownerOf (putConsumer c r s) c = ownerOf s c := rfl
  refine ⟨record, fun p => ?_, ?_, fun d ne => ?_, ?_, ?_⟩
  · rw [record, noticeTrip, notices_raiseNotice, owner, consumer_putConsumer_same]
    simp only [hasParty_withWorks, and_true]
    rfl
  · exact otherNotices_of_links (u := putConsumer c r s) rfl (raiseNotice_otherNotices ..)
  · rw [consumer_eq supervisor, consumer_putConsumer_ne ne]
  · exact noticeTrip_allocator (s := putConsumer c r s) c
  · exact outsideAllocationKept_trans (putConsumer_outside c r s) (raiseNotice_outside ..)

/-! ## The conditions (Table 5-6-1) -/

theorem lineLowHolds_iff (s : State) (c : Fin 8) : lineLowHolds s c = true ↔
    item s (.consumer c cLineMinimum) ≠ 0 ∧ valueInUse s (lineChannel c) < item s (.consumer c cLineMinimum) := by
  simp [lineLowHolds]

theorem lit_iff (s : State) (c : Fin 8) : lit s c = true ↔ (consumer s c).state = .active := beq_iff_eq

theorem overdrawHolds_iff (s : State) (c : Fin 8) : overdrawHolds s c = true ↔ overdrawLimit s c < draw s c :=
  decide_eq_true_iff

theorem passingHolds_iff (s : State) (c : Fin 8) :
    passingHolds s c = true ↔ consumerItem s c cPassingThreshold < draw s c := decide_eq_true_iff

theorem passingApplies_iff (s : State) (c : Fin 8) : passingApplies s c = true ↔
    (consumer s c).state ≠ .active ∧ ((consumer s c).state = .tripped → (consumer s c).causes.valvePassing = false) := by
  simp only [passingApplies, lit, Bool.and_eq_true, Bool.not_eq_true', beq_eq_false_iff_ne, Bool.and_eq_false_imp, beq_iff_eq]

/-- The mask of overdraw (R90). -/
theorem overdrawExpiry (calm : Calm s) (ran : tm.start + tm.length ≤ s.supervisor.base)
    (timer : (consumer s c).overdrawTimer = some tm) :
    ((consumer s c).state = .active → overdrawLimit s c < draw s c →
      exec (.overdrawMaskExpiry c) s = .next (settle (trip c .overdraw s))) ∧
    ((consumer s c).state ≠ .active ∨ draw s c ≤ overdrawLimit s c → exec (.overdrawMaskExpiry c) s =
      .next (setConsumer c { consumer s c with overdrawTimer := none } s)) := by
  rw [execOverdraw_due calm (due_of_ran calm timer ran)]
  refine ⟨fun active above => ?_, fun ends => ?_⟩
  · rw [if_pos (Bool.and_eq_true_iff.2 ⟨(lit_iff s c).2 active, (overdrawHolds_iff s c).2 above⟩)]
  · rw [if_neg fun both => ?_]
    · exact congrArg _ (settle_quiet calm rfl)
    · rw [Bool.and_eq_true_iff, lit_iff, overdrawHolds_iff] at both
      exact ends.elim (· both.1) (Nat.not_le.2 both.2)

/-- The mask of line low (R91). -/
theorem lineLowExpiry (calm : Calm s) (ran : tm.start + tm.length ≤ s.supervisor.base)
    (timer : (consumer s c).lineLowTimer = some tm) :
    ((consumer s c).state = .active → item s (.consumer c cLineMinimum) ≠ 0 →
      valueInUse s (lineChannel c) < item s (.consumer c cLineMinimum) →
      exec (.lineLowMaskExpiry c) s = .next (settle (trip c .lineLow s))) ∧
    ((consumer s c).state ≠ .active ∨ item s (.consumer c cLineMinimum) = 0 ∨
        item s (.consumer c cLineMinimum) ≤ valueInUse s (lineChannel c) →
      exec (.lineLowMaskExpiry c) s = .next (setConsumer c { consumer s c with lineLowTimer := none } s)) := by
  rw [execLineLow_due calm (due_of_ran calm timer ran)]
  refine ⟨fun active minimum below => ?_, fun ends => ?_⟩
  · rw [if_pos (Bool.and_eq_true_iff.2 ⟨(lit_iff s c).2 active, (lineLowHolds_iff s c).2 ⟨minimum, below⟩⟩)]
  · rw [if_neg fun both => ?_]
    · exact congrArg _ (settle_quiet calm rfl)
    · rw [Bool.and_eq_true_iff, lit_iff, lineLowHolds_iff] at both
      obtain ⟨active, minimum, below⟩ := both
      exact ends.elim (· active) fun rest => rest.elim minimum (Int.not_le.2 below)

/-- The mask of passing, where the condition applies and holds (R92). -/
theorem passingExpiry_trips (calm : Calm s) (ran : tm.start + tm.length ≤ s.supervisor.base)
    (timer : (consumer s c).passingTimer = some tm) (inactive : (consumer s c).state ≠ .active)
    (fresh : (consumer s c).state = .tripped → (consumer s c).causes.valvePassing = false)
    (above : consumerItem s c cPassingThreshold < draw s c) :
    exec (.passingMaskExpiry c) s = .next (settle (trip c .valvePassing s)) := by
  rw [execPassing_due calm (due_of_ran calm timer ran),
    if_pos (Bool.and_eq_true_iff.2 ⟨(passingApplies_iff s c).2 ⟨inactive, fresh⟩, (passingHolds_iff s c).2 above⟩)]

/-- The mask of passing, where the condition no longer applies or holds (R92). -/
theorem passingExpiry_stops (calm : Calm s) (ran : tm.start + tm.length ≤ s.supervisor.base)
    (timer : (consumer s c).passingTimer = some tm)
    (ends : (consumer s c).state = .active ∨ draw s c ≤ consumerItem s c cPassingThreshold ∨
      ((consumer s c).state = .tripped ∧ (consumer s c).causes.valvePassing = true)) :
    exec (.passingMaskExpiry c) s = .next (setConsumer c { consumer s c with passingTimer := none } s) := by
  rw [execPassing_due calm (due_of_ran calm timer ran), if_neg fun both => ?_]
  · exact congrArg _ (settle_quiet calm rfl)
  · rw [Bool.and_eq_true_iff, passingApplies_iff, passingHolds_iff] at both
    obtain ⟨⟨inactive, fresh⟩, above⟩ := both
    rcases ends with active | below | ⟨tripped, passing⟩
    · exact inactive active
    · exact Nat.not_le.2 above below
    · rw [fresh tripped] at passing
      exact Bool.false_ne_true passing

/-- Settles O28: three masks, each with a trip where its condition holds and a stopped timer where not. -/
theorem maskExpiryTripsOrStops : Obligations.MaskExpiryTripsOrStops := by
  unfold Obligations.MaskExpiryTripsOrStops
  intro s c tm calm ran
  refine ⟨fun timer => ?_, fun timer => ?_, fun timer => ⟨fun inactive notTripped above => ?_,
    fun tripped fresh above => ?_, passingExpiry_stops calm ran timer⟩⟩
  · obtain ⟨trips, stops⟩ := overdrawExpiry calm ran timer
    refine ⟨fun active above => ?_, stops⟩
    obtain ⟨t, effect, tripped⟩ := trip_active calm active .overdraw
    exact ⟨t, effect ▸ trips active above, tripped⟩
  · obtain ⟨trips, stops⟩ := lineLowExpiry calm ran timer
    refine ⟨fun active minimum below => ?_, stops⟩
    obtain ⟨t, effect, tripped⟩ := trip_active calm active .lineLow
    exact ⟨t, effect ▸ trips active minimum below, tripped⟩
  · obtain ⟨t, effect, tripped⟩ := trip_inactive calm inactive notTripped .valvePassing
    exact ⟨t, effect ▸ passingExpiry_trips calm ran timer inactive (absurd · notTripped) above, tripped⟩
  · have inactive : (consumer s c).state ≠ .active := by rw [tripped]; nofun
    obtain ⟨t, effect, follows⟩ := passing_tripped calm tripped
    exact ⟨t, effect ▸ passingExpiry_trips calm ran timer inactive (fun _ => fresh) above, follows⟩

end Sys2Proof.Proofs.Masks
end

section
/-! STOP and NOMINATE (5-4). -/

namespace Sys2Proof.Proofs.StopNominate

open Sys2Proof Sys2Proof.Machine Sys2Proof.Proofs.Event Sys2Proof.Proofs.Fields Sys2Proof.Proofs.Trips
open Sys2Proof.Proofs.Timers Sys2Proof.Proofs.OwnerRequests

variable {s t : State} {c : Fin 8}

/-! ## STOP (R78) -/

/-- The consumer of the state `t` is OFF, as STOP leaves it, its timers those of its evaluation points. -/
structure StoppedAs (s : State) (c : Fin 8) (t : State) : Prop where
  record : consumer t c = withTimers (stoppedRecord s c) (consumer t c)
  valves : ValvesClosed t c
  ports : t.links.ports = s.links.ports
  outside : OutsideAllocationKept s t

theorem StoppedAs.state (stopped : StoppedAs s c t) : (consumer t c).state = .off := by
  rw [stopped.record]
  rfl

/-- STOP's effect outside OFF and PURGING, up to the event. -/
theorem stoppedAs_put {x : State} (ports : x.links.ports = s.links.ports)
    (outside : OutsideAllocationKept s x) : StoppedAs s c (evaluate c (putConsumer c (stoppedRecord s c) x)) where
  record := by
    have kept := consumer_evaluate c c (putConsumer c (stoppedRecord s c) x)
    rwa [consumer_putConsumer_same] at kept
  valves := by
    have off : (stoppedRecord s c).state = .off := rfl
    exact valvesClosed_putConsumer_same c (by rw [off]; nofun) (by rw [off]; nofun) x
  ports := ports
  outside := outsideAllocationKept_trans outside
    (outsideAllocationKept_trans (putConsumer_outside c _ x) (evaluate_outside c _))

/-- The event after a STOP from ACTIVE leaves the consumer OFF. -/
theorem StoppedAs.event (stopped : StoppedAs s c t) (clean : t.store.errors = []) :
    StoppedAs s c (runStages (creditFlare t)) ∧ grant (runStages (creditFlare t)) c = 0 := by
  have credited : consumer (creditFlare t) c = consumer t c := consumer_eq (creditFlare_supervisor t) c
  obtain ⟨left, none⟩ := runStages_resting (s := creditFlare t) (c := c) (by rw [credited]; exact .inl stopped.state)
  rw [credited, stopped.record] at left
  refine ⟨⟨left, valvesClosed_runStages ?_, ?_, ?_⟩, none⟩
  · unfold ValvesClosed
    rw [creditFlare_lines]
    exact stopped.valves
  · rw [(runStages_ports_masks _).1, creditFlare_links, stopped.ports]
  · exact outsideAllocationKept_trans stopped.outside
      (outsideAllocationKept_trans (creditFlare_outside clean) (runStages_outside _))

/-- What the record of a stopped consumer keeps, and what STOP clears in it. -/
theorem StoppedAs.fields (stopped : StoppedAs s c t) :
    (consumer t c).shedFlag = false ∧ (consumer t c).causes = noCauses ∧ (consumer t c).recoveryTimer = none ∧
      (consumer t c).recoveryCount = (consumer s c).recoveryCount ∧ (consumer t c).lastTrip = (consumer s c).lastTrip ∧
      (consumer t c).damageMark = (consumer s c).damageMark ∧ (consumer t c).nomination = (consumer s c).nomination := by
  rw [stopped.record]
  exact ⟨rfl, rfl, rfl, rfl, rfl, rfl, rfl⟩

theorem execStop_calm (calm : Calm s) {f : Frame} (taken : Taken s f 2) (own : ownerOf s c = f.party) :
    exec (.stop f c) s =
      .next (respond f.party 0x11 .done [stateField (settle (stopBody c s)) c] (settle (stopBody c s))) := by
  show execStop f c s = _
  exact consumerRequest_done_plain calm taken own (fun _ => noCauses) codeStop (fun _ c => ownerReads c) stopBody
    (status := fun _ => stopStatus) rfl rfl nofun

/-- STOP in a state other than OFF, PURGING and ACTIVE is followed by no event. -/
theorem stop_plain (calm : Calm s) (other : (consumer s c).state ≠ .off ∧ (consumer s c).state ≠ .purging ∧
    (consumer s c).state ≠ .active) :
    settle (stopBody c s) = evaluate c (putConsumer c (stoppedRecord s c) s) := by
  have body : stopBody c s = evaluate c (putConsumer c (stoppedRecord s c) s) := by
    obtain ⟨off, purging, active⟩ := other
    unfold stopBody
    cases st : (consumer s c).state with
    | off => exact absurd st off
    | purging => exact absurd st purging
    | active => exact absurd st active
    | backup | shed | tripped => rfl
  rw [body]
  exact settle_quiet calm rfl

theorem stop_purging (calm : Calm s) (purges : (consumer s c).state = .purging) :
    settle (stopBody c s) = setConsumer c (stoppingRecord s c) (releaseReservation c s) := by
  have body : stopBody c s = setConsumer c (stoppingRecord s c) (releaseReservation c s) := by rw [stopBody, purges]
  rw [body]
  exact settle_quiet calm rfl

theorem stop_off (calm : Calm s) (off : (consumer s c).state = .off) : settle (stopBody c s) = s := by
  have body : stopBody c s = s := by rw [stopBody, off]
  rw [body]
  exact settle_quiet calm rfl

/-- STOP from ACTIVE releases the grant, and an event follows. -/
theorem stop_active (calm : Calm s) (active : (consumer s c).state = .active) :
    StoppedAs s c (settle (stopBody c s)) ∧ grant (settle (stopBody c s)) c = 0 ∧
      (settle (stopBody c s)).allocator.result.timeBase = some s.allocator.base := by
  obtain ⟨-, clean, idle⟩ := calm
  have before : StoppedAs s c (evaluate c (putConsumer c (stoppedRecord s c) (releaseGrant c s))) :=
    stoppedAs_put (releaseGrant_ports c s) (releaseGrant_outside c s)
  have base : (evaluate c (putConsumer c (stoppedRecord s c) (releaseGrant c s))).allocator.base = s.allocator.base :=
    releaseGrant_base c s
  have clean' : (evaluate c (putConsumer c (stoppedRecord s c) (releaseGrant c s))).store.errors = [] := by
    have same : (releaseGrant c s).store = s.store := releaseGrant_store s c
    show (releaseGrant c s).store.errors = []
    rw [same, clean]
  have body : settle (stopBody c s) =
      runStages (creditFlare (evaluate c (putConsumer c (stoppedRecord s c) (releaseGrant c s)))) := by
    rw [stopBody, active]
    refine settle_trigger clean' ?_
    exact (releaseGrant_triggers s c).trans idle
  rw [body]
  generalize evaluate c (putConsumer c (stoppedRecord s c) (releaseGrant c s)) = x at *
  obtain ⟨stopped, none⟩ := before.event clean'
  refine ⟨stopped, none, ?_⟩
  rw [runStages_result]
  exact congrArg some ((creditFlare_base x).trans base)

/-- STOP outside OFF and PURGING. -/
theorem stop_stopped (calm : Calm s) (notOff : (consumer s c).state ≠ .off) (notPurging : (consumer s c).state ≠ .purging) :
    StoppedAs s c (settle (stopBody c s)) := by
  by_cases active : (consumer s c).state = .active
  · obtain ⟨stopped, -⟩ := stop_active calm active
    exact stopped
  · rw [stop_plain calm ⟨notOff, notPurging, active⟩]
    exact stoppedAs_put rfl (outsideAllocationKept_refl s)

theorem stop_ports (calm : Calm s) : (settle (stopBody c s)).links.ports = s.links.ports := by
  by_cases off : (consumer s c).state = .off
  · rw [stop_off calm off]
  by_cases purges : (consumer s c).state = .purging
  · rw [stop_purging calm purges]
    rfl
  · exact (stop_stopped calm off purges).ports

/-- Settles O21: from OFF nothing moves, from PURGING the target does, from elsewhere the consumer is OFF. -/
theorem stopLeadsToOff : Obligations.StopLeadsToOff := by
  unfold Obligations.StopLeadsToOff
  intro s f c calm taken own
  refine ⟨_, execStop_calm calm taken own, (respond_answered ..).trans (by rw [stop_ports calm]; rfl), ?_⟩
  by_cases off : (consumer s c).state = .off
  · rw [stop_off calm off]
    refine ⟨fun _ => rfl, absurd off, fun is => ?_, fun _ => ⟨off, fun _ => ⟨rfl, rfl, off⟩⟩, fun is => ?_, fun is => ?_,
      fun _ _ => rfl, rfl, rfl, rfl, rfl, outsideAllocationKept_refl s⟩ <;> rw [off] at is <;> nomatch is
  by_cases purges : (consumer s c).state = .purging
  · rw [stop_purging calm purges]
    have record : consumer (setConsumer c (stoppingRecord s c) (releaseReservation c s)) c = stoppingRecord s c :=
      consumer_setConsumer_same ..
    refine ⟨(absurd · off), fun _ => ?_, fun _ => ⟨record, rfl⟩, absurd purges, fun is => ?_, fun is => ?_, fun _ => absurd purges,
      ?_⟩
    · exact (congrArg (·.shedFlag) record)
    · rw [purges] at is; nomatch is
    · rw [purges] at is; nomatch is
    · exact ⟨congrArg (·.recoveryCount) record, congrArg (·.lastTrip) record, congrArg (·.damageMark) record,
        congrArg (·.nomination) record, outsideAllocationKept_trans (releaseReservation_outside c s) (setConsumer_outside c (stoppingRecord s c) _)⟩
  · have stopped := stop_stopped calm off purges
    obtain ⟨flag, causes, delay, count, last, mark, nomination⟩ := stopped.fields
    obtain ⟨gas, backup⟩ := stopped.valves
    refine ⟨(absurd · off), fun _ => flag, (absurd · purges), fun _ => ⟨stopped.state, fun asserted => ?_⟩, fun active => ?_,
      fun _ => ⟨causes, delay⟩, fun active _ => ?_, count, last, mark, nomination, stopped.outside⟩
    · exact (asserted.elim (fun on => Bool.false_ne_true (gas.symm.trans on))
        fun on => Bool.false_ne_true (backup.symm.trans on)).elim
    · obtain ⟨-, none, base⟩ := stop_active calm active
      exact ⟨none, base⟩
    · rw [stop_plain calm ⟨off, purges, active⟩]
      rfl

/-! ## A grant above its demand is cut (R69) -/

/-- The allocator with part of a consumer's grant moved to the surplus. -/
def grantLowered (a : Allocator) (c : Fin 8) (kw : Nat) : Allocator :=
  { a with result := { a.result with
      grants := a.result.grants.set c (min kw a.result.grants[c]), surplus := a.result.surplus + (a.result.grants[c] - kw) } }

theorem lowerGrant_allocator (c : Fin 8) (kw : Nat) (s : State) :
    (lowerGrant c kw s).allocator = grantLowered s.allocator c kw := by
  unfold lowerGrant grant
  split
  next below =>
    rw [noticeGrant_allocator, grantLowered, Nat.min_eq_left (Nat.le_of_lt below)]
    rfl
  next enough =>
    have noCut : s.allocator.result.grants[c] - kw = 0 := Nat.sub_eq_zero_of_le (Nat.not_lt.1 enough)
    have same : s.allocator.result.grants.set c s.allocator.result.grants[c] = s.allocator.result.grants :=
      Vector.set_getElem_self ..
    rw [grantLowered, noCut, Nat.min_eq_right (Nat.not_lt.1 enough)]
    simp only [Fin.getElem_fin] at same
    simp only [Fin.getElem_fin, same, Nat.add_zero]

/-- What a cut leaves of the part. -/
structure CutAs (s : State) (c : Fin 8) (t : State) : Prop where
  record : consumer t c = withTimers (consumer s c) (consumer t c)
  others : ∀ d, d ≠ c → consumer t d = consumer s d
  allocator : t.allocator = grantLowered s.allocator c (demand s c)
  settlement : t.settlement = s.settlement
  standing : standing t = standing s
  outside : OutsideAllocationKept s t

theorem setResult_outside (r : Allocation) (s : State) : OutsideAllocationKept s (setResult r s) :=
  ⟨rfl, rfl, rfl, rfl, rfl, rfl, rfl, rfl, rfl, rfl, rfl, rfl⟩

theorem lowerGrant_outside (c : Fin 8) (kw : Nat) (s : State) : OutsideAllocationKept s (lowerGrant c kw s) := by
  unfold lowerGrant noticeGrant
  split
  · exact outsideAllocationKept_trans (setResult_outside _ s) (raiseNotice_outside ..)
  · exact outsideAllocationKept_refl s

theorem cutGrant_cut (c : Fin 8) (s : State) : CutAs s c (cutGrant c s) := by
  unfold cutGrant
  split
  next =>
    have supervisor := lowerGrant_supervisor s c (demand s c)
    refine ⟨?_, fun d ne => ?_, lowerGrant_allocator c _ s, lowerGrant_settlement .., lowerGrant_standing c _ s,
      outsideAllocationKept_trans (lowerGrant_outside c _ s) (evaluate_outside c _)⟩
    · rw [← consumer_eq supervisor c]
      exact consumer_evaluate c c _
    · rw [evaluate, consumer_setConsumer_ne ne, consumer_eq supervisor]
  next within =>
    refine ⟨rfl, fun d _ => rfl, ?_, rfl, rfl, outsideAllocationKept_refl s⟩
    have noCut := lowerGrant_allocator c (demand s c) s
    rwa [lowerGrant, if_neg within] at noCut

/-! ## NOMINATE (R79) -/

theorem nominateStatus_eq (c : Fin 8) (rate : Nat) (s : State) :
    nominateStatus c rate s = if effectiveCeiling s c < rate then .clamped else .done := rfl

theorem nominateStatus_passes (c : Fin 8) (rate : Nat) (s : State) : isRefusing (nominateStatus c rate s) = false := by
  rw [nominateStatus_eq]
  split <;> rfl

theorem nominateStatus_plain (c : Fin 8) (rate : Nat) (s : State) : nominateStatus c rate s ≠ .stillFaulted := by
  rw [nominateStatus_eq]
  split <;> nofun

theorem execNominate_calm (calm : Calm s) {f : Frame} (taken : Taken s f 6) (own : ownerOf s c = f.party) (rate : Nat) :
    exec (.nominate f c rate) s = .next (respond f.party 0x12 (nominateStatus c rate s)
      [stateField (settle (nominateBody c rate s)) c] (settle (nominateBody c rate s))) := by
  obtain ⟨running, clean, idle⟩ := calm
  show execNominate f c rate s = _
  rw [execNominate, decide_eq_true c.isLt, request_taken (length := lenNominate) running taken, slotOf_val,
    ownerRequest_calm clean idle own, serve_calm clean idle, judged_taken (nominateStatus_passes c rate s),
    consumerAnswer_plain rfl (nominateStatus_plain c rate s)]

/-- Settles O22: the nomination is set, and what the grant has above the new demand joins the surplus. -/
theorem nominateClampsAndCuts : Obligations.NominateClampsAndCuts := by
  unfold Obligations.NominateClampsAndCuts
  intro s f c rate calm taken own
  refine ⟨_, execNominate_calm calm taken own rate, ?_⟩
  have body : settle (nominateBody c rate s) =
      cutGrant c (setConsumer c { consumer s c with nomination := min rate (effectiveCeiling s c) } s) := by
    rw [nominateBody, setNomination_clean calm.2.1]
    exact settle_quiet calm (cutGrant_triggers _ c)
  rw [body]
  generalize named : setConsumer c { consumer s c with nomination := min rate (effectiveCeiling s c) } s = u
  have cut := cutGrant_cut c u
  generalize cutGrant c u = t at cut ⊢
  obtain ⟨record, others, allocator, settlement, stands, outside⟩ := cut
  have recordU : consumer u c = { consumer s c with nomination := min rate (effectiveCeiling s c) } := by
    rw [← named, consumer_setConsumer_same]
  have othersU : ∀ d, d ≠ c → consumer u d = consumer s d := fun d ne => by
    rw [← named, consumer_setConsumer_ne ne]
  have allocatorU : u.allocator = s.allocator := by rw [← named]; rfl
  have settlementU : u.settlement = s.settlement := by rw [← named]; rfl
  have outsideU : OutsideAllocationKept s u := by rw [← named]; exact setConsumer_outside ..
  have standsU : standing u = standing s := by rw [← named]; rfl
  have ports : t.links.ports = s.links.ports := congrArg Standing.ports (stands.trans standsU)
  have sameDemand : demand t c = demand u c := by
    obtain ⟨-, -, -, -, -, exports, contracts, -⟩ := id outside
    exact Sums.demand_congr contracts exports (congrArg (·.clock) settlement) (by rw [record]; rfl)
  rw [allocatorU] at allocator
  have grantT : grant t c = min (grant s c) (demand t c) := by
    rw [sameDemand, grant, allocator, grantLowered, Nat.min_comm]
    exact Vector.getElem_set_self ..
  have field : stateField t c = stateField s c := by
    unfold stateField
    rw [record, recordU]
    rfl
  refine ⟨(respond_answered ..).trans (by rw [ports, field]; rfl), by rw [← recordU]; exact record, fun d ne => ⟨?_, ?_⟩, grantT, ?_, ?_,
    ?_, settlement.trans settlementU, outsideAllocationKept_trans outsideU outside, ?_⟩
  · exact (others d ne).trans (othersU d ne)
  · show t.allocator.result.grants[d] = _
    rw [allocator]
    exact getElem_set_fin s.allocator.result.grants ne _
  · show t.allocator.result.surplus + grant t c = _
    rw [grantT, sameDemand, allocator]
    show s.allocator.result.surplus + (grant s c - demand u c) + min (grant s c) (demand u c) = _
    omega
  · show t.allocator.result.reservations = _
    rw [allocator]
    rfl
  · show t.allocator.timer = _
    rw [allocator]
    rfl
  · exact ⟨congrArg Standing.gasEn (stands.trans standsU), congrArg Standing.backupEn (stands.trans standsU),
      congrArg Standing.flareEn (stands.trans standsU)⟩

end Sys2Proof.Proofs.StopNominate
end

section
/-! A confirmed purge (R84): the target entered, and the event that follows an entry into ACTIVE. -/

namespace Sys2Proof.Proofs.Confirmed

open Sys2Proof Sys2Proof.Machine Sys2Proof.Proofs.Event Sys2Proof.Proofs.Fields Sys2Proof.Proofs.Trips
open Sys2Proof.Proofs.Timers Sys2Proof.Proofs.Sums

variable {s t : State} {c : Fin 8} {st : ConsumerState}

/-! ## A state entered (R75, R88) -/

theorem consumer_enter (c : Fin 8) (st : ConsumerState) (s : State) :
    consumer (enter c st s) c = withTimers (settled (consumer s c) st) (consumer (enter c st s) c) := by
  have kept := consumer_evaluate c c (putConsumer c (settled (consumer s c) st) s)
  rwa [consumer_putConsumer_same] at kept

theorem consumer_enter_ne {d : Fin 8} (ne : d ≠ c) (st : ConsumerState) (s : State) :
    consumer (enter c st s) d = consumer s d := by
  rw [enter, evaluate, consumer_setConsumer_ne ne, consumer_putConsumer_ne ne]

theorem enter_outside (c : Fin 8) (st : ConsumerState) (s : State) : OutsideAllocationKept s (enter c st s) :=
  outsideAllocationKept_trans (putConsumer_outside c _ s) (evaluate_outside c _)

theorem enter_valves (c : Fin 8) (st : ConsumerState) (s : State) : Upkeep.ValvesFollow (enter c st s) c := by
  have put : Upkeep.ValvesFollow (putConsumer c (settled (consumer s c) st) s) c :=
    Upkeep.valvesFollow_refreshValves (.inl rfl)
  have record := consumer_evaluate c c (putConsumer c (settled (consumer s c) st) s)
  unfold enter Upkeep.ValvesFollow
  rw [record]
  exact put

/-- In ACTIVE an evaluation point stops the passing timer (Table 5-6-1). -/
theorem evaluated_passing (isLit : lit s c = true) : (evaluated s c).passingTimer = none := by
  have applies : passingApplies s c = false := by rw [passingApplies, isLit]; rfl
  show judge (passingApplies s c && passingHolds s c) _ _ = none
  rw [applies]
  rfl

theorem enter_passing (c : Fin 8) (s : State) : (consumer (enter c .active s) c).passingTimer = none := by
  rw [enter, evaluate, consumer_setConsumer_same]
  refine evaluated_passing ?_
  rw [lit, consumer_putConsumer_same]
  rfl

/-! ## What an event makes of an ACTIVE consumer (R59) -/

theorem not_restored_of_shed (a : Nat) (r : Reserving) {x : State} {l : List (Fin 8)} (mem : c ∈ l) :
    (planServed a r x l).state = x := by
  have some : l.isEmpty = false := by
    cases l with
    | nil => exact absurd mem List.not_mem_nil
    | cons _ _ => rfl
  unfold planServed
  simp only [some, Bool.false_and, Bool.false_eq_true, if_false]

/-- Stage 2 leaves its record or sheds it. -/
theorem afterShedding_of_active (a : Nat) (isLit : lit s c = true) :
    consumer (afterShedding a s).1 c = consumer s c ∨
      (consumer (afterShedding a s).1 c = shedRecord (reserve a s).state c ∧ c ∈ (afterShedding a s).2) := by
  have first := reserve_of_lit a isLit
  have one := shedding_spec a (reserve a s).state c
  unfold afterShedding
  generalize (reserve a s).state = x at first one ⊢
  by_cases short : a < floorSum x
  · rw [if_pos short]
    split at one
    · exact .inr one
    · exact .inl (one.1.trans first)
  · rw [if_neg short]
    exact .inl first

/-- It keeps its record or is shed. -/
theorem plan_of_active (a : Nat) (isLit : lit s c = true) :
    consumer (plan a s).state c = consumer s c ∨ consumer (plan a s).state c = shedRecord (reserve a s).state c := by
  have after := afterShedding_of_active a isLit
  rw [plan_eq]
  generalize afterShedding a s = x at after ⊢
  rcases after with same | ⟨shed, mem⟩
  · refine .inl ?_
    split
    · exact same
    · rw [consumer_planServed _ _ _ _ (not_waiting_of_lit ((lit_congr same).trans isLit)), same]
  · refine .inr ?_
    split
    · exact shed
    · rw [not_restored_of_shed _ _ mem, shed]

theorem passing_eventEvaluations (p : Plan) (b : State) (h : lit s c = true → (consumer s c).passingTimer = none) :
    lit (eventEvaluations p b s) c = true → (consumer (eventEvaluations p b s) c).passingTimer = none := by
  unfold eventEvaluations
  refine foldl_induct (fun s => lit s c = true → (consumer s c).passingTimer = none) _ _ (fun x d _ hx => ?_) _ h
  split
  · intro isLit
    by_cases same : c = d
    · subst same
      have stands := consumer_evaluate c c x
      rw [lit, stands] at isLit
      rw [evaluate, consumer_setConsumer_same]
      exact evaluated_passing isLit
    · have stands : consumer (evaluate d x) c = consumer x c := consumer_setConsumer_ne same ..
      rw [lit, stands] at isLit
      rw [stands]
      exact hx isLit
  · exact hx

theorem runStages_passing (h : lit (plan (availableRate s) s).state c = true →
    (consumer (plan (availableRate s) s).state c).passingTimer = none) :
    lit (runStages s) c = true → (consumer (runStages s) c).passingTimer = none := by
  unfold runStages
  generalize plan (availableRate s) s = p at h ⊢
  refine passing_eventEvaluations p s ?_
  have supervisor : (eventNotices p s.allocator.result.grants (applyPlan p s)).supervisor = p.state.supervisor := by
    rw [eventNotices_supervisor]
    rfl
  have record := consumer_eq supervisor c
  rw [lit, record]
  exact h

/-- Valve lines follow through an event. -/
theorem valvesFollow_plan (a : Nat) (h : Upkeep.ValvesFollow s c) : Upkeep.ValvesFollow (plan a s).state c := by
  refine Upkeep.plan_of_parts (P := fun x => Upkeep.ValvesFollow x c) (fun {x d r} same hx => ?_) (fun {x d r} hx => ?_) a h
  · have state : (consumer (setConsumer d r x) c).state = (consumer x c).state := by
      by_cases e : c = d
      · subst e; rw [consumer_setConsumer_same, same]
      · rw [consumer_setConsumer_ne e]
    unfold Upkeep.ValvesFollow
    rw [state]
    exact hx
  · refine Upkeep.valvesFollow_refreshValves ?_
    by_cases e : c = d
    · exact .inl e
    · refine .inr ?_
      unfold Upkeep.ValvesFollow
      rw [consumer_setConsumer_ne e]
      exact hx

theorem valvesFollow_runStages (h : Upkeep.ValvesFollow s c) : Upkeep.ValvesFollow (runStages s) c := by
  have planned := valvesFollow_plan (availableRate s) h
  obtain ⟨state, -⟩ := runStages_record s c
  unfold Upkeep.ValvesFollow
  rw [state]
  have power : (runStages s).power = (plan (availableRate s) s).state.power := (runStages_power s).trans (plan_power ..).symm
  rw [power]
  clear state power
  unfold runStages
  generalize plan (availableRate s) s = p at planned ⊢
  have noticed := eventNotices_standing p s.allocator.result.grants (applyPlan p s)
  rw [eventEvaluations_lines]
  exact ⟨(congrArg (fun x => x.gasEn[c]) noticed).trans planned.1, (congrArg (fun x => x.backupEn[c]) noticed).trans planned.2⟩

/-- A consumer that is ACTIVE when an event begins, once the event has ended. -/
theorem event_active (isLit : lit s c = true) (passing : (consumer s c).passingTimer = none) :
    ((consumer (runStages s) c).state = .active →
      consumer (runStages s) c = withTimers (consumer s c) (consumer (runStages s) c) ∧
      (consumer (runStages s) c).passingTimer = none) ∧
    ((consumer (runStages s) c).state ≠ .active → grant (runStages s) c = 0 ∧ (consumer (runStages s) c).shedFlag = true ∧
      if hasBackup s c then (consumer (runStages s) c).state = .purging ∧ (consumer (runStages s) c).target = some .backup
      else (consumer (runStages s) c).state = .shed) ∧
    reservation (runStages s) c = 0 ∧ (consumer (runStages s) c).state ≠ .backup := by
  have record := consumer_runStages s c
  have kept := plan_of_active (availableRate s) isLit
  have backupKept : hasBackup (reserve (availableRate s) s).state c = hasBackup s c :=
    hasBackup_eq (reserve_contracts ..) c
  have noPassing := runStages_passing (s := s) (c := c)
  have isLitP := lit_runStages s c
  have grants := runStages_grant s c
  have none := fun h => plan_grant_of_not_lit (availableRate s) s (c := c) h
  have held : isCandidate (plan (availableRate s) s).state c = false →
      reservation (runStages s) c = 0 := fun noCandidate => by
    rw [runStages_reservation]
    refine Classical.byContradiction fun some => ?_
    exact Bool.noConfusion (noCandidate.symm.trans ((plan_sound (availableRate s) s).reserved c some))
  generalize (reserve (availableRate s) s).state = x at *
  generalize plan (availableRate s) s = p at *
  generalize runStages s = t at *
  rcases kept with same | shed
  · have litT : lit p.state c = true := (lit_congr same).trans isLit
    have litR : lit t c = true := isLitP.trans litT
    rw [same] at record
    refine ⟨fun _ => ⟨record, noPassing (fun _ => same ▸ passing) litR⟩, fun other => absurd (eq_of_beq litR) other,
      held (not_candidate_of_lit litT), ?_⟩
    rw [eq_of_beq litR]
    nofun
  · have unlit : lit p.state c = false := by
      rw [lit, shed, shedRecord]
      split <;> rfl
    have noCandidate : isCandidate p.state c = false := by
      rw [isCandidate, shed, shedRecord]
      split <;> rfl
    have notActive : (consumer t c).state ≠ .active := by
      have := isLitP.trans unlit
      exact beq_eq_false_iff_ne.1 this
    rw [shed] at record
    refine ⟨fun active => absurd active notActive, fun _ => ⟨grants.trans (none unlit), ?_, ?_⟩, held noCandidate, ?_⟩
    · rw [record, withTimers_shedFlag, shedRecord]
      split <;> rfl
    · rw [record, withTimers_state, withTimers_target, shedRecord, backupKept]
      cases hasBackup s c
      · rfl
      · exact ⟨rfl, rfl⟩
    · rw [record, withTimers_state, shedRecord]
      split <;> nofun

/-! ## The purge (R84) -/

theorem purgeConfirmed_true (valid : (sample s (lineChannel c)).state = .valid)
    (below : valueInUse s (lineChannel c) ≤ item s (.consumer c cPurgeThreshold)) : purgeConfirmed s c = true := by
  simp [purgeConfirmed, valid, below]

/-- Targets other than ACTIVE are entered without an event. -/
theorem enterTarget_elsewhere (calm : Calm s) (elsewhere : (consumer s c).target ≠ some .active) :
    ∃ st, settle (enterTarget c s) = enter c st s ∧ st ≠ .active ∧
      ∀ e ∈ [(PurgeTarget.backup, ConsumerState.backup), (.shed, .shed), (.off, .off)], (consumer s c).target = some e.1 →
        st = e.2 := by
  have quiet : ∀ st, settle (enter c st s) = enter c st s := fun st => settle_quiet calm rfl
  unfold enterTarget
  cases target : (consumer s c).target with
  | none => exact ⟨.off, quiet _, nofun, fun e mem => nofun⟩
  | some g =>
    cases g with
    | active => exact absurd target elsewhere
    | backup => exact ⟨.backup, quiet _, nofun, by simp⟩
    | shed => exact ⟨.shed, quiet _, nofun, by simp⟩
    | off => exact ⟨.off, quiet _, nofun, by simp⟩

theorem available_of_outside (h : OutsideAllocationKept s t) : availableRate t = availableRate s := by
  obtain ⟨-, -, field, -, band, -, contracts, -⟩ := h
  exact availableRate_eq field band (congrArg ContractUnit.contract contracts)

/-- The floors once a consumer has entered ACTIVE: its own comes in (R56). -/
theorem floorSum_enter (purges : (consumer s c).state = .purging) :
    floorSum (enter c .active (releaseReservation c s)) = floorSum s + litFloor s c := by
  have record := consumer_enter c .active (releaseReservation c s)
  have others : ∀ d, d ≠ c → consumer (enter c .active (releaseReservation c s)) d = consumer s d := fun d ne =>
    consumer_enter_ne ne .active (releaseReservation c s)
  have contracts : (enter c .active (releaseReservation c s)).contracts = s.contracts := rfl
  have exports : (enter c .active (releaseReservation c s)).exports = s.exports := rfl
  have settlement : (enter c .active (releaseReservation c s)).settlement = s.settlement := rfl
  generalize enter c .active (releaseReservation c s) = x at *
  have floors : ∀ d, litFloor x d = litFloor s d := fun d => litFloor_congr contracts exports settlement (by
    by_cases e : d = c
    · subst e; rw [record]; rfl
    · rw [others d e])
  have isLit : lit x c = true := by rw [lit, record]; rfl
  rw [floorSum_eq, sumOver_erase _ _ isLit, floors, floorSum_eq, Nat.add_comm]
  refine congrArg (· + _) (sumOver_congr (fun d => ?_) fun d _ => floors d)
  by_cases e : d = c
  · subst e
    simp [not_lit (s := s) (c := d) (by rw [purges]; nofun)]
  · simp [e, lit_congr (others d e)]

/-- Entry into ACTIVE, and the event that follows. -/
theorem enterTarget_active (calm : Calm s) (purges : (consumer s c).state = .purging)
    (target : (consumer s c).target = some .active) : ∃ t : State, settle (enterTarget c s) = t ∧
      OutsideAllocationKept s t ∧ t.links.ports = s.links.ports ∧
      (classOf s c = 0 ∨ floorSum s + litFloor s c ≤ availableRate s → (consumer t c).state = .active) ∧
      ((consumer t c).state = .active → (consumer t c).target = none ∧ (consumer t c).purgeTimer = none ∧
        (consumer t c).passingTimer = none ∧ t.lines.gasEn[c] = true) ∧
      ((consumer t c).state ≠ .active → grant t c = 0 ∧ (consumer t c).shedFlag = true ∧ t.lines.gasEn[c] = false ∧
        if hasBackup s c then (consumer t c).state = .purging ∧ (consumer t c).target = some .backup
        else (consumer t c).state = .shed) ∧
      reservation t c = 0 ∧ t.lines.backupEn[c] = false ∧ t.allocator.result.timeBase = some s.allocator.base := by
  obtain ⟨running, clean, idle⟩ := calm
  have entered := consumer_enter c .active (releaseReservation c s)
  have outside := outsideAllocationKept_trans (releaseReservation_outside c s) (enter_outside c .active (releaseReservation c s))
  have valves := enter_valves c .active (releaseReservation c s)
  have passing := enter_passing c (releaseReservation c s)
  have floors := floorSum_enter purges
  have base : (enter c .active (releaseReservation c s)).allocator.base = s.allocator.base := rfl
  have ports : (enter c .active (releaseReservation c s)).links.ports = s.links.ports := rfl
  have idle' : (enter c .active (releaseReservation c s)).allocator.triggers = 0 := idle
  rw [enterTarget, target]
  generalize enter c .active (releaseReservation c s) = x at *
  have clean' : x.store.errors = [] := by
    obtain ⟨-, -, -, -, -, -, -, store, -⟩ := outside
    rw [store, clean]
  obtain ⟨rate, floorsY, each⟩ := creditFlare_figures clean'
  obtain ⟨-, -, record, class_⟩ := each c
  have credited := creditFlare_outside clean'
  have whole := outsideAllocationKept_trans outside (outsideAllocationKept_trans credited (runStages_outside _))
  have powerT : (runStages (creditFlare x)).power = s.power := whole.1
  have backupY : hasBackup (creditFlare x) c = hasBackup s c := by
    obtain ⟨-, -, -, -, -, -, contracts, -⟩ := outsideAllocationKept_trans outside credited
    exact hasBackup_eq contracts c
  have classX : classOf x c = classOf s c := by
    obtain ⟨-, -, -, -, -, -, contracts, -⟩ := outside
    exact classOf_eq (congrArg ContractUnit.contract contracts) c
  have rateX := available_of_outside outside
  have isLit : lit (creditFlare x) c = true := by rw [lit, record, entered]; rfl
  obtain ⟨stays, leaves, none, notBackup⟩ := event_active isLit (by rw [record]; exact passing)
  have follows : Upkeep.ValvesFollow (runStages (creditFlare x)) c := by
    refine valvesFollow_runStages ?_
    unfold Upkeep.ValvesFollow
    rw [record, creditFlare_lines, creditFlare_power]
    exact valves
  obtain ⟨gas, backup⟩ := follows
  rw [powerT, running, Bool.true_and] at gas backup
  have baseT : (runStages (creditFlare x)).allocator.result.timeBase = some s.allocator.base := by
    rw [runStages_result]
    exact congrArg some ((creditFlare_base x).trans base)
  refine ⟨_, settle_trigger clean' idle', whole, ?_, fun kept => ?_, fun active => ?_, fun other => ?_, none, ?_, baseT⟩
  · rw [(runStages_ports_masks _).1, creditFlare_links, ports]
  · have kept' : classOf (creditFlare x) c = 0 ∨ floorSum (creditFlare x) ≤ availableRate (creditFlare x) := by
      rw [class_, classX, floorsY, rate, rateX, floors]
      exact kept
    have isLitT := (lit_runStages (creditFlare x) c).trans ((lit_congr (plan_of_lit isLit kept')).trans isLit)
    exact eq_of_beq isLitT
  · obtain ⟨left, noPassing⟩ := stays active
    rw [record, entered] at left
    refine ⟨?_, ?_, noPassing, by rw [gas, active]; rfl⟩
    · rw [left]; rfl
    · rw [left]; rfl
  · obtain ⟨noGrant, flag, goes⟩ := leaves other
    refine ⟨noGrant, flag, ?_, by rw [← backupY]; exact goes⟩
    rw [gas]
    exact beq_eq_false_iff_ne.2 other
  · rw [backup]
    exact beq_eq_false_iff_ne.2 notBackup

/-- Settles O26: a target other than ACTIVE is entered as it stands, and ACTIVE with the event that follows. -/
theorem confirmedPurgeEntersItsTarget : Obligations.ConfirmedPurgeEntersItsTarget := by
  unfold Obligations.ConfirmedPurgeEntersItsTarget
  intro s c tm calm purges timer ran valid below
  rw [execPurge_due calm (due_of_ran calm timer ran), purgeConfirmed_true valid below, if_pos rfl]
  by_cases target : (consumer s c).target = some .active
  · obtain ⟨t, effect, outside, ports, rest⟩ := enterTarget_active calm purges target
    refine ⟨t, congrArg _ effect, outside, ports, fun e mem other => ?_, fun _ => rest⟩
    rw [target] at other
    obtain rfl | rfl | rfl : e = (.backup, .backup) ∨ e = (.shed, .shed) ∨ e = (.off, .off) := by simpa using mem
    all_goals nomatch other
  · obtain ⟨st, effect, notActive, states⟩ := enterTarget_elsewhere calm target
    obtain ⟨gas, backup⟩ := enter_valves c st s
    have record := consumer_enter c st s
    have state : (consumer (enter c st s) c).state = st := by rw [record]; rfl
    have runs : (enter c st s).power.running = true := calm.1
    rw [state, runs, Bool.true_and] at gas backup
    refine ⟨_, congrArg _ effect, enter_outside c st s, rfl, fun e mem is => ?_, (absurd · target)⟩
    have same := states e mem is
    refine ⟨state.trans same, ?_, ?_, ?_, ?_, gas.trans (beq_eq_false_iff_ne.2 notActive), ?_, rfl,
      fun d ne => consumer_enter_ne ne st s⟩
    · rw [record]; rfl
    · rw [record]; rfl
    · rw [record]; rfl
    · rw [record]; rfl
    · rw [backup, ← same]
      exact Bool.eq_iff_iff.2 (beq_iff_eq.trans decide_eq_true_iff.symm)

end Sys2Proof.Proofs.Confirmed
end

section
/-! What the stages of an event decide, in terms of the state that they start from (R58 to R62). -/

namespace Sys2Proof.Proofs.Stages

open Sys2Proof Sys2Proof.Machine Sys2Proof.Proofs.Event Sys2Proof.Proofs.Sums

variable {s t : State} {a : Nat} {c d : Fin 8}

/-! ## The order and the roles -/

theorem comesBefore_eq (h : t.contracts = s.contracts) (c d : Fin 8) : comesBefore t c d = comesBefore s c d := by
  unfold comesBefore
  rw [classOf_eq (congrArg ContractUnit.contract h), classOf_eq (congrArg ContractUnit.contract h)]

theorem isCandidate_of_record (h : consumer t c = consumer s c) : isCandidate t c = isCandidate s c := by
  rw [isCandidate, h, isCandidate]

theorem isWaiting_of_record (h : consumer t c = consumer s c) : isWaiting t c = isWaiting s c := by
  rw [isWaiting, h, isWaiting]

theorem not_lit_of_candidate (h : isCandidate s c = true) : lit s c = false := by
  cases isLit : lit s c
  · rfl
  · exact absurd h (Bool.eq_false_iff.1 (not_candidate_of_lit isLit))

/-! ## Stage 2 (R59) -/

/-- The condition under which stage 2 sheds an ACTIVE consumer. -/
abbrev IsShed (a : Nat) (s : State) (c : Fin 8) : Prop :=
  lit s c = true ∧ classOf s c ≠ 0 ∧ a < sumOver (fun d => lit s d && !comesBefore s c d) (litFloor s)

theorem litFloor_reserve (a : Nat) (s : State) (d : Fin 8) : litFloor (reserve a s).state d = litFloor s d :=
  litFloor_congr (reserve_contracts ..) (reserve_exports ..) (reserve_settlement ..) (reserve_nomination a s d)

theorem isShed_reserve (a : Nat) (s : State) (c : Fin 8) : IsShed a (reserve a s).state c ↔ IsShed a s c := by
  have contracts := reserve_contracts s a
  have same : sumOver (fun d => lit (reserve a s).state d && !comesBefore (reserve a s).state c d) (litFloor (reserve a s).state)
      = sumOver (fun d => lit s d && !comesBefore s c d) (litFloor s) :=
    sumOver_congr (fun d => by rw [lit_reserve, comesBefore_eq contracts]) fun d _ => litFloor_reserve a s d
  unfold IsShed
  rw [same, lit_reserve, classOf_eq (congrArg ContractUnit.contract contracts)]

theorem not_shed_of_fits (fits : floorSum s ≤ a) : ¬ IsShed a s c := by
  rintro ⟨-, -, short⟩
  have le : sumOver (fun d => lit s d && !comesBefore s c d) (litFloor s) ≤ floorSum s :=
    sumOver_le (fun d h => (Bool.and_eq_true_iff.1 h).1) fun _ _ => Nat.le_refl _
  omega

theorem afterShedding_spec (a : Nat) (s : State) (c : Fin 8) :
    if IsShed a s c then
      consumer (afterShedding a s).1 c = shedRecord (reserve a s).state c ∧ c ∈ (afterShedding a s).2
    else consumer (afterShedding a s).1 c = consumer (reserve a s).state c ∧ c ∉ (afterShedding a s).2 := by
  have one := shedding_spec a (reserve a s).state c
  have same := isShed_reserve a s c
  have floors := floorSum_reserve a s
  have never := @not_shed_of_fits s a c
  unfold afterShedding
  generalize (reserve a s).state = x at one same floors ⊢
  by_cases short : a < floorSum x
  · rw [if_pos short]
    by_cases shed : IsShed a s c
    · rw [if_pos shed]
      rwa [if_pos (same.2 shed)] at one
    · rw [if_neg shed]
      rwa [if_neg (fun h => shed (same.1 h))] at one
  · rw [if_neg short, if_neg (never (by omega))]
    exact ⟨rfl, List.not_mem_nil⟩

theorem afterShedding_shed (shed : IsShed a s c) :
    consumer (afterShedding a s).1 c = shedRecord (reserve a s).state c ∧ c ∈ (afterShedding a s).2 := by
  have := afterShedding_spec a s c
  rwa [if_pos shed] at this

theorem afterShedding_kept (kept : ¬ IsShed a s c) :
    consumer (afterShedding a s).1 c = consumer (reserve a s).state c ∧ c ∉ (afterShedding a s).2 := by
  have := afterShedding_spec a s c
  rwa [if_neg kept] at this

theorem afterShedding_unlit (unlit : lit s c = false) :
    consumer (afterShedding a s).1 c = consumer (reserve a s).state c :=
  (afterShedding_kept fun shed => Bool.noConfusion (unlit.symm.trans shed.1)).1

theorem isWaiting_afterShedding (a : Nat) (s : State) (c : Fin 8) : isWaiting (afterShedding a s).1 c =
    (isWaiting s c || decide (IsShed a s c ∧ hasBackup s c = false)) := by
  by_cases shed : IsShed a s c
  · have was : isWaiting s c = false := not_waiting_of_lit shed.1
    have backup : hasBackup (reserve a s).state c = hasBackup s c := hasBackup_eq (reserve_contracts ..) c
    rw [isWaiting, (afterShedding_shed shed).1, shedRecord, backup, was]
    cases hasBackup s c <;> simp [shed, settled, purging]
  · have left := (afterShedding_kept shed).1
    simp only [shed, false_and, decide_false, Bool.or_false]
    cases cand : isCandidate s c
    · exact isWaiting_of_record (left.trans ((consumer_reserve a s c).2 cand))
    · have purges := (Upkeep.isCandidate_iff.1 cand).1
      have state : (consumer (reserve a s).state c).state = (consumer s c).state := by
        rw [(consumer_reserve a s c).1]; rfl
      simp only [isWaiting, left, state, purges]
      rfl

/-- No one is shed, and the floors fit, exactly where they did before (R59). -/
theorem noneShed_iff (a : Nat) (s : State) :
    ((afterShedding a s).2 = [] ∧ ¬ a < floorSum (afterShedding a s).1) ↔ floorSum s ≤ a := by
  constructor
  · rintro ⟨none, enough⟩
    have stays : ∀ d, lit (afterShedding a s).1 d = lit s d := fun d => by
      have kept : ¬ IsShed a s d := fun shed => by
        have mem := (afterShedding_shed shed).2
        rw [none] at mem
        exact List.not_mem_nil mem
      exact (lit_congr (afterShedding_kept kept).1).trans (lit_reserve a s d)
    have same : floorSum (afterShedding a s).1 = floorSum s := sumOver_congr stays fun d _ => litFloor_afterShedding a s d
    omega
  · intro fits
    have after : afterShedding a s = ((reserve a s).state, []) := by
      rw [afterShedding, floorSum_reserve, if_neg (Nat.not_lt.2 fits)]
    rw [after]
    exact ⟨rfl, by rw [floorSum_reserve]; exact Nat.not_lt.2 fits⟩

/-! ## Stage 4 (R61) -/

theorem planServed_restored (a : Nat) (r : Reserving) (x : State) (l : List (Fin 8)) (c : Fin 8) :
    (planServed a r x l).restored = some c ↔ l = [] ∧ bandRestores x.band = true ∧ toRestore a r.sum x = some c := by
  have chosen : (if l.isEmpty && bandRestores x.band then toRestore a r.sum x else none) = some c ↔
      l = [] ∧ bandRestores x.band = true ∧ toRestore a r.sum x = some c := by
    split
    next both =>
      obtain ⟨empty, band⟩ := Bool.and_eq_true_iff.1 both
      simp [List.isEmpty_iff.1 empty, band]
    next neither =>
      refine ⟨nofun, fun ⟨empty, band, _⟩ => absurd ?_ neither⟩
      rw [empty, band]
      rfl
  rw [← chosen]
  unfold planServed
  split
  next d picked => rw [picked]
  next picked => rw [picked]

theorem afterShedding_band (a : Nat) (s : State) : (afterShedding a s).1.band = s.band := by
  unfold afterShedding
  split
  · exact (shedding_band ..).trans (reserve_band ..)
  · exact reserve_band ..

/-- The consumer that an event restores. -/
abbrev IsRestored (a : Nat) (s : State) (c : Fin 8) : Prop :=
  isWaiting s c = true ∧ (∀ d, isWaiting s d = true → comesBefore s d c = false) ∧ bandRestores s.band = true ∧
    floorSum s ≤ a ∧ litFloor s c + itemNat s (.holder hRestoreMargin) ≤ a - floorSum s - (reserve a s).sum

theorem plan_restored (a : Nat) (s : State) (c : Fin 8) : (plan a s).restored = some c ↔ IsRestored a s c := by
  by_cases fits : floorSum s ≤ a
  · have after : afterShedding a s = ((reserve a s).state, []) := by
      rw [afterShedding, floorSum_reserve, if_neg (Nat.not_lt.2 fits)]
    have contracts := reserve_contracts s a
    have margin : itemNat (reserve a s).state (.holder hRestoreMargin) = itemNat s (.holder hRestoreMargin) :=
      itemNat_eq (congrArg ContractUnit.contract contracts) _
    have waits : ∀ d, isWaiting (reserve a s).state d = isWaiting s d := fun d => by
      have same := isWaiting_afterShedding a s d
      rw [after] at same
      simpa [not_shed_of_fits fits] using same
    rw [plan_eq, after]
    simp only [floorSum_reserve, if_neg (Nat.not_lt.2 fits)]
    rw [planServed_restored, toRestore_eq_some, reserve_band, floorSum_reserve, litFloor_reserve, margin]
    simp only [waits, comesBefore_eq contracts, IsRestored, fits, true_and]
    exact ⟨fun ⟨band, wait, first, room⟩ => ⟨wait, first, band, room⟩, fun ⟨wait, first, band, room⟩ => ⟨band, wait, first, room⟩⟩
  · have none : (plan a s).restored = none := by
      have some := mt (noneShed_iff a s).1 fits
      rw [plan_eq]
      generalize afterShedding a s = x at some ⊢
      split
      · rfl
      next enough =>
        cases picked : (planServed a (reserve a s) x.1 x.2).restored with
        | none => rfl
        | some c => exact absurd ⟨((planServed_restored ..).1 picked).1, enough⟩ some
    rw [none]
    exact ⟨nofun, fun restored => absurd restored.2.2.2.1 fits⟩

/-! ## The whole plan -/

/-- A restored consumer purges toward ACTIVE; any other is as stage 2 left it (R61). -/
theorem plan_record (a : Nat) (s : State) (c : Fin 8) :
    (IsRestored a s c → consumer (plan a s).state c = restored (afterShedding a s).1 c) ∧
    (¬ IsRestored a s c → consumer (plan a s).state c = consumer (afterShedding a s).1 c) := by
  rw [← plan_restored, plan_eq]
  generalize afterShedding a s = x
  split
  · exact ⟨nofun, fun _ => rfl⟩
  · unfold planServed
    split
    next d _ =>
      refine ⟨fun same => ?_, fun other => consumer_putConsumer_ne (fun same => other (congrArg some same.symm)) ..⟩
      obtain rfl : d = c := Option.some.inj same
      exact consumer_putConsumer_same ..
    next => exact ⟨nofun, fun _ => rfl⟩

/-- Its reservation is its lit floor; any other is as stage 1 gave it (R58, R61). -/
theorem plan_reserved (a : Nat) (s : State) (c : Fin 8) :
    (IsRestored a s c → (plan a s).reservations[c] = litFloor s c) ∧
    (¬ IsRestored a s c → (plan a s).reservations[c] = (reserve a s).given[c]) := by
  have floor := litFloor_afterShedding a s c
  rw [← plan_restored, plan_eq]
  generalize afterShedding a s = x at floor ⊢
  split
  · exact ⟨nofun, fun _ => rfl⟩
  · unfold planServed
    split
    next d _ =>
      refine ⟨fun same => ?_, fun other => getElem_set_fin _ (fun same => other (congrArg some same.symm)) _⟩
      obtain rfl : d = c := Option.some.inj same
      rw [← floor]
      exact Vector.getElem_set_self ..
    next => exact ⟨nofun, fun _ => rfl⟩

theorem plan_shed (a : Nat) (s : State) : (plan a s).shed = (reserve a s).lost ++ (afterShedding a s).2 := by
  rw [plan_eq]
  split
  · rfl
  · unfold planServed
    split <;> rfl

/-- Stage 4 lights no one and puts no one out (R61). -/
theorem lit_plan (a : Nat) (s : State) (c : Fin 8) : lit (plan a s).state c = lit (afterShedding a s).1 c := by
  obtain ⟨restored, others⟩ := plan_record a s c
  by_cases is : IsRestored a s c
  · have unlit := not_lit_of_waiting is.1
    rw [lit_congr (afterShedding_unlit unlit), lit_reserve, unlit, lit, restored is]
    rfl
  · exact lit_congr (others is)

/-- The rate left for floors and nominations is what the floors and reservations leave. -/
theorem plan_grants (a : Nat) (s : State) : (plan a s).grants =
    if a < floorSum (afterShedding a s).1 then proRata a (afterShedding a s).1
    else (floorsAndNominations (plan a s).state
      (a - floorSum (afterShedding a s).1 - sumVec (plan a s).reservations)).1 := by
  have total := sumVec_given a s
  have noneGiven : ∀ c, isWaiting (afterShedding a s).1 c = true → (reserve a s).given[c] = 0 := fun c waits => by
    refine Classical.byContradiction fun some => ?_
    have cand := (reserve_given_candidate a some).2
    exact Bool.noConfusion ((not_candidate_of_waiting waits).symm.trans (candidate_afterShedding cand))
  rw [plan_eq]
  generalize afterShedding a s = x at noneGiven ⊢
  generalize reserve a s = r at *
  split
  · rfl
  · unfold planServed
    split
    next c picked =>
      have waits : isWaiting x.1 c = true := by
        split at picked
        · exact toRestore_waiting picked
        · exact nomatch picked
      have sum := sumVec_set r.given c (litFloor x.1 c)
      rw [noneGiven c waits, total, Nat.add_zero] at sum
      simp only [sum]
    next => simp only [total]

end Sys2Proof.Proofs.Stages
end

section
/-! The expiry of the allocation period: the event told by its order of stages (R52 to R66). -/

namespace Sys2Proof.Proofs.Period

open Sys2Proof Sys2Proof.Machine Sys2Proof.Proofs.Event Sys2Proof.Proofs.Sums Sys2Proof.Proofs.Stages Sys2Proof.Proofs.Trips

variable {s t : State} {a : Nat} {c d : Fin 8}

/-! ## The parts of an event's end -/

theorem runStages_reservations (s : State) (c : Fin 8) :
    (IsRestored (availableRate s) s c → reservation (runStages s) c = litFloor s c) ∧
    (¬ IsRestored (availableRate s) s c → reservation (runStages s) c = (reserve (availableRate s) s).given[c]) := by
  rw [runStages_reservation]
  exact plan_reserved (availableRate s) s c

/-- The record that an event leaves, but for its timers: restored, or as stage 2 left it. -/
theorem runStages_left (s : State) (c : Fin 8) :
    (IsRestored (availableRate s) s c → consumer (runStages s) c =
      withTimers (restored (afterShedding (availableRate s) s).1 c) (consumer (runStages s) c)) ∧
    (¬ IsRestored (availableRate s) s c → consumer (runStages s) c =
      withTimers (consumer (afterShedding (availableRate s) s).1 c) (consumer (runStages s) c)) := by
  have left := consumer_runStages s c
  obtain ⟨restored, others⟩ := plan_record (availableRate s) s c
  exact ⟨fun is => by rw [restored is] at left; exact left, fun other => by rw [others other] at left; exact left⟩

theorem not_restored_of_not_waiting (h : isWaiting s c = false) : ¬ IsRestored a s c := fun is =>
  Bool.noConfusion (h.symm.trans is.1)

theorem isWaiting_iff : isWaiting s c = true ↔
    ((consumer s c).state = .backup ∨ (consumer s c).state = .shed) ∧ (consumer s c).shedFlag = true := by
  simp [isWaiting]

/-! ## Stage 1 (R58) -/

/-- What stage 1 decides of a candidate stands when the event ends. -/
theorem candidate_left (cand : isCandidate s c = true) : consumer (runStages s) c =
    withTimers (consumer (reserve (availableRate s) s).state c) (consumer (runStages s) c) ∧
    reservation (runStages s) c = (reserve (availableRate s) s).given[c] := by
  have notWaiting : isWaiting s c = false := by
    have purges := (Upkeep.isCandidate_iff.1 cand).1
    rw [isWaiting, purges]
    rfl
  have stays := not_restored_of_not_waiting (a := availableRate s) notWaiting
  have left := (runStages_left s c).2 stays
  rw [afterShedding_unlit (not_lit_of_candidate cand)] at left
  exact ⟨left, (runStages_reservations s c).2 stays⟩

theorem holding_shedFlag (r : Consumer) : (holding r).shedFlag = (r.shedFlag && r.reservation != .awaiting) := by
  unfold holding
  cases r.reservation <;> simp

theorem reservationsDecided (s : State) : ReservationsDecided s (runStages s) := by
  intro c cand
  have one := (reserve_spec (availableRate s) s).1 c cand
  obtain ⟨left, given⟩ := candidate_left cand
  split
  next fits =>
    rw [if_pos fits] at one
    obtain ⟨holds, gets, -⟩ := one
    rw [left, given, holds]
    simp only [withTimers_reservation, withTimers_target, withTimers_shedFlag]
    exact ⟨rfl, (Upkeep.isCandidate_iff.1 cand).2, gets, holding_shedFlag _⟩
  next exceeds =>
    rw [if_neg exceeds] at one
    obtain ⟨loses, gets, -⟩ := one
    rw [left, given, loses]
    simp only [withTimers_reservation, withTimers_target, withTimers_shedFlag]
    exact ⟨rfl, rfl, gets, rfl⟩

/-! ## Stage 2 (R59) -/

theorem lit_left (s : State) (c : Fin 8) : lit (runStages s) c = lit (afterShedding (availableRate s) s).1 c :=
  (lit_runStages s c).trans (lit_plan _ s c)

theorem lit_false_iff (isLit : lit s c = true) : lit (runStages s) c = false ↔ IsShed (availableRate s) s c := by
  rw [lit_left]
  constructor
  · intro out
    refine Classical.byContradiction fun kept => ?_
    rw [lit_congr (afterShedding_kept kept).1, lit_reserve, isLit] at out
    exact Bool.noConfusion out
  · intro shed
    rw [lit, (afterShedding_shed shed).1]
    exact shedRecord_not_lit ..

theorem shedInOrder (s : State) : ShedInOrder s (runStages s) := by
  intro c isLit
  refine ⟨(lit_false_iff isLit).trans ⟨fun shed => shed.2, fun rest => ⟨isLit, rest⟩⟩, fun out => ?_⟩
  have shed := (lit_false_iff isLit).1 out
  have left := (runStages_left s c).2 (not_restored_of_not_waiting (not_waiting_of_lit isLit))
  have none := plan_grant_of_not_lit (availableRate s) s (c := c) ((lit_runStages s c).symm.trans out)
  rw [(afterShedding_shed shed).1] at left
  have backup : hasBackup (reserve (availableRate s) s).state c = hasBackup s c := hasBackup_eq (reserve_contracts ..) c
  rw [runStages_grant, none, left, withTimers_shedFlag, withTimers_state, withTimers_target, shedRecord, backup]
  cases hasBackup s c
  · exact ⟨rfl, rfl, rfl⟩
  · exact ⟨rfl, rfl, rfl, rfl⟩

/-! ## Stage 4 (R61) -/

theorem given_sum (s : State) :
    sumOver (isCandidate s) (reservation (runStages s)) = (reserve (availableRate s) s).sum := by
  rw [(reserve_spec (availableRate s) s).2.2]
  exact sumOver_congr (fun _ => rfl) fun c cand => (candidate_left cand).2

theorem bandRestores_iff (b : Band) : bandRestores b = true ↔ b = .normal ∨ b = .high ∨ b = .highHigh := by
  cases b <;> simp [bandRestores]

/-- A consumer that waits and is not restored keeps its state and flag. -/
theorem waiting_left (waits : isWaiting s c = true) (stays : ¬ IsRestored (availableRate s) s c) :
    (consumer (runStages s) c).state = (consumer s c).state ∧ (consumer (runStages s) c).shedFlag = (consumer s c).shedFlag := by
  have left := (runStages_left s c).2 stays
  have noCandidate := not_candidate_of_waiting waits
  rw [afterShedding_unlit (not_lit_of_waiting waits), (consumer_reserve _ s c).2 noCandidate] at left
  rw [left]
  exact ⟨withTimers_state .., withTimers_shedFlag ..⟩

theorem purging_iff_restored (waits : isWaiting s c = true) :
    (consumer (runStages s) c).state = .purging ↔ IsRestored (availableRate s) s c := by
  constructor
  · intro purges
    refine Classical.byContradiction fun stays => ?_
    have state := (waiting_left waits stays).1
    rw [purges] at state
    rcases (isWaiting_iff.1 waits).1 with was | was <;> rw [was] at state <;> nomatch state
  · intro is
    rw [(runStages_left s c).1 is]
    rfl

theorem firstWaitingRestored (s : State) : FirstWaitingRestored s (runStages s) := by
  intro c waits
  have iff := purging_iff_restored waits
  rw [given_sum]
  refine ⟨iff.trans ⟨fun ⟨_, first, band, fits, room⟩ => ⟨first, (bandRestores_iff _).1 band, fits, room⟩,
    fun ⟨first, band, fits, room⟩ => ⟨waits, first, (bandRestores_iff _).2 band, fits, room⟩⟩, fun purges => ?_, fun other => ?_⟩
  · have is := iff.1 purges
    refine ⟨?_, ?_, (runStages_reservations s c).1 is, ?_⟩
    · rw [(runStages_left s c).1 is]; rfl
    · rw [(runStages_left s c).1 is]; rfl
    · rw [(runStages_left s c).1 is]; rfl
  · obtain ⟨state, flag⟩ := waiting_left waits (mt iff.2 other)
    exact ⟨state, flag.trans (isWaiting_iff.1 waits).2⟩

/-! ## Stages 3 and 5 (R60, R62) -/

theorem sumVec_eq_sumOver (v : Vector Nat 8) : sumVec v = sumOver (fun _ => true) fun c => v[c] := by
  rw [sumVec_eq, sumOver, List.filter_eq_self.2 fun _ _ => rfl]

theorem wantOf_plan (a : Nat) (s : State) (c : Fin 8) : wantOf (plan a s).state c = wantOf s c := by
  unfold wantOf
  rw [demand_plan, litFloor_of_demand (plan_contracts ..) (demand_plan a s c)]

theorem grantsShared (s : State) : GrantsShared s (runStages s) := by
  intro c isLit
  have lits : lit (runStages s) = lit (afterShedding (availableRate s) s).1 := funext (lit_left s)
  have litsP : lit (plan (availableRate s) s).state = lit (afterShedding (availableRate s) s).1 := funext (lit_plan _ s)
  have floors : litFloor (afterShedding (availableRate s) s).1 = litFloor s := funext (litFloor_afterShedding _ s)
  have floorsP : litFloor (plan (availableRate s) s).state = litFloor s := funext fun d =>
    litFloor_of_demand (plan_contracts ..) (demand_plan _ s d)
  have wants : wantOf (plan (availableRate s) s).state = wantOf s := funext (wantOf_plan _ s)
  have classes : classOf (plan (availableRate s) s).state = classOf s := funext fun d =>
    classOf_eq (congrArg ContractUnit.contract (plan_contracts ..)) d
  have held : sumOver (fun _ => true) (reservation (runStages s)) = sumVec (plan (availableRate s) s).reservations := by
    rw [sumVec_eq_sumOver]
    exact sumOver_congr (fun _ => rfl) fun d _ => runStages_reservation s d
  rw [runStages_grant, plan_grants, leftFor, held, floorSum_eq, floors, ← lits]
  rw [lits] at isLit ⊢
  split
  next short =>
    rw [proRata_spec, if_pos isLit, floors]
  next enough =>
    rw [floorsAndNominations_spec, litsP, if_pos isLit, floorsP, wantsOf, wants, classes, litsP]

/-! ## Notices (R66, R86, R186) -/

theorem candidate_gone_iff (s : State) (c : Fin 8) :
    c ∈ (reserve (availableRate s) s).lost ↔ isCandidate s c = true ∧ isCandidate (runStages s) c = false := by
  obtain ⟨candidates, others, -⟩ := reserve_spec (availableRate s) s
  cases cand : isCandidate s c
  · exact ⟨fun mem => absurd mem (others c cand).2.2, fun ⟨is, _⟩ => nomatch is⟩
  · have one := candidates c cand
    obtain ⟨left, -⟩ := candidate_left cand
    obtain ⟨state, target⟩ := Upkeep.isCandidate_iff.1 cand
    split at one
    · obtain ⟨holds, -, kept⟩ := one
      rw [holds] at left
      have stands : isCandidate (runStages s) c = true := by
        rw [Upkeep.isCandidate_iff, left]
        exact ⟨state, target⟩
      exact ⟨fun mem => absurd mem kept, fun ⟨_, gone⟩ => Bool.noConfusion (stands.symm.trans gone)⟩
    · obtain ⟨loses, -, mem⟩ := one
      rw [loses] at left
      have gone : isCandidate (runStages s) c = false := by
        rw [isCandidate, left, withTimers_target, losing, Bool.and_eq_false_iff]
        right
        cases hasBackup s c <;> rfl
      exact ⟨fun _ => ⟨rfl, gone⟩, fun _ => mem⟩

theorem shed_iff (s : State) (c : Fin 8) : c ∈ (plan (availableRate s) s).shed ↔
    (lit s c = true ∧ lit (runStages s) c = false) ∨ (isCandidate s c = true ∧ isCandidate (runStages s) c = false) := by
  rw [plan_shed, List.mem_append, candidate_gone_iff, or_comm]
  refine or_congr_left ⟨fun mem => ?_, fun ⟨isLit, out⟩ => (afterShedding_shed ((lit_false_iff isLit).1 out)).2⟩
  have shed : IsShed (availableRate s) s c := by
    refine Classical.byContradiction fun kept => ?_
    exact (afterShedding_kept kept).2 mem
  exact ⟨shed.1, (lit_false_iff shed.1).2 shed⟩

theorem restored_iff (s : State) (c : Fin 8) : (plan (availableRate s) s).restored = some c ↔
    isWaiting s c = true ∧ isWaiting (runStages s) c = false := by
  rw [plan_restored]
  refine ⟨fun is => ⟨is.1, ?_⟩, fun ⟨waits, gone⟩ => ?_⟩
  · rw [isWaiting, (runStages_left s c).1 is]
    rfl
  · refine Classical.byContradiction fun stays => ?_
    obtain ⟨state, flag⟩ := waiting_left waits stays
    have still : isWaiting (runStages s) c = true := by
      rw [isWaiting_iff, state, flag]
      exact isWaiting_iff.1 waits
    exact Bool.noConfusion (still.symm.trans gone)

theorem eventTold (s : State) : EventTold s (runStages s) := by
  intro p
  have plain := plan_links s (availableRate s)
  have shed := shed_iff s
  have restored := restored_iff s
  have grants := runStages_grant s
  have contracts := plan_contracts s (availableRate s)
  have links : (runStages s).links = (eventNotices (plan (availableRate s) s) s.allocator.result.grants
      (applyPlan (plan (availableRate s) s) s)).links := by
    unfold runStages
    exact eventEvaluations_links ..
  rw [links]
  generalize runStages s = t at *
  generalize plan (availableRate s) s = x at *
  have applied : (applyPlan x s).links = s.links := plain
  have owner : ∀ c, ownerOf (applyPlan x s) c = ownerOf s c := fun c =>
    ownerOf_eq (s := s) (t := applyPlan x s) (congrArg ContractUnit.contract contracts) c
  have told := notices_eventNotices x s.allocator.result.grants (applyPlan x s) p
  simp only [owner, applied] at told
  refine ⟨?_, ?_⟩
  · rw [told, if_pos rfl]
    refine Lists.foldl_congr (fun n c _ => ?_) _
    simp only [List.contains_iff_mem, shed, restored]
  · rw [told, if_neg (by decide), if_pos rfl]
    refine Lists.foldl_congr (fun n c _ => ?_) _
    rw [grants]
    rfl

/-! ## The flare credit before the stages (R65) -/

theorem creditFlare_clean (clean : s.store.errors = []) : creditFlare s = { s with
    allocator := { s.allocator with result := { s.allocator.result with creditPoint := s.allocator.base } }
    settlement := { s.settlement with openRecord := s.settlement.openRecord.map fun o => { o with
      flare := flareSum o.flare
        (s.allocator.result.flareDemand * ((s.allocator.base - s.allocator.result.creditPoint) / 1000)) } } } := by
  unfold creditFlare
  extract_lets credit
  rw [onOpen_clean clean]
  rfl

/-- The stages after the credit are those of the state before it. -/
theorem stages_creditFlare (clean : s.store.errors = []) : ReservationsDecided s (runStages (creditFlare s)) ∧
    ShedInOrder s (runStages (creditFlare s)) ∧ FirstWaitingRestored s (runStages (creditFlare s)) ∧
    GrantsShared s (runStages (creditFlare s)) ∧ EventTold s (runStages (creditFlare s)) := by
  obtain ⟨rate, floors, each⟩ := creditFlare_figures clean
  have contracts : (creditFlare s).contracts = s.contracts := creditFlare_contracts s
  have band : (creditFlare s).band = s.band := creditFlare_band s
  have notices := creditFlare_notices s
  have grants : (creditFlare s).allocator.result.grants = s.allocator.result.grants := by rw [creditFlare_clean clean]
  have reservations := reservationsDecided (creditFlare s)
  have sheds := shedInOrder (creditFlare s)
  have restores := firstWaitingRestored (creditFlare s)
  have shared := grantsShared (creditFlare s)
  have told := eventTold (creditFlare s)
  generalize runStages (creditFlare s) = t at *
  generalize creditFlare s = x at *
  have record : consumer x = consumer s := funext fun c => (each c).2.2.1
  have floorOf : litFloor x = litFloor s := funext fun c => (each c).2.1
  have demandOf : demand x = demand s := funext fun c => (each c).1
  have classes : classOf x = classOf s := funext fun c => (each c).2.2.2
  have candidates : isCandidate x = isCandidate s := funext fun c => isCandidate_of_record (congrFun record c)
  have waiting : isWaiting x = isWaiting s := funext fun c => isWaiting_of_record (congrFun record c)
  have lits : lit x = lit s := funext fun c => lit_congr (congrFun record c)
  have before : comesBefore x = comesBefore s := funext fun c => funext fun d => comesBefore_eq contracts c d
  have wants : wantOf x = wantOf s := funext fun c => by rw [wantOf, wantOf, demandOf, floorOf]
  have left : leftFor x t = leftFor s t := funext fun k => by rw [leftFor, leftFor, rate, floorOf, classes, wants]
  have backups : hasBackup x = hasBackup s := funext fun c => hasBackup_eq contracts c
  have owners : ownerOf x = ownerOf s := funext fun c => ownerOf_eq (congrArg ContractUnit.contract contracts) c
  have margin : itemNat x (.holder hRestoreMargin) = itemNat s (.holder hRestoreMargin) :=
    itemNat_eq (congrArg ContractUnit.contract contracts) _
  have granted : grant x = grant s := funext fun c => by rw [grant, grants, grant]
  refine ⟨?_, ?_, ?_, ?_, ?_⟩
  · simpa only [ReservationsDecided, candidates, floors, before, floorOf, rate, record, backups] using reservations
  · simpa only [ShedInOrder, lits, classes, rate, before, floorOf, backups] using sheds
  · simpa only [FirstWaitingRestored, waiting, before, band, floors, rate, floorOf, margin, candidates, record] using restores
  · simpa only [GrantsShared, rate, floorOf, classes, wants, left] using shared
  · simpa only [EventTold, owners, lits, candidates, waiting, notices, granted] using told

theorem runStages_flareEn (s : State) : (runStages s).lines.flareEn =
    (s.power.running && decide (0 < if s.band = .highHigh then (plan (availableRate s) s).surplus else 0)) := by
  have power := plan_power s (availableRate s)
  unfold runStages
  generalize plan (availableRate s) s = p at power ⊢
  rw [eventEvaluations_lines]
  refine (congrArg Standing.flareEn (eventNotices_standing p _ (applyPlan p s))).trans ?_
  rw [← power]
  rfl

theorem execPeriod_due (calm : Calm s) (ran : s.allocator.timer.start + s.allocator.timer.length ≤ s.allocator.base) :
    exec .allocationPeriodExpiry s = .next (runStages (creditFlare s)) := by
  obtain ⟨running, clean, idle⟩ := calm
  have due : (s.power.running && timerDue s.allocator.base s.allocator.timer) = true := by simp [running, timerDue, ran]
  have quiet : (runStages (creditFlare s)).allocator.triggers = 0 := by rw [runStages_triggers, creditFlare_triggers, idle]
  show execAllocationPeriodExpiry s = _
  rw [execAllocationPeriodExpiry, if_pos due, allocationEvent_clean clean, settle_idle quiet]

/-- Settles O19: the credit, the stages in their order, and what they leave. -/
theorem periodExpiryReplacesTheResult : Obligations.PeriodExpiryReplacesTheResult := by
  unfold Obligations.PeriodExpiryReplacesTheResult
  intro s calm ran
  refine ⟨_, execPeriod_due calm ran, ?_⟩
  obtain ⟨running, clean, -⟩ := calm
  obtain ⟨reservations, sheds, restores, shared, told⟩ := stages_creditFlare clean
  obtain ⟨rate, -, -⟩ := creditFlare_figures clean
  have outside := outsideAllocationKept_trans (creditFlare_outside clean) (runStages_outside (creditFlare s))
  have result := runStages_result (creditFlare s)
  have flareEn := runStages_flareEn (creditFlare s)
  have timer := runStages_timer (creditFlare s)
  have base := runStages_base (creditFlare s)
  have settlement := runStages_settlement (creditFlare s)
  have ports := (runStages_ports_masks (creditFlare s)).1
  have credited := creditFlare_clean clean
  have sources : sourceSum (creditFlare s) = sourceSum s := by
    have same := creditFlare_contracts s
    exact sourceSum_eq (creditFlare_field s) (congrArg ContractUnit.contract same)
  have holder : holderTerm (creditFlare s) = holderTerm s := by
    have same := creditFlare_contracts s
    exact holderTerm_eq (creditFlare_band s) (congrArg ContractUnit.contract same)
  have period : itemNat (creditFlare s) .allocationPeriod = itemNat s .allocationPeriod := by
    have same := creditFlare_contracts s
    exact itemNat_eq (congrArg ContractUnit.contract same) _
  have band := creditFlare_band s
  have baseX := creditFlare_base s
  have power := creditFlare_power s
  have clock : (creditFlare s).settlement.clock = s.settlement.clock := by rw [credited]
  have creditPoint : (creditFlare s).allocator.result.creditPoint = s.allocator.base := by rw [credited]
  have openRecord : (creditFlare s).settlement.openRecord = s.settlement.openRecord.map fun o => { o with
      flare := flareSum o.flare
        (s.allocator.result.flareDemand * ((s.allocator.base - s.allocator.result.creditPoint) / 1000)) } := by rw [credited]
  have portsX : (creditFlare s).links.ports = s.links.ports := by rw [creditFlare_links]
  generalize runStages (creditFlare s) = t at *
  clear credited
  generalize creditFlare s = x at *
  generalize plan (availableRate x) x = p at *
  rw [planResult] at result
  rw [power, running, Bool.true_and] at flareEn
  rw [result]
  refine ⟨sources, holder, band, rate, clock, congrArg some baseX, creditPoint, by rw [band], flareEn, ?_, base.trans baseX, ?_,
    reservations, sheds, restores, shared, told, outside, ports.trans portsX⟩
  · rw [timer, baseX, period]
  · rw [settlement, openRecord]

end Sys2Proof.Proofs.Period
end

section
/-! A valid level frame: the band with its hysteresis, and the event of a move (R39, R42, R46). -/

namespace Sys2Proof.Proofs.Level

open Sys2Proof Sys2Proof.Machine Sys2Proof.Proofs.Event Sys2Proof.Proofs.Fields Sys2Proof.Proofs.Trips
open Sys2Proof.Proofs.Timers Sys2Proof.Proofs.Period

variable {s t : State}

/-! ## A move of the band -/

/-- The state in which a move of the band hands over to the Allocator: what is credited is not allocated. -/
def bandMoved (new : Band) (s : State) : State :=
  raiseNotice allParties clsHolder (.holder s.band new)
    (if s.band = .highHigh then zeroFlare { s with band := new } else { s with band := new })

theorem changeBand_eq (new : Band) (s : State) : changeBand new s = trigger (bandMoved new s) := rfl

theorem setFlare_outside (kw : Nat) (s : State) : OutsideAllocationKept s (setFlare kw s) :=
  ⟨rfl, rfl, rfl, rfl, rfl, rfl, rfl, rfl, rfl, rfl, rfl, rfl⟩

theorem zeroFlare_outside (clean : s.store.errors = []) : OutsideAllocationKept s (zeroFlare s) :=
  outsideAllocationKept_trans (creditFlare_outside clean) (setFlare_outside 0 _)

theorem zeroFlare_links (s : State) : (zeroFlare s).links = s.links := creditFlare_links s

theorem zeroFlare_base (s : State) : (zeroFlare s).allocator.base = s.allocator.base := creditFlare_base s

theorem zeroFlare_triggers (s : State) : (zeroFlare s).allocator.triggers = s.allocator.triggers := creditFlare_triggers s

/-- What a move of the band leaves for its event. -/
theorem bandMoved_leaves (clean : s.store.errors = []) (new : Band) :
    OutsideAllocationKept { s with band := new } (bandMoved new s) ∧ OtherNoticesKept s (bandMoved new s) clsHolder ∧
    (∀ p : Fin 3, (bandMoved new s).links.notices[p][clsHolder] =
      addOccurrence (.holder s.band new) s.links.notices[p][clsHolder]) ∧
    (bandMoved new s).allocator.base = s.allocator.base ∧ (bandMoved new s).allocator.triggers = s.allocator.triggers := by
  generalize dark : (if s.band = .highHigh then zeroFlare { s with band := new } else { s with band := new }) = x
  have outside : OutsideAllocationKept { s with band := new } x := by
    rw [← dark]
    split
    · exact zeroFlare_outside clean
    · exact outsideAllocationKept_refl _
  have links : x.links = s.links := by
    rw [← dark]
    split
    · exact zeroFlare_links _
    · rfl
  have base : x.allocator.base = s.allocator.base := by
    rw [← dark]
    split
    · exact zeroFlare_base _
    · rfl
  have triggers : x.allocator.triggers = s.allocator.triggers := by
    rw [← dark]
    split
    · exact zeroFlare_triggers _
    · rfl
  have moved : bandMoved new s = raiseNotice allParties clsHolder (.holder s.band new) x := by rw [bandMoved, dark]
  have allocator := raiseNotice_allocator (s := x) allParties clsHolder (.holder s.band new)
  rw [moved, allocator]
  exact ⟨outsideAllocationKept_trans outside (raiseNotice_outside ..),
    otherNotices_of_links links (raiseNotice_otherNotices ..),
    fun p => (raiseNotice_all ..).trans (by rw [links]), base, triggers⟩

/-- A move of the band with its event. -/
theorem changeBand_settled (clean : s.store.errors = []) (idle : s.allocator.triggers = 0) (new : Band) :
    ∃ t : State, settle (changeBand new s) = t ∧ OutsideAllocationKept { s with band := new } t ∧
      (∀ p : Fin 3, t.links.notices[p][clsField] = s.links.notices[p][clsField]) ∧
      (∀ p : Fin 3, t.links.notices[p][clsHolder] = addOccurrence (.holder s.band new) s.links.notices[p][clsHolder]) ∧
      t.allocator.result.band = new ∧ t.allocator.result.timeBase = some s.allocator.base ∧
      (new ≠ .highHigh → t.allocator.result.flareDemand = 0 ∧ t.lines.flareEn = false) := by
  obtain ⟨outside, ⟨-, -, others⟩, told, base, triggers⟩ := bandMoved_leaves clean new
  rw [changeBand_eq]
  generalize bandMoved new s = x at *
  have cleanX : x.store.errors = [] := by
    obtain ⟨-, -, -, -, -, -, -, store, -⟩ := id outside
    rw [store, clean]
  have bandX : (creditFlare x).band = new := by
    obtain ⟨-, -, -, -, band, -⟩ := id outside
    exact (creditFlare_band x).trans band
  have baseX : (creditFlare x).allocator.base = s.allocator.base := (creditFlare_base x).trans base
  have whole := outsideAllocationKept_trans outside
    (outsideAllocationKept_trans (creditFlare_outside cleanX) (runStages_outside (creditFlare x)))
  have field : ∀ p : Fin 3, (runStages (creditFlare x)).links.notices[p][clsField] = s.links.notices[p][clsField] := fun p => by
    rw [runStages_notices _ _ (by decide) (by decide), creditFlare_links, others p _ (by decide)]
  have holder : ∀ p : Fin 3, (runStages (creditFlare x)).links.notices[p][clsHolder] =
      addOccurrence (.holder s.band new) s.links.notices[p][clsHolder] := fun p => by
    rw [runStages_notices _ _ (by decide) (by decide), creditFlare_links, told]
  have result := runStages_result (creditFlare x)
  have flareEn := runStages_flareEn (creditFlare x)
  refine ⟨_, settle_trigger cleanX (triggers.trans idle), whole, field, holder, ?_, ?_, fun dark => ⟨?_, ?_⟩⟩
  · rw [result]; exact bandX
  · rw [result]; exact congrArg some baseX
  · rw [result]
    exact if_neg (by rw [bandX]; exact dark)
  · rw [flareEn, if_neg (by rw [bandX]; exact dark)]
    exact Bool.and_false _

/-! ## The frame -/

theorem takeValid_level (status : SampleStatus) (v : Int) (s : State) : takeValid 6 status v s = evaluateBand v
    (if (sample s 6).state = .valid then setSample 6 (validRecord s 6 status v) s
      else noticeField 6 .valid (setSample 6 (validRecord s 6 status v) s)) := rfl

theorem bandSetInUse_eq (contracts : t.contracts = s.contracts) : bandSetInUse t = bandSetInUse s := by
  unfold bandSetInUse bandSetInForce
  rw [contracts]

/-- Settles O17: the record is replaced and told, and the band moves with an event or stays. -/
theorem levelFrameMovesTheBand : Obligations.LevelFrameMovesTheBand := by
  unfold Obligations.LevelFrameMovesTheBand
  intro s raw status v calm parsed usable low high
  have taken := takeValid_level status v s
  generalize told : (if (sample s 6).state = .valid then setSample 6 (validRecord s 6 status v) s
    else noticeField 6 .valid (setSample 6 (validRecord s 6 status v) s)) = x at taken
  have frame : x = { setSample 6 (validRecord s 6 status v) s with links := x.links, lines := x.lines } := by
    rw [← told]
    split
    · rfl
    · exact noticeField_frame ..
  have notices : ∀ p : Fin 3, x.links.notices[p][clsField] = (if (sample s 6).state = .valid then s.links.notices[p][clsField]
      else addOccurrence (.field 6 .valid) s.links.notices[p][clsField]) ∧
      x.links.notices[p][clsHolder] = s.links.notices[p][clsHolder] := fun p => by
    rw [← told]
    by_cases valid : (sample s 6).state = .valid
    · simp only [if_pos valid]
      exact ⟨rfl, rfl⟩
    · simp only [if_neg valid]
      obtain ⟨⟨-, -, others⟩, -, each⟩ := noticeField_told 6 (validRecord s 6 status v) .valid s
      exact ⟨each p, others p _ (by decide)⟩
  have record : x.field.channels = s.field.channels ∧ sample x 6 = validRecord s 6 status v := by
    rw [frame]
    exact ⟨rfl, Vector.getElem_set_self ..⟩
  have bandX : x.band = s.band := by rw [frame]; rfl
  have setX : bandSetInUse x = bandSetInUse s := bandSetInUse_eq (by rw [frame]; rfl)
  have effect : exec (.sampleFrame raw) s = .next (settle (evaluateBand v x)) := by
    rw [execSampleFrame_calm calm parsed, frameValid_inRange usable low high, if_pos rfl, operation_settles calm, taken]
  have kept : x.power = s.power ∧ x.metering = s.metering ∧ x.exports = s.exports ∧ x.contracts = s.contracts ∧
      x.store = s.store ∧ x.settlement = s.settlement ∧ x.allocator = s.allocator ∧ x.supervisor = s.supervisor := by
    rw [frame]
    exact ⟨rfl, rfl, rfl, rfl, rfl, rfl, rfl, rfl⟩
  obtain ⟨power, metering, exports, contracts, store, settlement, allocator, supervisor⟩ := kept
  have quiet : settle x = x := settle_quiet calm (by rw [allocator])
  rw [evaluateBand, setX, bandX] at effect
  have next : nextBand (bandSetInUse s) s.band v =
      (if bandCode s.band < bandCode (bandOf (bandSetInUse s) v) then bandOf (bandSetInUse s) v
        else if bandCode (bandOf (bandSetInUse s) (v + (bandSetInUse s).hysteresis)) < bandCode s.band then
          bandOf (bandSetInUse s) (v + (bandSetInUse s).hysteresis)
        else s.band) := rfl
  rw [← next]
  generalize nextBand (bandSetInUse s) s.band v = new at *
  clear frame told taken next
  by_cases stays : new = s.band
  · rw [if_pos stays, quiet] at effect
    refine ⟨x, effect, bandX.trans stays.symm, record.2, fun p => (notices p).1, fun _ => ⟨allocator, supervisor, settlement,
      fun p => (notices p).2⟩, fun moves => absurd bandX moves, fun was moves => absurd (bandX.trans was) moves, power, record.1,
      metering, exports, contracts, store, by rw [SettlementKept, settlement]⟩
  · rw [if_neg stays] at effect
    obtain ⟨t, settled, outside, field, holder, resultBand, timeBase, dark⟩ :=
      changeBand_settled (by rw [store]; exact calm.2.1) (by rw [allocator]; exact calm.2.2) new
    rw [settled] at effect
    obtain ⟨powerT, -, fieldT, meteringT, bandT, exportsT, contractsT, storeT, -, -, settlementT, -⟩ := outside
    have fieldX : t.field = x.field := fieldT
    have band : t.band = new := bandT
    refine ⟨t, effect, band, ?_, fun p => (field p).trans (notices p).1, fun same => absurd (band.symm.trans same) stays,
      fun _ => ⟨resultBand.trans band.symm, timeBase.trans (by rw [allocator]), fun p => ?_⟩,
      fun _ leaves => dark (by rw [← band]; exact leaves), powerT.trans power, ?_, meteringT.trans metering,
      exportsT.trans exports, contractsT.trans contracts, storeT.trans store, ?_⟩
    · rw [sample, fieldX]
      exact record.2
    · rw [holder, (notices p).2, bandX, band]
    · rw [fieldX]
      exact record.1
    · rw [SettlementKept, settlementT]
      show ({ x.settlement with openRecord := none } : Settlement) = _
      rw [settlement]

end Sys2Proof.Proofs.Level
end

section
/-! Frames that reach no block, and requests refused before their block (10-2, 10-3). -/

namespace Sys2Proof.Proofs.Refusals

open Sys2Proof Sys2Proof.Machine Sys2Proof.Proofs.OwnerRequests

variable {s : State} {f : Frame}

/-! ## A request and its port (R178) -/

theorem takes_eq_true (runs : s.power.running = true) {p : Party} (free : portBusy s p = false) : takes s p = true := by
  rw [takes, runs, free]
  rfl

theorem takes_eq_false {p : Party} (deaf : s.power.running = false ∨ s.links.ports[partyIndex p] ≠ none) :
    takes s p = false := by
  unfold takes portBusy
  rcases deaf with stopped | busy
  · rw [stopped]
    rfl
  · rw [Option.isSome_iff_ne_none.2 busy]
    exact Bool.and_false _

/-- A command that a frame carries does nothing where the frame is not taken. -/
theorem encoded_not_taken {i : Instr} {body : List Byte} (encoded : encodeBody i = some (f, body))
    (deaf : takes s f.party = false) : exec i s = .next s := by
  cases i
  case write g name v =>
    obtain ⟨rfl, -⟩ := Prod.mk.inj (Option.some.inj encoded)
    show execWrite g name v s = _
    unfold execWrite
    split <;> exact request_not_taken deaf ..
  case propose g items =>
    obtain ⟨rfl, -⟩ := Prod.mk.inj (Option.some.inj encoded)
    show execPropose g items s = _
    unfold execPropose
    split <;> exact request_not_taken deaf ..
  case queryContractItem g name =>
    obtain ⟨rfl, -⟩ := Prod.mk.inj (Option.some.inj encoded)
    show execQueryContractItem g name s = _
    unfold execQueryContractItem
    split <;> exact request_not_taken deaf ..
  case pulseArrival | zeroFlowExpiry | sampleFrame | freshnessExpiry | allocationPeriodExpiry | purgeExpiry | overdrawMaskExpiry
    | lineLowMaskExpiry | passingMaskExpiry | lowDrawTimerExpiry | recoveryDelayExpiry | proposalExpiry | regularBoundary
    | scrubRead | startUpOperation | supplyFall | resetAssertion | unknownRequest | badFrame | busyPortFrame | responseSent
    | storeWordError | backupSupplyLoss => exact nomatch encoded
  all_goals
    obtain ⟨rfl, -⟩ := Prod.mk.inj (Option.some.inj encoded)
    simp only [exec, execStart, execStop, execClear, execFuelBackup, execFuelGas, execNominate, execSchedule, execWriteIdentity,
      execConcur, execReject, execWithdraw, execWriteClock, execTrim, execArchive, execCursorOldest,
      execCursorNewest, execCursorNumber, execQuerySampleChannel, execQueryPulseChannel, execQueryConsumer,
      execQueryHolder, execQueryAllocation, execQueryTotals, execQueryExportSchedule, execQueryProposalTable,
      execQueryClock, execQueryIntegrityReport, execQueryIdentity, execMask, execNotice, consumerRequest, queryRequest]
    exact request_not_taken deaf ..

theorem unknownStatus_eq (code : Nat) : unknownStatus code = if code ∈ knownCodes then .outOfRange else .unknown := by
  unfold unknownStatus
  simp only [List.contains_iff_mem]

/-- Settles O7: one taken frame in every block's entry, and five commands with at most one effect. -/
theorem framesThatReachNoBlock : Obligations.FramesThatReachNoBlock := by
  unfold Obligations.FramesThatReachNoBlock
  refine ⟨fun i f body s encoded deaf => encoded_not_taken encoded (takes_eq_false deaf),
    fun f code selector s runs free calm => ?_, fun p raw s => ⟨rfl, rfl⟩, fun raw s bad => ?_, fun p s => rfl⟩
  · show execUnknownRequest f code selector s = _
    have answer : refuse f.party code (unknownStatus code) s =
        respond f.party code (unknownStatus code) (refusalFields code f.party s) s := by
      rcases calm with ⟨-, clean, idle⟩ | bare
      · exact refuse_calm clean idle ..
      · rw [refuse_bare bare, refusalFields, if_neg bare.1, if_neg bare.2]
    rw [execUnknownRequest, if_pos (takes_eq_true runs free), answer, unknownStatus_eq]
    rfl
  · show execSampleFrame raw s = _
    rw [execSampleFrame, bad]

/-! ## Refusals of decoding (R179) -/

/-- A request that decoding refuses, of a code whose refusals carry no field. -/
theorem request_outOfRange (runs : s.power.running = true) (free : portBusy s f.party = false) {code length : Nat} {d : Bool}
    (bad : f.length ≠ length ∨ d = false) (bare : code ≠ codeSchedule ∧ code ≠ codeCursor) (run : State → State) :
    request f code length d run s = .next (respond f.party code .outOfRange [] s) := by
  rw [request_refused (takes_eq_true runs free) bad, refuse_bare bare]

/-- SCHEDULE and CURSOR carry the count and the cursor in their refusals too (R192). -/
theorem request_outOfRange_calm (calm : Calm s) (free : portBusy s f.party = false) {length : Nat} {d : Bool}
    (bad : f.length ≠ length ∨ d = false) (code : Nat) (run : State → State) :
    request f code length d run s = .next (respond f.party code .outOfRange (refusalFields code f.party s) s) := by
  obtain ⟨runs, clean, idle⟩ := calm
  rw [request_refused (takes_eq_true runs free) bad, refuse_calm clean idle]

theorem decide_lt_false {n m : Nat} (h : m ≤ n) : decide (n < m) = false := decide_eq_false (Nat.not_lt.2 h)

section
variable (runs : s.power.running = true) (free : portBusy s f.party = false)
include runs free

theorem consumerRequest_outOfRange {c code : Nat} (bad : f.length ≠ 2 ∨ 8 ≤ c) (bare : code ≠ codeSchedule ∧ code ≠ codeCursor)
    (reads : State → Fin 8 → List Thing) (body : Fin 8 → State → State)
    (answer : Fin 8 → State → State → Status × List Field) :
    consumerRequest f code c reads body answer s = .next (respond f.party code .outOfRange [] s) :=
  request_outOfRange runs free (bad.imp_right decide_lt_false) bare _

theorem queryRequest_outOfRange {index instances : Nat} (bad : f.length ≠ 3 ∨ instances ≤ index) (reads : State → List Thing)
    (fields : State → List Field) :
    queryRequest f index instances reads fields s = .next (respond f.party codeQuery .outOfRange [] s) :=
  request_outOfRange runs free (bad.imp_right decide_lt_false) (by decide) _

theorem execWrite_outOfRange {name : ItemName} (bad : f.length ≠ 8 ∨ resolveName name = none) (v : Int) :
    execWrite f name v s = .next (respond f.party codeWrite .outOfRange [] s) := by
  unfold execWrite
  split
  · exact request_outOfRange runs free (.inr rfl) (by decide) _
  next named =>
    refine request_outOfRange runs free (.inl (bad.resolve_right ?_)) (by decide) _
    rw [named]
    nofun

theorem execQueryContractItem_outOfRange {name : ItemName} (bad : f.length ≠ 5 ∨ resolveName name = none) :
    execQueryContractItem f name s = .next (respond f.party codeQuery .outOfRange [] s) := by
  unfold execQueryContractItem
  split
  · exact request_outOfRange runs free (.inr rfl) (by decide) _
  next named =>
    refine request_outOfRange runs free (.inl (bad.resolve_right ?_)) (by decide) _
    rw [named]
    nofun

end

theorem resolveItems_none {items : List (ItemName × Int)} (h : ∃ e ∈ items, resolveName e.1 = none) :
    resolveItems items = none := by
  obtain ⟨e, mem, unnamed⟩ := h
  unfold resolveItems
  induction items with
  | nil => exact absurd mem List.not_mem_nil
  | cons d rest ih =>
    rw [List.mapM_cons]
    rcases List.mem_cons.1 mem with rfl | later
    · rw [unnamed]
      rfl
    · rw [ih later]
      cases (resolveName d.1) <;> rfl

theorem resolveItems_length {items : List (ItemName × Int)} {named : List (ItemRef × Int)}
    (h : resolveItems items = some named) : named.length = items.length := by
  unfold resolveItems at h
  induction items generalizing named with
  | nil => 
    rw [List.mapM_nil] at h
    rw [← Option.some.inj h]
    rfl
  | cons d rest ih =>
    rw [List.mapM_cons] at h
    simp only [Option.bind_eq_bind, Option.bind_eq_some_iff, Option.map_eq_some_iff] at h
    obtain ⟨_, -, tail, taken, made⟩ := h
    rw [← Option.some.inj made, List.length_cons, List.length_cons, ih taken]

theorem execPropose_outOfRange (runs : s.power.running = true) (free : portBusy s f.party = false)
    {items : List (ItemName × Int)} (bad : f.length ≠ 2 + 7 * items.length ∨ ∃ e ∈ items, resolveName e.1 = none) :
    execPropose f items s = .next (respond f.party codePropose .outOfRange [] s) := by
  unfold execPropose
  split
  · exact request_outOfRange (code := codePropose) runs free (.inr rfl) (by decide) _
  next named =>
    refine request_outOfRange (code := codePropose) runs free (.inl ?_) (by decide) _
    rw [resolveItems_length named]
    refine bad.resolve_right fun unnamed => ?_
    rw [resolveItems_none unnamed] at named
    exact nomatch named

/-! ## Requests of another owner or party (R180) -/

theorem consumerRequest_notOwner (calm : Calm s) (free : portBusy s f.party = false) {c : Fin 8}
    (other : ownerOf s c ≠ f.party) (length : f.length = 2) (code : Nat) (reads : State → Fin 8 → List Thing)
    (body : Fin 8 → State → State) (answer : Fin 8 → State → State → Status × List Field) :
    consumerRequest f code c reads body answer s = .next (respond f.party code .notOwner [stateField s c] s) := by
  obtain ⟨runs, clean, idle⟩ := calm
  rw [consumerRequest, decide_eq_true c.isLt, request_taken (length := lenConsumer) runs ⟨free, length⟩, slotOf_val,
    ownerRequest_notOwner clean idle other]

/-- Settles O6: refusals of decoding, of SCHEDULE from a party without the right, and of requests that are not the owner's. -/
theorem requestsRefusedBeforeTheirBlock : Obligations.RequestsRefusedBeforeTheirBlock := by
  unfold Obligations.RequestsRefusedBeforeTheirBlock
  refine ⟨fun f c rate index classes name v s runs free => ?_, fun f items chars d start kw time number s runs free => ?_,
    fun s f c rate calm free other => ?_⟩
  · refine ⟨fun bad => ?_, fun bad => ?_, fun bad => ?_, fun bad => ?_, fun bad => ?_, fun bad => ?_, fun bad => execWrite_outOfRange runs free bad v,
      execQueryContractItem_outOfRange runs free, fun bad => ?_⟩
    · have refused := fun code bare => @consumerRequest_outOfRange s f runs free c code bad bare
      simp only [List.forall_mem_cons, List.not_mem_nil, false_implies, implies_true, and_true, exec, execStart, execStop,
        execClear, execFuelBackup, execFuelGas]
      exact ⟨refused codeStart (by decide) .., refused codeStop (by decide) .., refused codeClear (by decide) ..,
        refused codeFuelBackup (by decide) .., refused codeFuelGas (by decide) ..⟩
    · simp only [exec, execNominate]
      exact request_outOfRange (code := codeNominate) runs free (bad.imp_right decide_lt_false) (by decide) _
    · have refused := fun reads fields => @queryRequest_outOfRange s f runs free index 1 bad reads fields
      simp only [List.forall_mem_cons, List.not_mem_nil, false_implies, implies_true, and_true, exec, execQueryHolder,
        execQueryAllocation, execQueryTotals, execQueryExportSchedule, execQueryProposalTable, execQueryClock,
        execQueryIntegrityReport, execQueryIdentity]
      exact ⟨refused .., refused .., refused .., refused .., refused .., refused .., refused .., refused ..⟩
    · simp only [exec, execQuerySampleChannel]
      exact queryRequest_outOfRange runs free bad ..
    · simp only [exec, execQueryPulseChannel]
      exact queryRequest_outOfRange runs free bad ..
    · simp only [exec, execQueryConsumer]
      exact queryRequest_outOfRange runs free bad ..
    · simp only [exec, execMask]
      exact request_outOfRange (code := codeMask) runs free (bad.imp_right decide_lt_false) (by decide) _
  · refine ⟨fun calm bad => ?_, fun calm length other => ?_,
      execPropose_outOfRange runs free, fun bad => ?_, fun bad => ?_, fun bad => ?_, fun bad => ?_, fun bad => ⟨?_, ?_⟩,
      fun calm bad => ?_⟩
    · simp only [exec, execSchedule]
      exact request_outOfRange_calm calm free (.inl bad) codeSchedule _
    · obtain ⟨-, clean, idle⟩ := calm
      show execSchedule f start kw s = _
      rw [execSchedule, request_taken (length := lenSchedule) runs ⟨free, length⟩, if_neg other, refuse_calm clean idle]
      rfl
    · have refused := fun code bare => @request_outOfRange s f runs free code 3 true (.inl bad) bare
      simp only [List.forall_mem_cons, List.not_mem_nil, false_implies, implies_true, and_true, exec, execConcur, execReject,
        execWithdraw]
      exact ⟨refused codeConcur (by decide) _, refused codeReject (by decide) _, refused codeWithdraw (by decide) _⟩
    · simp only [exec, execWriteIdentity]
      exact request_outOfRange (code := codeWriteIdentity) runs free (bad.imp_right decide_lt_false) (by decide) _
    · simp only [exec, execWriteClock]
      exact request_outOfRange (code := codeWriteClock) runs free (bad.imp_right decide_lt_false) (by decide) _
    · simp only [exec, execTrim]
      exact request_outOfRange (code := codeTrim) runs free (.inl bad) (by decide) _
    · simp only [exec, execArchive]
      exact request_outOfRange (code := codeArchive) runs free (.inl bad) (by decide) _
    · simp only [exec, execNotice]
      exact request_outOfRange (code := codeNotice) runs free (.inl bad) (by decide) _
    · have refused := @request_outOfRange_calm s f calm free 6 true (.inl bad) codeCursor
      simp only [List.forall_mem_cons, List.not_mem_nil, false_implies, implies_true, and_true, exec, execCursorOldest,
        execCursorNewest, execCursorNumber]
      exact ⟨refused _, refused _, refused _⟩
  · refine ⟨fun length => ?_, fun length => ?_⟩
    · have refused := @consumerRequest_notOwner s f calm free c other length
      simp only [List.forall_mem_cons, List.not_mem_nil, false_implies, implies_true, and_true, exec, execStart, execStop,
        execClear, execFuelBackup, execFuelGas]
      exact ⟨refused .., refused .., refused .., refused .., refused ..⟩
    · obtain ⟨-, clean, idle⟩ := id calm
      show execNominate f c rate s = _
      rw [execNominate, decide_eq_true c.isLt, request_taken (length := lenNominate) calm.1 ⟨free, length⟩, slotOf_val,
        ownerRequest_notOwner clean idle other]

end Sys2Proof.Proofs.Refusals
end

section
/-! The requests of the Contract Unit (7-2, 7-3): WRITE's checks, WRITE IDENTITY, CONCUR and the expiry of an entry. -/

namespace Sys2Proof.Proofs.Agreement

open Sys2Proof Sys2Proof.Machine Sys2Proof.Proofs.Event Sys2Proof.Proofs.Fields Sys2Proof.Proofs.Timers
open Sys2Proof.Proofs.Removal Sys2Proof.Proofs.OwnerRequests

variable {s : State} {f : Frame}

/-! ## A request served in a calm part -/

theorem answered_of_ports {t : State} (ports : t.links.ports = s.links.ports) (p : Party) (code : Nat) (st : Status)
    (fields : List Field) : Answered s (respond p code st fields t) p ⟨code, st, fields⟩ := by
  unfold Answered
  rw [respond_answered, ports]

section
variable (calm : Calm s) {length : Nat} (taken : Taken s f length)
include calm taken

theorem request_served (code : Nat) (reads : State → List Thing) (body : State → State)
    (answer : State → State → Status × List Field) :
    request f code length true (fun s => serve f.party code (reads s) body answer s) s =
      .next (respond f.party code (answer s (settle (body s))).1 (answer s (settle (body s))).2 (settle (body s))) := by
  obtain ⟨running, clean, idle⟩ := calm
  rw [request_taken running taken, serve_calm clean idle]

/-- A refusal changes nothing but the port. -/
theorem request_judged_refused (code : Nat) (reads : State → List Thing) {status : State → Status} {st : Status}
    (body : State → State) {answer : State → State → Status × List Field} {fields : List Field} (status_eq : status s = st)
    (refuses : isRefusing st = true) (answered : answer s s = (st, fields)) :
    request f code length true (fun s => serve f.party code (reads s) (judged status body) answer s) s =
      .next (respond f.party code st fields s) := by
  have unchanged : settle (judged status body s) = s := by
    rw [judged_refused (by rw [status_eq]; exact refuses), settle_idle calm.2.2]
  rw [request_served calm taken, unchanged, answered]

/-- What its status lets pass takes its effect. -/
theorem request_judged_done (code : Nat) (reads : State → List Thing) {status : State → Status} {st : Status}
    {body : State → State} {answer : State → State → Status × List Field} {fields : List Field} (status_eq : status s = st)
    (passes : isRefusing st = false) (answered : answer s (settle (body s)) = (st, fields)) :
    request f code length true (fun s => serve f.party code (reads s) (judged status body) answer s) s =
      .next (respond f.party code st fields (settle (body s))) := by
  rw [request_served calm taken, judged_taken (by rw [status_eq]; exact passes), answered]

end

/-! ## WRITE (R123) -/

theorem mustWait_iff (s : State) (i : Item) (v : Int) : mustWait s (if isStructural i then [(i, v)] else []) = true ↔
    ∃ c, isStructural i = true ∧ itemConsumer i = some c ∧ (consumer s c).state ≠ .off := by
  unfold mustWait
  cases structural : isStructural i
  · simp
  · cases own : itemConsumer i with
    | none => simp [structural, own]
    | some c => simp [structural, own]

/-- The checks 3 to 6, as far as each decides. -/
theorem writeItemStatus_eq (i : Item) (v : Int) (s : State) : writeItemStatus i v s =
    if entryNaming s (.item i) ≠ none then .conflict
    else if itemInRange i v = false then .outOfRange
    else if (∃ c, isStructural i = true ∧ itemConsumer i = some c ∧ (consumer s c).state ≠ .off) ∨
        (i = .intervalLength ∧ s.settlement.clock ≠ none) then .wrongState
    else if consistent (projected s) [(i, v)] = false then .inconsistent
    else .done := by
  simp only [writeItemStatus, mustWait_iff, Option.isSome_iff_ne_none, Bool.not_eq_true']

theorem writeStatus_unlocked (unlocked : s.contracts.locked = false) (i : Item) (v : Int) :
    writeStatus (.item i) v s = writeItemStatus i v s := by
  rw [writeStatus, unlocked]
  rfl

theorem execWrite_refused (calm : Calm s) (taken : Taken s f 8) {name : ItemName} {r : ItemRef} (named : resolveName name = some r)
    {v : Int} {st : Status} (status : writeStatus r v s = st) (refuses : isRefusing st = true) :
    exec (.write f name v) s = .next (respond f.party 0x40 st [] s) := by
  show execWrite f name v s = _
  rw [execWrite, named]
  exact request_judged_refused calm taken codeWrite (writeReads r) (writeBody r v) status refuses (by rw [status])

/-- Settles O33: each alternative of the chain gives the status of the check that it fails first. -/
theorem writeIsRefusedAtItsFirstFailingCheck : Obligations.WriteIsRefusedAtItsFirstFailingCheck := by
  unfold Obligations.WriteIsRefusedAtItsFirstFailingCheck
  intro s f name r v st calm taken named fails
  have refused := fun status => @execWrite_refused s f calm taken name r named v st status
  rcases fails with ⟨locked, rfl⟩ | ⟨unlocked, proposalItem, rfl⟩ | ⟨unlocked, i, rfl, fails⟩
  · exact refused (if_pos locked) rfl
  · refine refused ?_ rfl
    unfold writeStatus
    rw [unlocked]
    rcases proposalItem with rfl | rfl <;> rfl
  · have status := (writeStatus_unlocked unlocked i v).trans (writeItemStatus_eq i v s)
    rcases fails with ⟨carried, rfl⟩ | ⟨free, outside, rfl⟩ | ⟨free, inside, wrong, rfl⟩ |
      ⟨free, inside, off, unset, breaks, rfl⟩
    · exact refused (status.trans (if_pos carried)) rfl
    · exact refused (status.trans (by rw [if_neg (Classical.not_not.2 free), if_pos outside])) rfl
    · exact refused (status.trans (by rw [if_neg (Classical.not_not.2 free), if_neg (by simp [inside]), if_pos wrong])) rfl
    · have right : ¬ ((∃ c, isStructural i = true ∧ itemConsumer i = some c ∧ (consumer s c).state ≠ .off) ∨
          (i = .intervalLength ∧ s.settlement.clock ≠ none)) := by
        rintro (⟨c, structural, own, notOff⟩ | ⟨interval, running⟩)
        · exact notOff (off c structural own)
        · exact running (unset interval)
      exact refused (status.trans
        (by rw [if_neg (Classical.not_not.2 free), if_neg (by simp [inside]), if_neg right, if_pos breaks])) rfl

/-! ## WRITE IDENTITY (R124) -/

theorem nameAllowed_iff (name : List Byte) :
    nameAllowed name = true ↔ name.length ≤ 24 ∧ ∀ b ∈ name, 0x20 ≤ b.toNat ∧ b.toNat ≤ 0x7E := by
  simp [nameAllowed, isPrintable]

theorem writeIdentityStatus_eq (name : List Byte) (s : State) : writeIdentityStatus name s =
    if s.contracts.locked = true then .locked else if nameAllowed name = true then .done else .outOfRange := rfl

theorem execWriteIdentity_refused (calm : Calm s) {name : List Byte} (taken : Taken s f (6 + name.length)) {code : Nat}
    (fits : code < 4294967296) {st : Status} (status : writeIdentityStatus name s = st) (refuses : isRefusing st = true) :
    exec (.writeIdentity f code name) s = .next (respond f.party 0x42 st [] s) := by
  show execWriteIdentity f code name s = _
  rw [execWriteIdentity, decide_eq_true fits]
  exact request_judged_refused calm taken codeWriteIdentity (fun _ => [.commissioning]) _ status refuses (by rw [status])

/-- Settles O34: LOCKED first, then the name, then both fields at once. -/
theorem writeIdentityReplacesBothFields : Obligations.WriteIdentityReplacesBothFields := by
  unfold Obligations.WriteIdentityReplacesBothFields
  intro s f code name calm taken fits
  have status := writeIdentityStatus_eq name s
  refine ⟨fun locked => execWriteIdentity_refused calm taken fits (status.trans (if_pos locked)) rfl,
    fun unlocked short printable => ?_, fun unlocked bad => ?_⟩
  · have done : writeIdentityStatus name s = .done := by
      rw [status, if_neg (by simp [unlocked]), if_pos ((nameAllowed_iff name).2 ⟨short, printable⟩)]
    have set : settle (setIdentity code name s) =
        { s with contracts := { s.contracts with siteCode := code, siteName := name } } := by
      rw [setIdentity_clean calm.2.1]
      exact settle_quiet calm rfl
    have effect := request_judged_done calm taken codeWriteIdentity (fun _ => [.commissioning]) (body := setIdentity code name)
      (status := writeIdentityStatus name) (answer := fun before _ => (writeIdentityStatus name before, [])) done rfl
      (by rw [done])
    rw [set] at effect
    show execWriteIdentity f code name s = _
    rw [execWriteIdentity, decide_eq_true fits]
    exact effect
  · refine execWriteIdentity_refused calm taken fits (st := .outOfRange) ?_ rfl
    rw [status, if_neg (by simp [unlocked]), if_neg fun allowed => ?_]
    obtain ⟨short, printable⟩ := (nameAllowed_iff name).1 allowed
    rcases bad with long | ⟨b, mem, low | high⟩
    · omega
    · have := printable b mem
      omega
    · have := printable b mem
      omega

/-! ## The expiry of an entry (R130) -/

theorem proposalDue_iff {number : Nat} {e : Proposal} (found : entryOf s number = some e) : proposalDue s number = true ↔
    e.staged = false ∧ ∃ t, e.expiry = some t ∧ t ≤ s.contracts.base := by
  unfold proposalDue
  rw [found]
  cases expiry : e.expiry <;> simp [expiry]

/-- Settles O39: an OPEN entry that has run its time goes, and no other does. -/
theorem proposalExpiryRemovesAnOpenEntry : Obligations.ProposalExpiryRemovesAnOpenEntry := by
  unfold Obligations.ProposalExpiryRemovesAnOpenEntry
  intro s number due e calm found
  refine ⟨fun isOpen expiry ran => ?_, fun waits => ?_⟩
  · have falls : proposalDue s number = true := (proposalDue_iff found).2 ⟨isOpen, due, expiry, ran⟩
    have body : takeExpiry number s = dropEntry number .expired s := if_pos falls
    have quiet : (takeExpiry number s).allocator.triggers = s.allocator.triggers := by
      rw [body, dropEntry_found found, endEntry_allocator]
    show execProposalExpiry number s = _
    rw [execProposalExpiry, calm.1, falls, Bool.and_self, if_pos rfl, operation_quiet calm quiet, body, dropEntry_clean calm.2.1 found]
  · have never : proposalDue s number = false := by
      refine Bool.eq_false_iff.2 fun falls => ?_
      obtain ⟨isOpen, time, expiry, ran⟩ := (proposalDue_iff found).1 falls
      rcases waits with staged | ⟨set, early⟩
      · exact Bool.noConfusion (isOpen.symm.trans staged)
      · rw [set] at expiry
        exact Nat.not_le.2 early (Option.some.inj expiry ▸ ran)
    show execProposalExpiry number s = _
    rw [execProposalExpiry, never, Bool.and_false, if_neg Bool.false_ne_true]

/-! ## CONCUR (R128, R136) -/

theorem execConcur_calm (calm : Calm s) (taken : Taken s f 3) (number : Nat) : exec (.concur f number) s =
    .next (respond f.party 0x31
      (concurAnswer f.party number s (settle (judged (concurStatus f.party number) (concurBody f.party number) s))).1
      (concurAnswer f.party number s (settle (judged (concurStatus f.party number) (concurBody f.party number) s))).2
      (settle (judged (concurStatus f.party number) (concurBody f.party number) s))) := by
  obtain ⟨running, clean, idle⟩ := calm
  show execConcur f number s = _
  rw [execConcur, request_taken (length := lenProposal) running taken, readAll_clean clean, settle_idle idle,
    serve_calm clean idle]

theorem execConcur_refused (calm : Calm s) (taken : Taken s f 3) {number : Nat} {st : Status}
    (status : concurStatus f.party number s = st) (refuses : isRefusing st = true) :
    exec (.concur f number) s = .next (respond f.party 0x31 st [] s) := by
  have answer : concurAnswer f.party number s s = (st, []) := by
    unfold concurAnswer
    rw [status]
    split
    next => exact nomatch refuses
    next => rfl
  have unchanged : settle (judged (concurStatus f.party number) (concurBody f.party number) s) = s := by
    rw [judged_refused (by rw [status]; exact refuses), settle_idle calm.2.2]
  rw [execConcur_calm calm taken, unchanged, answer]

section
variable {number : Nat} {e : Proposal} (found : entryOf s number = some e)
include found

theorem concurStatus_party {p : Party} (inside : hasParty e.parties p = true) : concurStatus p number s = .done := by
  simp [concurStatus, found, inside]

theorem concurAnswer_party {p : Party} (inside : hasParty e.parties p = true) (after : State) :
    concurAnswer p number s after = (.done, [.u8 (entryStateCode number e.items s after)]) := by
  simp [concurAnswer, concurStatus_party found inside, found]

theorem execConcur_done (calm : Calm s) (taken : Taken s f 3) (inside : hasParty e.parties f.party = true) :
    exec (.concur f number) s = .next (respond f.party 0x31 .done
      [.u8 (entryStateCode number e.items s (settle (concurBody f.party number s)))] (settle (concurBody f.party number s))) := by
  rw [execConcur_calm calm taken, judged_taken (by rw [concurStatus_party found inside]; rfl), concurAnswer_party found inside]

/-- The table with the entry of a number changed still holds it, changed. -/
theorem entryOf_mapped {t : State} {g : Proposal → Proposal} (same : ∀ x, (g x).number = x.number)
    (proposals : t.contracts.proposals = s.contracts.proposals.map fun x => if x.number = number then g x else x) :
    entryOf t number = some (g e) := by
  have carries := number_of_entryOf found
  unfold entryOf at found ⊢
  rw [proposals, List.find?_map]
  have keeps : ((fun x : Proposal => x.number == number) ∘ fun x => if x.number = number then g x else x) =
      fun x => x.number == number := by
    funext x
    simp only [Function.comp]
    split
    · rw [same]
    · rfl
  rw [keeps, found, Option.map_some, if_pos carries]

end

theorem changeEntry_clean (clean : s.store.errors = []) (number : Nat) (g : Proposal → Proposal) :
    changeEntry number g s = { s with contracts := { s.contracts with
      proposals := s.contracts.proposals.map fun x => if x.number = number then g x else x } } := by
  unfold changeEntry
  rw [setProposals_clean clean]
  simp only [beq_iff_eq]

theorem entryStateCode_of_entry {number : Nat} {t : State} {e : Proposal} (held : entryOf t number = some e)
    (items : List (ItemRef × Int)) (before : State) :
    entryStateCode number items before t = if e.staged = true then 1 else 0 := by
  simp only [entryStateCode, held]

/-- An entry of contract items alone completes by waiting STAGED. -/
theorem completeEntry_ordinary {e : Proposal} (ordinary : ∀ x ∈ e.items, x.1 ≠ .offset ∧ x.1 ≠ .lock) (s : State) :
    completeEntry e s = noticeProposal e .staged (changeEntry e.number stagedEntry s) := by
  unfold completeEntry
  split
  next v is => exact absurd rfl (ordinary (.lock, v) (by rw [is]; exact List.mem_singleton_self _)).2
  next d is => exact absurd rfl (ordinary (.offset, d) (by rw [is]; exact List.mem_singleton_self _)).1
  next => rfl

theorem filter_changed {number : Nat} {g : Proposal → Proposal} (same : ∀ x, (g x).number = x.number) (l : List Proposal) :
    (l.map fun x => if x.number = number then g x else x).filter (·.number != number) = l.filter (·.number != number) := by
  induction l with
  | nil => rfl
  | cons x rest ih =>
    rw [List.map_cons, List.filter_cons, List.filter_cons, ih]
    by_cases is : x.number = number
    · rw [if_pos is, same, is]
      simp
    · rw [if_neg is]

/-- The state that a completed lock entry leaves (R136). -/
def lockedState (e : Proposal) (s : State) : State :=
  { s with contracts := { s.contracts with
      proposals := s.contracts.proposals.filter (·.number != e.number), locked := true
      revision := (s.contracts.revision + 1) % 4294967296 } }

theorem lockContract_clean (clean : s.store.errors = []) (e : Proposal) : lockContract e s =
    { noticeProposal e .applied (lockedState e s) with settlement := { s.settlement with
        openRecord := s.settlement.openRecord.map fun o => { o with contractChanged := true } } } := by
  have locked : endEntry e .applied (bumpRevision (setLocked true s)) = noticeProposal e .applied (lockedState e s) := by
    rw [endEntry, setLocked_clean clean, bumpRevision_clean (by exact clean), removeEntry_clean (by exact clean)]
    rfl
  have cleanAfter : (noticeProposal e .applied (lockedState e s)).store.errors = [] := by
    rw [noticeProposal_store]
    exact clean
  have settlement : (noticeProposal e .applied (lockedState e s)).settlement = s.settlement := noticeProposal_settlement ..
  rw [lockContract, locked, markContractChanged, onOpen_clean cleanAfter, settlement]

theorem entryOf_removed {number : Nat} {t : State} {l : List Proposal}
    (proposals : t.contracts.proposals = l.filter (·.number != number)) : entryOf t number = none := by
  unfold entryOf
  rw [proposals, List.find?_eq_none]
  intro x mem is
  have other := (List.mem_filter.1 mem).2
  simp only [bne_iff_ne] at other
  exact other (beq_iff_eq.1 is)

/-- The contract locked, the lock entry gone (R136). -/
def lockApplied (number : Nat) (s : State) : State :=
  { s with contracts := { s.contracts with
      proposals := s.contracts.proposals.filter (·.number != number), locked := true
      revision := (s.contracts.revision + 1) % 4294967296 } }

theorem concurBody_lock (clean : s.store.errors = []) {number : Nat} {e : Proposal} (found : entryOf s number = some e)
    {p : Party} (fresh : hasParty e.concurred p = false) (full : addParty e.concurred p = e.parties) {v : Int}
    (lock : e.items = [(.lock, v)]) : concurBody p number s =
      { noticeProposal (concurredEntry p e) .applied (lockApplied number s) with settlement := { s.settlement with
          openRecord := s.settlement.openRecord.map fun o => { o with contractChanged := true } } } := by
  have items : (concurredEntry p e).items = [(.lock, v)] := lock
  have completes : completeEntry (concurredEntry p e) = lockContract (concurredEntry p e) := by
    funext x
    rw [completeEntry, items]
  have carries : (concurredEntry p e).number = number := by
    show e.number = number
    exact number_of_entryOf found
  have body : concurBody p number s = lockContract (concurredEntry p e) (changeEntry number (concurredEntry p) s) := by
    rw [← completes]
    simp [concurBody, found, fresh, concurredEntry, full]
  have rest := filter_changed (number := number) (g := concurredEntry p) (fun _ => rfl) s.contracts.proposals
  have table : lockedState (concurredEntry p e) { s with contracts := { s.contracts with
        proposals := s.contracts.proposals.map fun x => if x.number = number then concurredEntry p x else x } } =
      lockApplied number s := by
    simp only [lockedState, lockApplied, carries, rest]
  rw [body, changeEntry_clean clean, lockContract_clean (by exact clean), table]

theorem noticeProposal_leaves (e : Proposal) (o : Outcome) (s : State) :
    noticeProposal e o s = { s with links := (noticeProposal e o s).links, lines := (noticeProposal e o s).lines } ∧
    (noticeProposal e o s).links.ports = s.links.ports ∧ PermissivesKept s (noticeProposal e o s) ∧
    ∀ p : Party, (noticeProposal e o s).links.notices[partyIndex p][clsProposal] =
      if hasParty (addParty e.parties e.proposer) p then
        addOccurrence (.proposal e.number o) s.links.notices[partyIndex p][clsProposal]
      else s.links.notices[partyIndex p][clsProposal] := by
  refine ⟨?_, ?_, raiseNotice_permissives .., fun p => ?_⟩
  · have frame := raiseNotice_frame (addParty e.parties e.proposer) clsProposal (.proposal e.number o) s
    generalize told : noticeProposal e o s = t
    rw [show raiseNotice (addParty e.parties e.proposer) clsProposal (.proposal e.number o) s = t from told] at frame
    generalize t.links.notices = n at frame
    generalize t.lines.attn = a at frame
    subst frame
    rfl
  · exact (raiseNotice_otherNotices ..).1
  · rw [noticeProposal, notices_raiseNotice]
    simp only [and_true]

/-- Settles O36: the two refusals, and each way of joining. -/
theorem concurJoinsAndCompletes : Obligations.ConcurJoinsAndCompletes := by
  unfold Obligations.ConcurJoinsAndCompletes
  intro s f number calm taken
  obtain ⟨-, clean, idle⟩ := id calm
  refine ⟨fun missing => ?_, fun e found => ⟨fun outside => ?_, fun inside already => ?_, fun inside fresh part => ?_,
    fun inside fresh full ordinary => ?_, fun v inside fresh full lock => ?_⟩⟩
  · exact execConcur_refused calm taken (by simp [concurStatus, missing]) rfl
  · exact execConcur_refused calm taken (by simp [concurStatus, found, outside]) rfl
  · have body : concurBody f.party number s = s := by simp [concurBody, found, already]
    rw [execConcur_done found calm taken inside, body, settle_idle idle, entryStateCode_of_entry found]
  · have body : concurBody f.party number s = changeEntry number (concurredEntry f.party) s := by
      simp [concurBody, found, fresh, concurredEntry, part]
    have changed := changeEntry_clean clean number (concurredEntry f.party)
    have quiet : settle (concurBody f.party number s) = concurBody f.party number s :=
      settle_quiet calm (by rw [body, changed])
    have held := entryOf_mapped found (g := concurredEntry f.party) (t := concurBody f.party number s) (fun _ => rfl)
      (by rw [body, changed])
    rw [execConcur_done found calm taken inside, quiet, entryStateCode_of_entry held, body, changed]
    rfl
  · have whole : concurBody f.party number s =
        completeEntry (concurredEntry f.party e) (changeEntry number (concurredEntry f.party) s) := by
      simp [concurBody, found, fresh, concurredEntry, full]
    have carries : (concurredEntry f.party e).number = number := by
      show e.number = number
      exact number_of_entryOf found
    have body : concurBody f.party number s = raiseNotice (addParty e.parties e.proposer) clsProposal (.proposal number .staged)
        { s with contracts := { s.contracts with proposals := s.contracts.proposals.map fun x =>
          if x.number = number then
            { x with concurred := addParty x.concurred f.party, staged := true, expiry := none, deferred := false }
          else x } } := by
      rw [whole, completeEntry_ordinary (e := concurredEntry f.party e) ordinary, noticeProposal, carries, changeEntry_clean clean,
        changeEntry_clean (by exact clean), List.map_map]
      refine congrArg (fun l => raiseNotice _ _ _ { s with contracts := { s.contracts with proposals := l } })
        (List.map_congr_left fun x _ => ?_)
      simp only [Function.comp]
      split
      next same => exact if_pos same
      next other => rfl
    have quiet : settle (concurBody f.party number s) = concurBody f.party number s :=
      settle_quiet calm (by rw [body, raiseNotice_allocator])
    have held := entryOf_mapped found (t := concurBody f.party number s)
      (g := fun x => { x with concurred := addParty x.concurred f.party, staged := true, expiry := none, deferred := false })
      (fun _ => rfl) (by rw [body, raiseNotice_contracts])
    rw [execConcur_done found calm taken inside, quiet, entryStateCode_of_entry held, body]
    rfl
  · have body := concurBody_lock clean found fresh full lock
    have told := noticeProposal_leaves (concurredEntry f.party e) .applied (lockApplied number s)
    have carries : (concurredEntry f.party e).number = number := by
      show e.number = number
      exact number_of_entryOf found
    generalize noticeProposal (concurredEntry f.party e) .applied (lockApplied number s) = x at told body
    obtain ⟨frame, ports, permissives, notices⟩ := told
    rw [carries] at notices
    have removed : entryOf (concurBody f.party number s) number = none :=
      entryOf_removed (l := s.contracts.proposals) (by rw [body, frame]; rfl)
    have quiet : settle (concurBody f.party number s) = concurBody f.party number s :=
      settle_quiet calm (by rw [body, frame]; rfl)
    have code : entryStateCode number e.items s (concurBody f.party number s) = 2 := by
      simp only [entryStateCode, removed, lock]
    refine ⟨_, execConcur_done found calm taken inside, ?_⟩
    rw [quiet, code, body]
    refine ⟨answered_of_ports ports .., ?_, rfl, notices, ?_⟩
    · show x.contracts = _
      rw [frame]
      rfl
    · rw [frame]
      exact ⟨rfl, rfl, rfl, rfl, rfl, rfl, rfl, rfl, permissives⟩

end Sys2Proof.Proofs.Agreement
end

section
/-! PROPOSE (R126, R127): the nine checks in their order, and the entry that passes them. -/

namespace Sys2Proof.Proofs.Proposing

open Sys2Proof Sys2Proof.Machine Sys2Proof.Proofs.Event Sys2Proof.Proofs.Fields Sys2Proof.Proofs.Timers
open Sys2Proof.Proofs.Agreement

variable {s : State} {f : Frame} {items : List (ItemRef × Int)} {p : Party}

/-! ## The first check that fails (R127) -/

/-- The status of the first of nine checks that fails, and DONE where none does. -/
def firstRefusal (passes : Fin 9 → Bool) (l : List (Fin 9)) : Status :=
  l.foldr (fun k rest => if passes k = true then rest else proposeRefusal k) .done

theorem firstRefusal_of_first {passes : Fin 9 → Bool} {k : Fin 9} (before : ∀ j, j < k → passes j = true)
    (fails : passes k = false) : firstRefusal passes (List.finRange 9) = proposeRefusal k := by
  have split : ∀ k : Fin 9, List.finRange 9 = (List.finRange 9).take k ++ k :: (List.finRange 9).drop (k + 1) := by decide
  have below : ∀ k : Fin 9, ∀ j ∈ (List.finRange 9).take k, j < k := by decide
  have front : ∀ l : List (Fin 9), (∀ j ∈ l, passes j = true) → ∀ rest, firstRefusal passes (l ++ rest) = firstRefusal passes rest := by
    intro l all rest
    induction l with
    | nil => rfl
    | cons j l ih =>
      have first := all j List.mem_cons_self
      exact (if_pos first).trans (ih fun i mem => all i (List.mem_cons_of_mem _ mem))
  rw [split k, front _ fun j mem => before j (below k j mem)]
  exact if_neg (by simp [fails])

theorem firstRefusal_of_all {passes : Fin 9 → Bool} (all : ∀ k, passes k = true) (l : List (Fin 9)) :
    firstRefusal passes l = .done := by
  induction l with
  | nil => rfl
  | cons k l ih => exact (if_pos (all k)).trans ih

theorem listAllowed_eq (items : List (ItemRef × Int)) (p : Party) (s : State) : listAllowed items = passesCheck p items s 0 := by
  have ordinary : ∀ r : ItemRef, isProposalItem r = false ↔ r ≠ .offset ∧ r ≠ .lock := fun r => by
    cases r <;> simp [isProposalItem]
  rw [Bool.eq_iff_iff]
  simp [listAllowed, passesCheck, ordinary, and_assoc]

theorem any_false_iff {q : ItemRef × Int → Bool} : items.any q = false ↔ ∀ e ∈ items, q e = false := by
  simp

theorem proposeStatus_eq (p : Party) (items : List (ItemRef × Int)) (s : State) :
    proposeStatus p items s = firstRefusal (passesCheck p items s) (List.finRange 9) := by
  have clock : (items.any (·.1 == .offset) = true ∧ s.settlement.clock = none) ↔ ¬ passesCheck p items s 2 = true := by
    simp [passesCheck]
  have named : items.any (fun e => (entryNaming s e.1).isSome) = true ↔ ¬ passesCheck p items s 3 = true := by
    simp [passesCheck, Option.isSome_iff_ne_none]
  have full : 8 ≤ s.contracts.proposals.length ↔ ¬ passesCheck p items s 4 = true := by simp [passesCheck]
  have locked : (items.any (fun e => isWriteOnlyRef e.1) = true ∧ s.contracts.locked = true) ↔
      ¬ passesCheck p items s 7 = true := by
    simp [passesCheck, and_comm]
  have wrong : (items.any (fun e => isWriteOnlyRef e.1) = true ∨ (items.any (·.1 == .lock) = true ∧ s.contracts.locked = true)) ↔
      ¬ passesCheck p items s 8 = true := by
    have writeOnly : items.any (fun e => isWriteOnlyRef e.1) = true ↔ ¬ ∀ e ∈ items, isWriteOnlyRef e.1 = false := by
      rw [← any_false_iff, Bool.not_eq_false]
    have locks : items.any (·.1 == .lock) = true ↔ ¬ ∀ e ∈ items, e.1 ≠ .lock := by simp
    simp only [passesCheck, decide_eq_true_eq]
    rw [writeOnly, locks, Classical.not_and_iff_not_or_not, Classical.not_imp, and_comm]
  have order : List.finRange 9 = [0, 1, 2, 3, 4, 5, 6, 7, 8] := by decide
  unfold proposeStatus
  simp only [clock, named, full, locked, wrong, listAllowed_eq items p s, Bool.not_eq_true', ← Bool.not_eq_true]
  rw [order]
  simp only [firstRefusal, List.foldr, ite_not]
  rfl

theorem exec_propose {names : List (ItemName × Int)} (named : resolveItems names = some items) :
    exec (.propose f names) s = request f codePropose (lenPropose names.length) true
      (fun s => serve f.party codePropose (proposeReads items s)
        (judged (proposeStatus f.party items) (proposeBody f.party items)) (proposeAnswer f.party items) s) s := by
  show execPropose f names s = _
  rw [execPropose, named, ← Refusals.resolveItems_length named]

theorem proposeRefusal_refuses (k : Fin 9) : isRefusing (proposeRefusal k) = true := by
  revert k
  decide

theorem proposeAnswer_refused {st : Status} (status : proposeStatus p items s = st) (refuses : isRefusing st = true)
    (after : State) : proposeAnswer p items s after = (st, []) := by
  unfold proposeAnswer
  rw [status]
  split
  next => exact nomatch refuses
  next => rfl

/-! ## The set of an entry (R119) -/

theorem hasParty_entrySet (k : Contract) (items : List (ItemRef × Int)) (p : Party) :
    hasParty (entrySet k items) p = items.any fun e => hasParty (refSet k e.1) p := by
  have fold : ∀ (l : List (ItemRef × Int)) (ps : PartySet),
      hasParty (l.foldl (fun ps e => unionParties ps (refSet k e.1)) ps) p =
        (hasParty ps p || l.any fun e => hasParty (refSet k e.1) p) := by
    intro l
    induction l with
    | nil => simp
    | cons e rest ih =>
      intro ps
      rw [List.foldl_cons, ih, hasParty_unionParties, List.any_cons, Bool.or_assoc]
  rw [entrySet, fold, hasParty_noParties, Bool.false_or]

theorem partySet_ext {a b : PartySet} (h : ∀ p, hasParty a p = hasParty b p) : a = b := by
  obtain ⟨works, town, grid⟩ := a
  have w := h .works
  have t := h .town
  have g := h .grid
  simp only [hasParty] at w t g
  rw [w, t, g]

/-- A clock step and a lock need every party (Table 7-1-1), so that an entry of one party alone holds contract items. -/
theorem ordinary_of_alone {k : Contract} (alone : entrySet k items = onlyParty p) : ∀ x ∈ items, x.1 ≠ .offset ∧ x.1 ≠ .lock := by
  intro x mem
  obtain ⟨q, other⟩ : ∃ q : Party, q ≠ p := match p with
    | .works => ⟨.town, nofun⟩
    | .town => ⟨.works, nofun⟩
    | .grid => ⟨.works, nofun⟩
  have outside : hasParty (entrySet k items) q = false := by
    rw [alone, hasParty_onlyParty]
    exact beq_eq_false_iff_ne.2 other
  rw [hasParty_entrySet] at outside
  have none := any_false_iff.1 outside x mem
  refine ⟨fun is => ?_, fun is => ?_⟩ <;> rw [is] at none <;> exact Bool.noConfusion (none.symm.trans (hasParty_allParties q))

/-! ## The number of an entry (R126) -/

theorem numberToGive_next (free : ∀ x ∈ s.contracts.proposals, x.number ≠ s.contracts.nextProposal) :
    numberToGive s = s.contracts.nextProposal := by
  have notCarried : (s.contracts.proposals.map (·.number)).contains s.contracts.nextProposal = false := by
    rw [Bool.eq_false_iff]
    intro carried
    obtain ⟨x, mem, is⟩ := List.mem_map.1 (List.contains_iff_mem.1 carried)
    exact free x mem is
  unfold numberToGive
  cases s.contracts.proposals.length with
  | zero => rfl
  | succ k => rw [freeNumber, notCarried, if_neg Bool.false_ne_true]

/-! ## The entry opened (R126, R127) -/

/-- The entry as the request leaves it: STAGED where its proposer alone makes up its set. -/
def openedEntry (p : Party) (items : List (ItemRef × Int)) (s : State) : Proposal :=
  if (newEntry p items s).parties = onlyParty p then stagedEntry (newEntry p items s) else newEntry p items s

/-- The table with an entry joined (R126). -/
def withEntry (e : Proposal) (s : State) : State :=
  { s with contracts := { s.contracts with
      proposals := s.contracts.proposals ++ [e], nextProposal := nextNumber e.number } }

theorem newEntry_joins (clean : s.store.errors = []) (e : Proposal) :
    setNextProposal (nextNumber e.number) (setProposals (s.contracts.proposals ++ [e]) s) = withEntry e s := by
  rw [setProposals_clean clean, setNextProposal_clean (by exact clean)]
  rfl

/-- Staging the entry at the end of a table touches no other entry. -/
theorem map_last {l : List Proposal} {e : Proposal} (free : ∀ x ∈ l, x.number ≠ e.number) (g : Proposal → Proposal) :
    ((l ++ [e]).map fun x => if x.number = e.number then g x else x) = l ++ [g e] := by
  rw [List.map_append, List.map_cons, List.map_nil, if_pos rfl]
  refine congrArg (· ++ _) ?_
  exact (List.map_congr_left fun x mem => if_neg (free x mem)).trans (List.map_id' l)

theorem noticeProposal_masks (e : Proposal) (o : Outcome) (s : State) : (noticeProposal e o s).links.masks = s.links.masks :=
  (raiseNotice_otherNotices ..).2.1

theorem notices_noticeProposal (e : Proposal) (o : Outcome) (s : State) (p : Party) (k : Fin 10) :
    (noticeProposal e o s).links.notices[partyIndex p][k] =
      if hasParty (addParty e.parties e.proposer) p = true ∧ k = clsProposal then
        addOccurrence (.proposal e.number o) s.links.notices[partyIndex p][k]
      else s.links.notices[partyIndex p][k] := notices_raiseNotice ..

/-- What an opened entry leaves: the table, and the notices of its set. -/
structure OpensEntry (s : State) (e : Proposal) (t : State) : Prop where
  frame : t = { withEntry e s with links := t.links, lines := t.lines }
  ports : t.links.ports = s.links.ports
  masks : t.links.masks = s.links.masks
  permissives : PermissivesKept s t
  notices : ∀ (p : Party) (k : Fin 10), t.links.notices[partyIndex p][k] =
    if hasParty (addParty e.parties e.proposer) p = true ∧ k = clsProposal then
      if e.staged = true then addOccurrence (.proposal e.number .staged)
        (addOccurrence (.proposal e.number .opened) s.links.notices[partyIndex p][k])
      else addOccurrence (.proposal e.number .opened) s.links.notices[partyIndex p][k]
    else s.links.notices[partyIndex p][k]

theorem opensEntry_open {e : Proposal} (isOpen : e.staged = false) : OpensEntry s e (noticeProposal e .opened (withEntry e s)) := by
  obtain ⟨frame, ports, permissives, -⟩ := noticeProposal_leaves e .opened (withEntry e s)
  refine ⟨frame, ports, noticeProposal_masks .., permissives, fun p k => ?_⟩
  rw [notices_noticeProposal, isOpen]
  rfl

theorem opensEntry_staged (clean : s.store.errors = []) {e : Proposal} (free : ∀ x ∈ s.contracts.proposals, x.number ≠ e.number) :
    OpensEntry s (stagedEntry e)
      (noticeProposal e .staged (changeEntry e.number stagedEntry (noticeProposal e .opened (withEntry e s)))) := by
  have first := noticeProposal_leaves e .opened (withEntry e s)
  have masks := noticeProposal_masks e .opened (withEntry e s)
  have notices := notices_noticeProposal e .opened (withEntry e s)
  generalize noticeProposal e .opened (withEntry e s) = x at *
  obtain ⟨frame, ports, permissives, -⟩ := first
  have cleanX : x.store.errors = [] := by rw [frame]; exact clean
  have contracts : x.contracts = (withEntry e s).contracts := by rw [frame]
  have changed := changeEntry_clean cleanX e.number stagedEntry
  rw [contracts] at changed
  have table : (withEntry e s).contracts.proposals.map (fun y => if y.number = e.number then stagedEntry y else y) =
      s.contracts.proposals ++ [stagedEntry e] := map_last free stagedEntry
  rw [table] at changed
  generalize changeEntry e.number stagedEntry x = y at changed
  have second := noticeProposal_leaves e .staged y
  have masksY := noticeProposal_masks e .staged y
  have noticesY := notices_noticeProposal e .staged y
  generalize noticeProposal e .staged y = z at *
  obtain ⟨frameZ, portsZ, permissivesZ, -⟩ := second
  have linksY : y.links = x.links := by rw [changed]
  have linesY : y.lines = x.lines := by rw [changed]
  refine ⟨?_, ?_, ?_, ?_, fun p k => ?_⟩
  · rw [frameZ, changed, frame]
    rfl
  · rw [portsZ, linksY, ports]
    rfl
  · rw [masksY, linksY, masks]
    rfl
  · obtain ⟨gas, backup, flare⟩ := permissives
    obtain ⟨gasZ, backupZ, flareZ⟩ := permissivesZ
    rw [linesY] at gasZ backupZ flareZ
    exact ⟨gasZ.trans gas, backupZ.trans backup, flareZ.trans flare⟩
  · rw [noticesY, linksY, notices]
    show _ = if hasParty (addParty e.parties e.proposer) p = true ∧ k = clsProposal then _ else _
    by_cases told : hasParty (addParty e.parties e.proposer) p = true ∧ k = clsProposal
    · rw [if_pos told, if_pos told, if_pos told]
      rfl
    · rw [if_neg told, if_neg told, if_neg told]
      rfl

theorem proposeBody_opens (clean : s.store.errors = []) (short : s.contracts.proposals.length < 8) (p : Party)
    (items : List (ItemRef × Int)) : OpensEntry s (openedEntry p items s) (proposeBody p items s) := by
  have free : ∀ x ∈ s.contracts.proposals, x.number ≠ (newEntry p items s).number := fun x mem is =>
    Upkeep.numberToGive_free (Nat.le_of_lt short) (List.mem_map.2 ⟨x, mem, is⟩)
  have concurred : (newEntry p items s).concurred = onlyParty p := rfl
  have itemsEq : (newEntry p items s).items = items := rfl
  have partiesEq : (newEntry p items s).parties = entrySet (projected s) items := rfl
  have isOpen : (newEntry p items s).staged = false := rfl
  unfold proposeBody openedEntry
  extract_lets e opened
  have joined : opened = noticeProposal e .opened (withEntry e s) := by rw [← newEntry_joins clean]
  rw [joined]
  change ∀ x ∈ s.contracts.proposals, x.number ≠ e.number at free
  change e.concurred = _ at concurred
  change e.items = _ at itemsEq
  change e.parties = _ at partiesEq
  change e.staged = _ at isOpen
  rw [concurred]
  change OpensEntry s (if e.parties = onlyParty p then stagedEntry e else e) _
  clear_value e
  by_cases alone : e.parties = onlyParty p
  · rw [if_pos alone, if_pos alone, completeEntry_ordinary (by rw [itemsEq]; exact ordinary_of_alone (partiesEq.symm.trans alone))]
    exact opensEntry_staged clean free
  · rw [if_neg alone, if_neg alone]
    exact opensEntry_open isOpen

/-! ## PROPOSE -/

theorem openedEntry_fields (p : Party) (items : List (ItemRef × Int)) (s : State) :
    (openedEntry p items s).number = numberToGive s ∧ (openedEntry p items s).proposer = p ∧
    (openedEntry p items s).items = items ∧ (openedEntry p items s).concurred = onlyParty p ∧
    (openedEntry p items s).deferred = false ∧ (openedEntry p items s).parties = entrySet (projected s) items ∧
    (openedEntry p items s).staged = decide (entrySet (projected s) items = onlyParty p) ∧
    (openedEntry p items s).expiry =
      if entrySet (projected s) items = onlyParty p then none else some (s.contracts.base + 1800) := by
  have parties : (newEntry p items s).parties = entrySet (projected s) items := rfl
  unfold openedEntry
  rw [parties]
  by_cases alone : entrySet (projected s) items = onlyParty p
  · simp only [if_pos alone, decide_eq_true alone]
    exact ⟨rfl, rfl, rfl, rfl, rfl, rfl, rfl, rfl⟩
  · simp only [if_neg alone, decide_eq_false alone]
    exact ⟨rfl, rfl, rfl, rfl, rfl, rfl, rfl, rfl⟩

theorem entryOf_last {t : State} {l : List Proposal} {e : Proposal} (table : t.contracts.proposals = l ++ [e])
    (free : ∀ x ∈ l, x.number ≠ e.number) : entryOf t e.number = some e := by
  have none : l.find? (·.number == e.number) = none :=
    List.find?_eq_none.2 fun x mem is => free x mem (beq_iff_eq.1 is)
  unfold entryOf
  rw [table, List.find?_append, none, Option.none_or, List.find?_cons, beq_self_eq_true]

/-- Settles O35: the first check that fails gives the status, and an entry that passes them all is opened. -/
theorem proposeOpensAnEntry : Obligations.ProposeOpensAnEntry := by
  unfold Obligations.ProposeOpensAnEntry
  refine ⟨fun s f names items k calm taken named before fails => ?_,
    fun s f names items calm taken named nonempty few distinct alone rights clock named' room inRange rules unlocked => ?_⟩
  · have status : proposeStatus f.party items s = proposeRefusal k := by
      rw [proposeStatus_eq, firstRefusal_of_first before fails]
    rw [exec_propose named]
    exact request_judged_refused calm taken codePropose (proposeReads items) (proposeBody f.party items) status
      (proposeRefusal_refuses k) (proposeAnswer_refused status (proposeRefusal_refuses k) s)
  · have passes : ∀ k, passesCheck f.party items s k = true := fun k =>
      match k with
      | 0 => decide_eq_true ⟨nonempty, few, distinct, alone⟩
      | 1 => List.all_eq_true.2 fun e mem => by rw [(rights e mem).2, Bool.or_true]
      | 2 => decide_eq_true clock
      | 3 => List.all_eq_true.2 fun e mem => by rw [named' e mem]; rfl
      | 4 => decide_eq_true room
      | 5 => List.all_eq_true.2 inRange
      | 6 => rules
      | 7 => decide_eq_true fun _ e mem => (rights e mem).1
      | 8 => decide_eq_true ⟨fun e mem => (rights e mem).1, fun locked e mem is => Bool.noConfusion
          (locked.symm.trans (unlocked ⟨e, mem, is⟩))⟩
    have status : proposeStatus f.party items s = .done := by
      rw [proposeStatus_eq, firstRefusal_of_all passes]
    have opens := proposeBody_opens calm.2.1 room f.party items
    obtain ⟨number, proposer, itemsEq, concurred, deferred, parties, staged, expiry⟩ := openedEntry_fields f.party items s
    have free : ∀ x ∈ s.contracts.proposals, x.number ≠ (openedEntry f.party items s).number := fun x mem is =>
      Upkeep.numberToGive_free (Nat.le_of_lt room) (List.mem_map.2 ⟨x, mem, is.trans number⟩)
    have quiet : settle (proposeBody f.party items s) = proposeBody f.party items s :=
      settle_quiet calm (by rw [opens.frame]; rfl)
    have held : entryOf (proposeBody f.party items s) (numberToGive s) = some (openedEntry f.party items s) := by
      rw [← number]
      exact entryOf_last (t := proposeBody f.party items s) (by rw [opens.frame]; rfl) free
    have answer : proposeAnswer f.party items s (settle (proposeBody f.party items s)) = (.done, [.u16 (numberToGive s),
        .u8 (if (openedEntry f.party items s).staged = true then 1 else 0)]) := by
      rw [proposeAnswer, status, quiet, entryStateCode_of_entry held]
    have effect := request_judged_done calm taken codePropose (proposeReads items) status rfl answer
    rw [quiet] at effect
    have proposerIn : hasParty (openedEntry f.party items s).parties f.party = true := by
      obtain ⟨e, mem⟩ := List.exists_mem_of_length_pos nonempty
      rw [parties, hasParty_entrySet]
      exact List.any_eq_true.2 ⟨e, mem, (rights e mem).2⟩
    generalize openedEntry f.party items s = e at *
    generalize proposeBody f.party items s = w at *
    have told : ∀ p, hasParty (addParty e.parties e.proposer) p = hasParty e.parties p := fun p => by
      rw [hasParty_addParty, proposer]
      by_cases is : p = f.party
      · rw [is, proposerIn, Bool.or_true]
      · rw [beq_eq_false_iff_ne.2 is, Bool.false_or]
    obtain ⟨frame, ports, masks, permissives, notices⟩ := opens
    refine ⟨_, e, (exec_propose named).trans effect, ?_, proposer, itemsEq, concurred, deferred, fun p => ?_, ?_, ?_, free,
      fun next => number.trans (numberToGive_next next), ?_, masks, permissives, fun p k apart => ?_, fun p inside => ?_, ?_⟩
    · show w.contracts = _
      rw [frame]
      rfl
    · rw [parties, hasParty_entrySet]
    · rw [staged, parties]
    · rw [expiry, parties]
    · rw [number]
      exact answered_of_ports ports ..
    · refine (notices p k).trans (if_neg fun ⟨inside, is⟩ => ?_)
      rw [told] at inside
      exact apart.elim (fun other => other is) fun outside => Bool.noConfusion (outside.symm.trans inside)
    · refine (notices p clsProposal).trans (if_pos ⟨?_, rfl⟩)
      rw [told]
      exact inside
    · rw [frame]
      exact ⟨rfl, rfl, rfl, rfl, rfl, rfl, rfl, rfl, rfl, rfl, rfl⟩

end Sys2Proof.Proofs.Proposing
end

section
/-! Requests that read, and those that move one cursor, mask or clock: TRIM (8-1), ARCHIVE and CURSOR (8-5), the twelve
QUERYs (10-4) and MASK (10-5). -/

namespace Sys2Proof.Proofs.Reading

open Sys2Proof Sys2Proof.Machine Sys2Proof.Proofs.Timers Sys2Proof.Proofs.Agreement Sys2Proof.Proofs.Notice

variable {s : State} {f : Frame} {p : Party}

/-! ## ARCHIVE (R156) -/

theorem execArchive_calm (calm : Calm s) (taken : Taken s f 1) : exec (.archive f) s =
    .next (respond f.party 0x60
      (archiveAnswer f.party s (settle (judged (archiveStatus f.party) (archiveBody f.party) s))).1
      (archiveAnswer f.party s (settle (judged (archiveStatus f.party) (archiveBody f.party) s))).2
      (settle (judged (archiveStatus f.party) (archiveBody f.party) s))) := by
  obtain ⟨running, clean, idle⟩ := calm
  show execArchive f s = _
  rw [execArchive, request_taken (length := lenBare) running taken, readAll_clean clean, settle_idle idle,
    serve_calm clean idle]

theorem archiveTarget_gap (gap : s.settlement.gapMarks[partyIndex p] = true) :
    archiveTarget s p = s.settlement.archive.head? := if_pos gap

theorem archiveTarget_cursor (gap : s.settlement.gapMarks[partyIndex p] = false) : archiveTarget s p =
    s.settlement.archive.find? (·.number == s.settlement.cursors[partyIndex p]) := if_neg (by simp [gapOf, gap])

/-- A cursor placed, with its gap mark clear (R156, R157). -/
theorem placeCursor_clean (clean : s.store.errors = []) (p : Party) (n : Nat) : placeCursor p n s =
    { s with settlement := { s.settlement with
        cursors := s.settlement.cursors.set (partyIndex p) n
        gapMarks := s.settlement.gapMarks.set (partyIndex p) false } } := by
  rw [placeCursor, setCursor_clean clean, setGap_clean (by exact clean)]

theorem execArchive_found (calm : Calm s) (taken : Taken s f 1) {r : ArchiveRecord}
    (found : archiveTarget s f.party = some r) : exec (.archive f) s = .next (respond f.party 0x60
      (if s.store.knownDamaged[placeOf r.number] then .damaged else .done)
      (if s.store.knownDamaged[placeOf r.number] then [.u8 (natOfBool (gapOf s f.party)), .u32 r.number]
        else .u8 (natOfBool (gapOf s f.party)) :: recordFields r)
      { s with settlement := { s.settlement with
        cursors := s.settlement.cursors.set (partyIndex f.party) (r.number + 1)
        gapMarks := s.settlement.gapMarks.set (partyIndex f.party) false } }) := by
  have status : archiveStatus f.party s = if s.store.knownDamaged[placeOf r.number] then .damaged else .done := by
    simp only [archiveStatus, found]
    rfl
  have passes : isRefusing (archiveStatus f.party s) = false := by
    rw [status]
    split <;> rfl
  have body : archiveBody f.party s = placeCursor f.party (r.number + 1) s := by simp only [archiveBody, found, placeCursor]
  have answer : ∀ after, archiveAnswer f.party s after =
      (if s.store.knownDamaged[placeOf r.number] then .damaged else .done,
        if s.store.knownDamaged[placeOf r.number] then [.u8 (natOfBool (gapOf s f.party)), .u32 r.number]
        else .u8 (natOfBool (gapOf s f.party)) :: recordFields r) := fun after => by
    have known : knownDamaged s r.number = s.store.knownDamaged[placeOf r.number] := rfl
    simp only [archiveAnswer, found, known]
    split <;> rfl
  rw [execArchive_calm calm taken, answer, judged_taken passes, body, placeCursor_clean calm.2.1]
  refine congrArg (fun t => Host.Outcome.next (respond _ _ _ _ t)) ?_
  exact settle_quiet calm rfl

theorem execArchive_none (calm : Calm s) (taken : Taken s f 1) (missing : archiveTarget s f.party = none) :
    exec (.archive f) s = .next (respond f.party 0x60 .none [] s) := by
  have status : archiveStatus f.party s = .none := by simp only [archiveStatus, missing]
  have body : archiveBody f.party s = s := by simp only [archiveBody, missing]
  have answer : ∀ after, archiveAnswer f.party s after = (.none, []) := fun after => by simp only [archiveAnswer, missing]
  rw [execArchive_calm calm taken, answer, judged_taken (by rw [status]; rfl), body, settle_idle calm.2.2]

/-- Settles O43: the record found is passed and answered by its mark, and none is answered NONE. -/
theorem archiveReadsAtTheCursor : Obligations.ArchiveReadsAtTheCursor := by
  unfold Obligations.ArchiveReadsAtTheCursor
  intro s f gap calm taken marked
  refine ⟨fun r found => ?_, fun missing => ?_⟩
  · have target : archiveTarget s f.party = some r := by
      rcases found with ⟨rfl, found⟩ | ⟨rfl, found⟩
      · exact (archiveTarget_gap marked).trans found
      · exact (archiveTarget_cursor marked).trans found
    have same : gapOf s f.party = gap := marked
    rw [execArchive_found calm taken target, same]
  · refine execArchive_none calm taken ?_
    rcases missing with ⟨rfl, empty⟩ | ⟨rfl, absent⟩
    · rw [archiveTarget_gap marked, empty]
      rfl
    · rw [archiveTarget_cursor marked]
      exact List.find?_eq_none.2 fun r mem is => absent r mem (beq_iff_eq.1 is)

/-! ## CURSOR (R157) -/

theorem execCursor_placed (calm : Calm s) (taken : Taken s f 6) (status : State → Status) (n : Nat) {body : State → State}
    (done : status s = .done) (placed : body s = placeCursor f.party n s) :
    request f codeCursor lenCursor true
      (fun s => serve f.party codeCursor (cursorReads s f.party) body (cursorAnswer f.party status) s) s =
    .next (respond f.party 0x61 .done [.u32 n] { s with settlement := { s.settlement with
        cursors := s.settlement.cursors.set (partyIndex f.party) n
        gapMarks := s.settlement.gapMarks.set (partyIndex f.party) false } }) := by
  have effect : settle (body s) = placeCursor f.party n s := by
    rw [placed, placeCursor_clean calm.2.1]
    exact settle_quiet calm rfl
  have cursor : cursorOf (placeCursor f.party n s) f.party = n := by
    rw [placeCursor_clean calm.2.1]
    exact Vector.getElem_set_self ..
  rw [request_served (length := lenCursor) calm taken codeCursor (fun s => cursorReads s f.party), effect, cursorAnswer, done,
    cursor, placeCursor_clean calm.2.1]

theorem cursorStatus_done {n : Nat} (some : s.settlement.archive ≠ []) (low : oldestNumber s ≤ n) (high : n ≤ newestNumber s) :
    cursorStatus n s = .done := by
  simp [cursorStatus, some, low, high]

theorem execCursorNumber_refused (calm : Calm s) (taken : Taken s f 6) {n : Nat}
    (outside : s.settlement.archive = [] ∨ n < oldestNumber s ∨ newestNumber s < n) : exec (.cursorNumber f n) s =
    .next (respond f.party 0x61 .notFound [.u32 s.settlement.cursors[partyIndex f.party]] s) := by
  have status : cursorStatus n s = .notFound := by
    unfold cursorStatus
    rcases outside with empty | low | high
    · simp [empty]
    · simp [Nat.not_le.2 low]
    · simp [Nat.not_le.2 high]
  show execCursorNumber f n s = _
  exact request_judged_refused calm taken codeCursor (fun s => cursorReads s f.party) _ status rfl (by rw [cursorAnswer, status]; rfl)

/-- Settles O44: each choice places the cursor where it names a place, and a number outside the ring is refused. -/
theorem cursorMovesWithinTheRing : Obligations.CursorMovesWithinTheRing := by
  unfold Obligations.CursorMovesWithinTheRing
  refine ⟨fun s f n calm taken empty => ⟨fun i mem => ?_, execCursorNumber_refused calm taken (.inl empty)⟩,
    fun s f first last n calm taken head tail => ⟨fun e mem => ?_, fun outside => ?_⟩⟩
  · have oldest : oldestNumber s = s.settlement.nextRecord := by rw [oldestNumber, empty]; rfl
    have newest : newestNumber s = s.settlement.nextRecord := by rw [newestNumber, empty]; rfl
    obtain rfl | rfl : i = .cursorOldest f ∨ i = .cursorNewest f := by simpa using mem
    · exact execCursor_placed calm taken _ _ rfl (by rw [oldest])
    · exact execCursor_placed calm taken _ _ rfl (by rw [newest])
  · have oldest : oldestNumber s = first.number := by rw [oldestNumber, head]
    have newest : newestNumber s = last.number := by rw [newestNumber, tail]
    have some : s.settlement.archive ≠ [] := by
      intro empty
      rw [empty] at head
      exact nomatch head
    rcases List.mem_append.1 mem with ends | inside
    · obtain rfl | rfl : e = (.cursorOldest f, first.number) ∨ e = (.cursorNewest f, last.number) := by simpa using ends
      · exact execCursor_placed calm taken _ _ rfl (by rw [oldest])
      · exact execCursor_placed calm taken _ _ rfl (by rw [newest])
    · split at inside
      next within =>
        obtain rfl := List.mem_singleton.1 inside
        have status : cursorStatus n s = .done := cursorStatus_done some (by rw [oldest]; exact within.1)
          (by rw [newest]; exact within.2)
        exact execCursor_placed calm taken _ _ status (judged_taken (by rw [status]; rfl) _)
      next => exact absurd inside List.not_mem_nil
  · refine execCursorNumber_refused calm taken (.inr ?_)
    rw [oldestNumber, newestNumber, head, tail]
    exact outside

/-! ## QUERY (R183) -/

theorem queryRequest_done (calm : Calm s) (free : portBusy s f.party = false) (length : f.length = 3) {index instances : Nat}
    (inside : index < instances) (reads : State → List Thing) (fields : State → List Field) :
    queryRequest f index instances reads fields s = .next (respond f.party 0x01 .done (fields s) s) := by
  have quiet : settle (id s) = s := settle_idle calm.2.2
  rw [queryRequest, decide_eq_true inside, request_served (length := lenQuery) calm ⟨free, length⟩ codeQuery reads, quiet]

theorem resolveName_nameOf (r : ItemRef) : resolveName (nameOf r) = some r := by
  cases r with
  | offset | lock => rfl
  | item i =>
    cases i
    all_goals simp [nameOf, resolveName]

/-- Settles O51: every target is served without a body, and its fields are those of the state as it stands. -/
theorem queriesChangeNothing : Obligations.QueriesChangeNothing := by
  unfold Obligations.QueriesChangeNothing
  intro s f calm free
  refine ⟨fun length => ?_, fun length r => ?_⟩
  · have done := fun index instances inside reads fields =>
      @queryRequest_done s f calm free length index instances inside reads fields
    refine ⟨fun k => ?_, fun ch => ?_, fun c => ?_, ?_⟩
    · simp only [exec, execQuerySampleChannel, Nat.mod_eq_of_lt k.isLt]
      exact done _ _ k.isLt ..
    · simp only [exec, execQueryPulseChannel, Nat.mod_eq_of_lt ch.isLt]
      exact done _ _ ch.isLt ..
    · simp only [exec, execQueryConsumer, slotOf_val]
      exact done _ _ c.isLt ..
    · simp only [List.forall_mem_cons, List.not_mem_nil, false_implies, implies_true, and_true, exec, execQueryHolder,
        execQueryAllocation, execQueryTotals, execQueryExportSchedule, execQueryProposalTable, execQueryClock,
        execQueryIntegrityReport, execQueryIdentity]
      have first : 0 < 1 := Nat.one_pos
      exact ⟨done _ _ first .., done _ _ first .., done _ _ first .., done _ _ first .., done _ _ first .., done _ _ first ..,
        done _ _ first .., done _ _ first ..⟩
  · have quiet : settle (id s) = s := settle_idle calm.2.2
    show execQueryContractItem f (nameOf r) s = _
    rw [execQueryContractItem, resolveName_nameOf]
    show request f codeQuery lenQueryItem true _ s = _
    rw [request_served (length := lenQueryItem) calm ⟨free, length⟩ codeQuery (fun s => setReads r ++ tableReads s), quiet]

/-! ## TRIM (R144) -/

theorem trimStatus_eq (d : Int) (s : State) : trimStatus d s =
    if s.settlement.clock = none then .clockUnset
    else if d = 0 ∨ d < -20 ∨ 20 < d then .outOfRange
    else if trimmedAlready s = true then .wrongState
    else if trimTarget d s < (trimLimits s).1 ∨ ((trimLimits s).2 : Int) < trimTarget d s then .clamped
    else .done := rfl

theorem execTrim_refused (calm : Calm s) (taken : Taken s f 2) {d : Int} {st : Status} (status : trimStatus d s = st)
    (refuses : isRefusing st = true) : exec (.trim f d) s = .next (respond f.party 0x43 st [] s) := by
  show execTrim f d s = _
  exact request_judged_refused calm taken codeTrim (fun _ => [.openRecord 1, .openRecord 2, .openRecord 48]) _ status refuses
    (by rw [status])

/-- Settles O41: the refusals in their order, and one move within the open record. -/
theorem trimMovesTheClockOnce : Obligations.TrimMovesTheClockOnce := by
  unfold Obligations.TrimMovesTheClockOnce
  intro s f d calm taken
  have status := trimStatus_eq d s
  refine ⟨fun unset => execTrim_refused calm taken (status.trans (if_pos unset)) rfl,
    fun set outside => execTrim_refused calm taken (status.trans (by rw [if_neg set, if_pos outside])) rfl,
    fun k o clock isOpen nonzero low high => ?_⟩
  have set : s.settlement.clock ≠ none := by rw [clock]; nofun
  have inside : ¬ (d = 0 ∨ d < -20 ∨ 20 < d) := by omega
  have already : trimmedAlready s = o.trimmed := by rw [trimmedAlready, isOpen]
  rw [if_neg set, if_neg inside, already] at status
  refine ⟨fun trimmed => execTrim_refused calm taken (status.trans (if_pos trimmed)) rfl, fun fresh ordered => ?_⟩
  have limits : trimLimits s = (o.start, o.stop - 1) := by rw [trimLimits, isOpen]
  have target : trimTarget d s = (k : Int) + d := by rw [trimTarget, deviceTime, clock]; rfl
  rw [if_neg (by simp [fresh]), limits, target] at status
  have clamped : ((k : Int) + d < o.start ∨ ((o.stop - 1 : Nat) : Int) < (k : Int) + d) ↔
      ((k : Int) + d < o.start ∨ (o.stop : Int) ≤ (k : Int) + d) := by omega
  simp only [clamped] at status
  have time : trimmedTime d s = (max (o.start : Int) (min ((k : Int) + d) ((o.stop : Int) - 1))).toNat := by
    rw [trimmedTime, limits, target]
    split
    · omega
    · split <;> omega
  obtain ⟨n, range, moved, sets⟩ := setClock_eq (trimmedTime d s) s
  rw [show Config.clockModulus = 281474976710656 from rfl] at range moved sets
  have body : settle (trimBody d s) = { s with
      freeIndex := s.freeIndex + (if trimmedTime d s < 281474976710656 then 0 else 1)
      settlement := { s.settlement with clock := some n, openRecord := some { o with trimmed := true } } } := by
    have moves : trimBody d s = { s with
        freeIndex := s.freeIndex + (if trimmedTime d s < 281474976710656 then 0 else 1)
        settlement := { s.settlement with clock := some n, openRecord := some { o with trimmed := true } } } := by
      rw [trimBody, sets, onOpen_clean (by exact calm.2.1)]
      simp only [isOpen, Option.map_some]
    rw [moves]
    exact settle_quiet calm rfl
  refine ⟨n, range, ?_⟩
  extract_lets goal
  rw [show trimmedTime d s = goal from time] at moved body
  refine ⟨moved, ?_⟩
  have passes : isRefusing (trimStatus d s) = false := by
    rw [status]
    split <;> rfl
  have effect := request_judged_done (length := lenTrim) calm taken codeTrim
    (fun _ => [.openRecord 1, .openRecord 2, .openRecord 48]) (body := trimBody d) (status := trimStatus d)
    (answer := fun before _ => (trimStatus d before, [])) rfl passes rfl
  rw [body, status] at effect
  exact effect

/-! ## MASK (R187, R189) -/

theorem natOfFlags_testBit (k n : Nat) : natOfFlags ((List.range k).map fun i => n.testBit i) = n % 2 ^ k := by
  induction k generalizing n with
  | zero => simp [natOfFlags, Nat.mod_one]
  | succ k ih =>
    rw [List.range_succ_eq_map, List.map_cons, List.map_map, natOfFlags]
    have rest : ((fun i => n.testBit i) ∘ Nat.succ) = fun i => (n / 2).testBit i := by
      funext i
      exact Nat.testBit_succ n i
    rw [rest, ih, Nat.testBit_zero, Nat.pow_succ]
    have split : n % (2 ^ k * 2) = n % 2 + 2 * (n / 2 % 2 ^ k) := by
      rw [Nat.mul_comm, Nat.mod_mul]
    rw [split]
    rcases Nat.mod_two_eq_zero_or_one n with even | odd
    · simp [even]
    · simp [odd]

theorem testBit_lowered (n i : Nat) : (n / 4 * 4).testBit i = (decide (2 ≤ i) && n.testBit i) := by
  have shifted : n / 4 * 4 = (n >>> 2) <<< 2 := by
    rw [Nat.shiftLeft_eq, Nat.shiftRight_eq_div_pow]
  rw [shifted, Nat.testBit_shiftLeft, Nat.testBit_shiftRight]
  by_cases high : 2 ≤ i
  · simp [high]
  · simp [high]

/-- The mask as a field carries its classes as bits (Table 10-6-3). -/
theorem natOfFlags_maskOf {classes : Nat} (fits : classes < 1024) : natOfFlags (maskOf classes).toList = classes / 4 * 4 := by
  have flags : (maskOf classes).toList = (List.range 10).map fun i => (classes / 4 * 4).testBit i := by
    refine List.ext_getElem (by rw [Vector.length_toList, List.length_map, List.length_range]) fun k _ _ => ?_
    rw [Vector.getElem_toList, List.getElem_map, List.getElem_range, testBit_lowered]
    exact Vector.getElem_ofFn ..
  rw [flags, natOfFlags_testBit, Nat.mod_eq_of_lt (by omega)]

/-- Settles O52: one mask and one attention line. -/
theorem maskSetsTheEffectiveMask : Obligations.MaskSetsTheEffectiveMask := by
  unfold Obligations.MaskSetsTheEffectiveMask
  intro s f classes calm taken fits
  have quiet : settle (setMask f.party (maskOf classes) s) = setMask f.party (maskOf classes) s := settle_quiet calm rfl
  have own : (setMask f.party (maskOf classes) s).links.masks[partyIndex f.party] = maskOf classes :=
    Vector.getElem_set_self ..
  have effect : exec (.mask f classes) s = .next (respond f.party 0x50 .done [.u16 (classes / 4 * 4)]
      (setMask f.party (maskOf classes) s)) := by
    show execMask f classes s = _
    rw [execMask, decide_eq_true fits, request_served (length := lenMask) calm taken codeMask (fun _ => []), quiet, own,
      natOfFlags_maskOf fits]
  refine ⟨_, effect, answered_of_ports rfl .., fun k => ?_, fun p other => ⟨?_, ?_⟩, ?_, rfl⟩
  · show (setMask f.party (maskOf classes) s).links.masks[partyIndex f.party][k] = _
    rw [own]
    exact Vector.getElem_ofFn ..
  · exact getElem_set_fin s.links.masks other _
  · exact getElem_set_fin s.lines.attn other _
  · exact refreshAttn_attn_iff (s := { s with links := { s.links with
      masks := s.links.masks.set (partyIndex f.party) (maskOf classes) } }) calm.1 f.party

end Sys2Proof.Proofs.Reading
end

section
/-! What time and the supplies do: a millisecond on an empty queue (0-5), and the supplies, RESET and decay (chapters 9, 11). -/

namespace Sys2Proof.Proofs.Supplies
open Sys2Proof Sys2Proof.Machine Sys2Proof.Proofs.Notice Sys2Proof.Proofs.Timers

/-! ## Supplies, RESET and decay (R165, R175, R194) -/

theorem keepOrLose_kept {s : State} (kept : (s.power.mainSupply || s.power.backupSupply) = true) : keepOrLose s = s := if_pos kept

/-- The signature words of a lost store do not hold the pattern (R165). -/
theorem keepOrLose_lost {s : State} (main : s.power.mainSupply = false) (backup : s.power.backupSupply = false) :
    signatureValid (keepOrLose s) = false ∧ (keepOrLose s).settlement.clock = none ∧ (keepOrLose s).power = s.power := by
  have lost : keepOrLose s = loseStore s := if_neg (by simp [main, backup])
  rw [lost]
  refine ⟨?_, rfl, rfl⟩
  refine Bool.eq_false_iff.2 fun valid => ?_
  have first := List.all_eq_true.1 valid 0 (List.mem_finRange _)
  simp [signatureWordValid, loseStore, useFree] at first

/-- A word in error that gains a bit reads uncorrectable, any other word carries a single one (R165). -/
theorem errorAt_addError {w : Nat} {l : List (Nat × WordError)} (order : errorsInOrder l = true) :
    errorAt (addError w l) w = some (if errorAt l w = none then .oneBit else .uncorrectable) := by
  simp only [errorsInOrder, Bool.and_eq_true, decide_eq_true_eq] at order
  replace order := order.1
  induction l with
  | nil => simp [addError, errorAt]
  | cons a l ih =>
    obtain ⟨v, e⟩ := a
    obtain ⟨above, order⟩ := List.pairwise_cons.1 order
    unfold addError
    by_cases before : w < v
    · have absent : errorAt ((v, e) :: l) w = none := by
        simp only [errorAt, Option.map_eq_none_iff, List.find?_eq_none, List.mem_cons]
        rintro x (rfl | member)
        · simp only [beq_iff_eq]
          omega
        · have := above x member
          simp only [beq_iff_eq]
          omega
      rw [if_pos before, if_pos absent]
      simp [errorAt]
    · rw [if_neg before]
      by_cases same : w = v
      · subst same
        simp [errorAt]
      · have other : (v == w) = false := beq_eq_false_iff_ne.2 fun h => same h.symm
        have passed (l : List (Nat × WordError)) : errorAt ((v, e) :: l) w = errorAt l w := by
          simp [errorAt, other]
        rw [if_neg same, passed, passed]
        exact ih order

/-- Settles O50: each event of the supplies, of RESET and of decay by its definition. -/
theorem suppliesResetAndStoreErrors : Obligations.SuppliesResetAndStoreErrors := by
  unfold Obligations.SuppliesResetAndStoreErrors
  intro s
  refine ⟨fun backup => ?_, fun low long => ?_, fun low short => ?_, fun main => ?_, fun i lost => ?_, fun w => ?_⟩
  · exact congrArg Host.Outcome.next (keepOrLose_kept (by simp [stopPart, backup]))
  · exact if_pos long
  · exact (if_neg (by omega)).trans (if_pos short)
  · exact congrArg Host.Outcome.next (keepOrLose_kept (by simp [main]))
  · rcases lost with ⟨rfl, gone⟩ | ⟨rfl, gone⟩
    · obtain ⟨invalid, clock, power⟩ := keepOrLose_lost
        (s := { stopPart s with power := { (stopPart s).power with mainSupply := false } }) rfl gone
      exact ⟨_, rfl, invalid, clock, by rw [power], by rw [power]; exact gone⟩
    · obtain ⟨invalid, clock, power⟩ := keepOrLose_lost
        (s := { s with power := { s.power with backupSupply := false } }) gone rfl
      exact ⟨_, rfl, invalid, clock, by rw [power]; exact gone, by rw [power]⟩
  · exact ⟨_, rfl, rfl, fun order => ⟨errorsInOrder_addError w.isLt order, errorAt_addError order,
      fun v other => errorAt_addError_ne other _⟩⟩

/-! ## A millisecond (log 2) -/

theorem consumerDue_iff {s : State} (running : s.power.running = true) (t : Option Timer) :
    consumerDue s t = true ↔ Ran s.supervisor.base t := by
  cases t with
  | none => simp [consumerDue]
  | some tm => simp [consumerDue, running, timerDue, Ran]

theorem zeroFlowDue_iff (s : State) (ch : Fin 16) : zeroFlowDue s ch = true ↔ Falls s (.zeroFlowExpiry ch) := by
  simp only [zeroFlowDue, Falls]
  cases (channel s ch).state <;> cases (channel s ch).lastArrival <;> simp

theorem freshnessDue_iff (s : State) (k : Fin 22) : freshnessDue s k = true ↔ Falls s (.freshnessExpiry k) := by
  simp only [freshnessDue, Falls]
  cases (sample s k).timer <;> simp

theorem proposalDue_iff (s : State) (number : Nat) : proposalDue s number = true ↔ Falls s (.proposalExpiry number) := by
  simp only [proposalDue, Falls]
  cases found : entryOf s number with
  | none => simp
  | some e => cases due : e.expiry <;> simp [due]

theorem boundaryDue_iff (s : State) : boundaryDue s = true ↔ Falls s .regularBoundary := by
  simp only [boundaryDue, Falls]
  cases s.settlement.clock <;> cases s.settlement.openRecord <;> simp

theorem timerDue_iff (s : State) : timerDue s.allocator.base s.allocator.timer = true ↔ Falls s .allocationPeriodExpiry :=
  decide_eq_true_iff

theorem scrubDue_iff (s : State) : scrubDue s = true ↔ Falls s .scrubRead := decide_eq_true_iff

theorem mem_consumerEvents {s : State} (running : s.power.running = true) (c : Fin 8) (i : Instr) :
    i ∈ consumerEvents s c ↔ Falls s i ∧
      (i = .purgeExpiry c ∨ i = .overdrawMaskExpiry c ∨ i = .lineLowMaskExpiry c ∨ i = .passingMaskExpiry c ∨
        i = .lowDrawTimerExpiry c ∨ i = .recoveryDelayExpiry c) := by
  have timed (e : Instr) (t : Option Timer) (falls : Falls s e ↔ Ran s.supervisor.base t) :
      i ∈ (if consumerDue s t then [e] else []) ↔ Falls s i ∧ i = e := by
    by_cases due : consumerDue s t = true
    · simp only [due, if_true, List.mem_singleton]
      exact ⟨fun same => ⟨same ▸ falls.2 ((consumerDue_iff running t).1 due), same⟩, fun h => h.2⟩
    · simp only [due]
      exact ⟨nofun, fun ⟨fell, same⟩ => absurd ((consumerDue_iff running t).2 (falls.1 (same ▸ fell))) due⟩
  simp only [consumerEvents, List.flatten_cons, List.flatten_nil, List.append_nil, List.mem_append]
  rw [timed _ _ Iff.rfl, timed _ _ Iff.rfl, timed _ _ Iff.rfl, timed _ _ Iff.rfl, timed _ _ Iff.rfl, timed _ _ Iff.rfl]
  simp only [and_or_left]

theorem mem_ifDue {p : Prop} [Decidable p] (e i : Instr) : i ∈ (if p then [e] else []) ↔ p ∧ i = e := by
  by_cases h : p <;> simp [h]

theorem mem_dueEvents {s : State} (running : s.power.running = true) (i : Instr) : i ∈ dueEvents s ↔ Falls s i := by
  simp only [dueEvents, List.flatten_cons, List.flatten_nil, List.append_nil, List.mem_append, List.mem_map, List.mem_filter,
    List.mem_finRange, true_and, List.mem_flatMap, mem_consumerEvents running, mem_ifDue, zeroFlowDue_iff, freshnessDue_iff,
    boundaryDue_iff, proposalDue_iff, timerDue_iff, scrubDue_iff]
  constructor
  · rintro (⟨ch, due, rfl⟩ | ⟨k, due, rfl⟩ | ⟨due, rfl⟩ | ⟨c, due, _⟩ | ⟨n, ⟨_, due⟩, rfl⟩ | ⟨due, rfl⟩ | ⟨due, rfl⟩)
    · exact due
    · exact due
    · exact due
    · exact due
    · exact due
    · exact due
    · exact due
  · intro falls
    cases i
    case zeroFlowExpiry ch => exact .inl ⟨ch, falls, rfl⟩
    case freshnessExpiry k => exact .inr (.inl ⟨k, falls, rfl⟩)
    case allocationPeriodExpiry => exact .inr (.inr (.inl ⟨falls, rfl⟩))
    case purgeExpiry c => exact .inr (.inr (.inr (.inl ⟨c, falls, by simp⟩)))
    case overdrawMaskExpiry c => exact .inr (.inr (.inr (.inl ⟨c, falls, by simp⟩)))
    case lineLowMaskExpiry c => exact .inr (.inr (.inr (.inl ⟨c, falls, by simp⟩)))
    case passingMaskExpiry c => exact .inr (.inr (.inr (.inl ⟨c, falls, by simp⟩)))
    case lowDrawTimerExpiry c => exact .inr (.inr (.inr (.inl ⟨c, falls, by simp⟩)))
    case recoveryDelayExpiry c => exact .inr (.inr (.inr (.inl ⟨c, falls, by simp⟩)))
    case proposalExpiry number =>
      obtain ⟨e, due, found, rest⟩ := falls
      refine .inr (.inr (.inr (.inr (.inl ⟨number, ⟨?_, e, due, found, rest⟩, rfl⟩))))
      have number : e.number = number := by simpa using List.find?_some found
      rw [← number]
      exact ⟨e, List.mem_of_find?_eq_some found, rfl⟩
    case regularBoundary => exact .inr (.inr (.inr (.inr (.inr (.inl ⟨falls, rfl⟩)))))
    case scrubRead => exact .inr (.inr (.inr (.inr (.inr (.inr ⟨falls, rfl⟩)))))
    all_goals exact falls.elim

theorem nodup_ifDue {p : Prop} [Decidable p] (e : Instr) : (if p then [e] else []).Nodup := by
  by_cases h : p <;> simp [h]

theorem consumerEvents_nodup (s : State) (c : Fin 8) : (consumerEvents s c).Nodup := by
  refine Lists.nodup_flatten_of_apart (fun l member => ?_) ?_
  · simp only [List.mem_cons, List.not_mem_nil, or_false] at member
    rcases member with rfl | rfl | rfl | rfl | rfl | rfl <;> exact nodup_ifDue _
  · simp [List.pairwise_cons]

/-- The timed events that have fallen due, kind by kind. -/
def dueKinds (s : State) : List (List Instr) :=
  [((List.finRange 16).filter (zeroFlowDue s)).map .zeroFlowExpiry,
   ((List.finRange 22).filter (freshnessDue s)).map .freshnessExpiry,
   (if timerDue s.allocator.base s.allocator.timer then [.allocationPeriodExpiry] else []),
   (List.finRange 8).flatMap (consumerEvents s),
   ((s.contracts.proposals.map (·.number)).filter (proposalDue s)).map .proposalExpiry,
   (if boundaryDue s then [.regularBoundary] else []),
   (if scrubDue s then [.scrubRead] else [])]

theorem dueEvents_eq (s : State) : dueEvents s = (dueKinds s).flatten := rfl

/-- The place of an event's kind among them. -/
def kindOf : Instr → Nat
  | .zeroFlowExpiry _ => 0
  | .freshnessExpiry _ => 1
  | .allocationPeriodExpiry => 2
  | .proposalExpiry _ => 4
  | .regularBoundary => 5
  | .scrubRead => 6
  | _ => 3

theorem kindOf_mem {s : State} (running : s.power.running = true) {n : Nat} {l : List Instr} (place : (dueKinds s)[n]? = some l)
    {i : Instr} (member : i ∈ l) : kindOf i = n := by
  have alone {p : Prop} [Decidable p] (e : Instr) (within : i ∈ if p then [e] else []) : kindOf i = kindOf e := by
    rw [((mem_ifDue _ _).1 within).2]
  have mapped {α : Type} {f : α → Instr} {l : List α} {n : Nat} (all : ∀ a, kindOf (f a) = n) (within : i ∈ l.map f) :
      kindOf i = n := by
    obtain ⟨a, _, rfl⟩ := List.mem_map.1 within
    exact all a
  match n, place with
  | 0, rfl => exact mapped (fun _ => rfl) member
  | 1, rfl => exact mapped (fun _ => rfl) member
  | 2, rfl => exact alone _ member
  | 3, rfl =>
    obtain ⟨c, _, ofC⟩ := List.mem_flatMap.1 member
    rcases ((mem_consumerEvents running c i).1 ofC).2 with rfl | rfl | rfl | rfl | rfl | rfl <;> rfl
  | 4, rfl => exact mapped (fun _ => rfl) member
  | 5, rfl => exact alone _ member
  | 6, rfl => exact alone _ member

theorem dueKinds_nodup {s : State} (running : s.power.running = true)
    (different : (s.contracts.proposals.map (·.number)).Nodup) {l : List Instr} (member : l ∈ dueKinds s) : l.Nodup := by
  simp only [dueKinds, List.mem_cons, List.not_mem_nil, or_false] at member
  rcases member with rfl | rfl | rfl | rfl | rfl | rfl | rfl
  · exact Lists.nodup_map_of_inj (fun _ _ _ _ same => Instr.zeroFlowExpiry.inj same) ((List.nodup_finRange _).filter _)
  · exact Lists.nodup_map_of_inj (fun _ _ _ _ same => Instr.freshnessExpiry.inj same) ((List.nodup_finRange _).filter _)
  · exact nodup_ifDue _
  · refine Lists.nodup_flatMap_of_apart (fun c _ => consumerEvents_nodup s c) ?_
    refine (List.nodup_finRange 8).imp fun {c d} other i ofC ofD => other ?_
    rw [mem_consumerEvents running] at ofC ofD
    obtain ⟨-, rfl | rfl | rfl | rfl | rfl | rfl⟩ := ofC <;> simpa using ofD.2
  · exact Lists.nodup_map_of_inj (fun _ _ _ _ same => Instr.proposalExpiry.inj same) (different.filter _)
  · exact nodup_ifDue _
  · exact nodup_ifDue _

theorem dueEvents_nodup {s : State} (running : s.power.running = true)
    (different : (s.contracts.proposals.map (·.number)).Nodup) : (dueEvents s).Nodup := by
  rw [dueEvents_eq]
  refine Lists.nodup_flatten_of_apart (fun l member => dueKinds_nodup running different member) ?_
  refine List.pairwise_iff_getElem.2 fun m n within within' before i first second => ?_
  have firstKind := kindOf_mem running (List.getElem?_eq_getElem within) first
  have secondKind := kindOf_mem running (List.getElem?_eq_getElem within') second
  omega

theorem tick_frame {s : State} (running : s.power.running = true) :
    tick s = { tickBases (tickClock s) with pending := (tick s).pending, freeIndex := (tick s).freeIndex } := by
  rw [tick, if_pos running]
  exact foldl_arrange_eq _ _

/-- A second passes after its 1,000th millisecond, and nothing but the clock moves (R142). -/
theorem tickClock_frame (s : State) :
    tickClock s = { s with freeIndex := (tickClock s).freeIndex, settlement := (tickClock s).settlement } := by
  unfold tickClock setClock useFree
  (repeat' split) <;> rfl

theorem tickClock_unset {s : State} (unset : s.settlement.clock = none) : (tickClock s).settlement = s.settlement := by
  simp [tickClock, unset]

theorem tickClock_within {s : State} {k : Nat} (clock : s.settlement.clock = some k) (within : s.settlement.clockMillis < 999) :
    (tickClock s).settlement = { s.settlement with clockMillis := s.settlement.clockMillis + 1 } := by
  have short : s.settlement.clockMillis + 1 < 1000 := by omega
  simp [tickClock, clock, short]

theorem tickClock_carries {s : State} {k : Nat} (clock : s.settlement.clock = some k) (last : s.settlement.clockMillis = 999)
    (below : k < 281474976710655) :
    (tickClock s).settlement = { s.settlement with clock := some (k + 1), clockMillis := 0 } := by
  have inRange : k + 1 < Config.clockModulus := by
    show k + 1 < 281474976710656
    omega
  simp [tickClock, clock, last, setClock, inRange]

/-- The same events fall whatever waits and whatever open values have been used. -/
theorem falls_queued (t : State) (queue : List Instr) (free : Nat) (i : Instr) :
    Falls { t with pending := queue, freeIndex := free } i ↔ Falls t i := by
  cases i <;> rfl

theorem tick_outside (s : State) : (tick s).settlement = (tickClock s).settlement ∧ (tick s).power = s.power ∧
    (tick s).metering = s.metering ∧ (tick s).band = s.band ∧ (tick s).exports = s.exports ∧ (tick s).links = s.links ∧
    (tick s).lines = s.lines := by
  have clock := tickClock_frame s
  cases running : s.power.running
  · have frame : tick s = tickClock s := if_neg (by simp [running])
    rw [frame, clock]
    exact ⟨rfl, rfl, rfl, rfl, rfl, rfl, rfl⟩
  · rw [tick_frame running, clock]
    exact ⟨rfl, rfl, rfl, rfl, rfl, rfl, rfl⟩

/-- Settles O2: the time bases by their definitions, the queue from the events due, in some order. -/
theorem emptyQueueLetsOneMillisecondPass : Obligations.EmptyQueueLetsOneMillisecondPass := by
  unfold Obligations.EmptyQueueLetsOneMillisecondPass
  intro s empty
  have clock := tickClock_frame s
  refine ⟨tick s, by rw [step, empty], fun running => ?_, fun stopped => ?_, ?_⟩
  · have frame := tick_frame running
    have queue := tick_pending_perm running empty
    have stillRunning : (tickBases (tickClock s)).power.running = true := by rw [clock]; exact running
    have contracts : (tick s).contracts = { s.contracts with
        base := s.contracts.base + (s.contracts.baseMillis + 1) / 1000
        baseMillis := (s.contracts.baseMillis + 1) % 1000 } := by
      rw [frame, clock]; rfl
    refine ⟨by rw [frame, clock]; rfl, by rw [frame, clock]; rfl, by rw [frame, clock]; rfl, by rw [frame, clock]; rfl,
      by rw [contracts], by rw [contracts]; simp only; omega, fun i => ?_, fun different => queue.nodup_iff.2 ?_⟩
    · rw [queue.mem_iff, mem_dueEvents stillRunning]
      conv => rhs; rw [frame]
      exact (falls_queued _ _ _ i).symm
    · exact dueEvents_nodup stillRunning (by rw [clock]; exact different)
  · have frame : tick s = tickClock s := if_neg (by simp [stopped])
    rw [frame, clock]
    exact ⟨rfl, rfl, rfl, rfl, rfl, empty⟩
  · obtain ⟨settlement, power, metering, band, exports, links, lines⟩ := tick_outside s
    exact ⟨fun unset => settlement.trans (tickClock_unset unset),
      fun k running within => settlement.trans (tickClock_within running within),
      fun k running last below => settlement.trans (tickClock_carries running last below),
      power, metering, band, exports, links, lines⟩

end Sys2Proof.Proofs.Supplies
end

section
/-! A restart before the open record's end: the store is kept, and every block outside it begins afresh (R158, R174). -/

namespace Sys2Proof.Proofs.Restart
open Sys2Proof Sys2Proof.Machine Sys2Proof.Proofs.Notice Sys2Proof.Proofs.Timers Sys2Proof.Proofs.Upkeep

/-! ## The part begins to take events (R174, R193) -/

/-- The part with every consumer OFF, no flare and a notice for every party drives its attention lines alone. -/
theorem beginOperation_rest {s : State} (off : ∀ c, (consumer s c).state = .off)
    (dark : s.allocator.result.flareDemand = 0) (told : ∀ p : Fin 3, attnCalled s.links.notices[p] s.links.masks[p] = true) :
    beginOperation s = { s with
      power := { s.power with running := true }
      lines := { lowLines with attn := Vector.replicate 3 true } } := by
  obtain ⟨gas, backup, flare, attn⟩ := follows_beginOperation s
  have frame := beginOperation_frame s
  have record (c : Fin 8) : consumer (beginOperation s) c = consumer s c := rfl
  have allocator : (beginOperation s).allocator = s.allocator := by
    show { s.allocator with result := { s.allocator.result with flareDemand := s.allocator.result.flareDemand } } = _
    rfl
  have lines : (beginOperation s).lines = { lowLines with attn := Vector.replicate 3 true } := by
    generalize lit : (beginOperation s).lines = l at gas backup flare attn ⊢
    obtain ⟨gasEn, backupEn, flareEn, attnLines⟩ := l
    simp only [lowLines, Lines.mk.injEq]
    refine ⟨?_, ?_, ?_, ?_⟩
    · ext c hc
      simpa [record, off, show (ConsumerState.off == .active) = false from rfl] using gas ⟨c, hc⟩
    · ext c hc
      simpa [record, off, show (ConsumerState.off == .backup) = false from rfl] using backup ⟨c, hc⟩
    · rw [allocator, dark] at flare
      simpa using flare
    · ext p hp
      have called := attn ⟨p, hp⟩
      simp only [Fin.getElem_fin] at called
      rw [Vector.getElem_replicate, called]
      exact congrArg (true && ·) (told ⟨p, hp⟩)
  rw [frame, lines, allocator]

theorem restartLinks_called (kind : RestartKind) (p : Fin 3) :
    attnCalled (restartLinks kind).notices[p] (restartLinks kind).masks[p] = true := by
  revert p
  cases kind <;> decide

/-! ## The start-up with a valid signature (R172) -/

theorem startUp_warm {s : State} (stopped : s.power.running = false) (valid : signatureValid s = true) (high : Bool) :
    exec (.startUpOperation (if high then .high else .low) false) s =
      .next (warmStart (if high then .unlock else .restart) s) := by
  show execStartUpOperation _ _ s = _
  have notRunning : ¬ s.power.running = true := by simp [stopped]
  rw [execStartUpOperation, if_neg notRunning]
  cases high <;> simp [restartKind, valid, strapHigh, sampled]

theorem freshBlocks_off (kind : RestartKind) (s : State) (c : Fin 8) : (consumer (freshBlocks kind s) c).state = .off := by
  simp [consumer, freshBlocks, freshSupervisor, freshConsumer]

theorem continueRecord_clean {s : State} (clean : s.store.errors = []) : continueRecord s = { s with
    settlement := { s.settlement with
      openRecord := s.settlement.openRecord.map fun o => { o with outage := true } } } := onOpen_clean clean ..

/-- The state from which an outage is resolved, where no word is in error. -/
def restarted (kind : RestartKind) (s : State) : State :=
  { freshBlocks kind s with contracts := { s.contracts with
      proposals := s.contracts.proposals.filter (·.staged)
      locked := s.contracts.locked && !(kind = .unlock : Bool), base := 0, baseMillis := 0 } }

theorem warmStart_clean {s : State} (clean : s.store.errors = []) (kind : RestartKind) :
    warmStart kind s = beginOperation (settle (resolveOutage kind (restarted kind s))) := by
  have fresh : (freshBlocks kind s).store.errors = [] := clean
  have read : settle (readAll (startUpReads (freshBlocks kind s)) (freshBlocks kind s)) = freshBlocks kind s := by
    rw [readAll_clean fresh]
    exact settle_idle rfl
  have period : startPeriod (freshBlocks kind s) = freshBlocks kind s := rfl
  have discarded := setProposals_clean fresh (s.contracts.proposals.filter (·.staged))
  have table : unlock kind (discardOpen (freshBlocks kind s)) = restarted kind s := by
    unfold unlock discardOpen
    show (if kind = .unlock then setLocked false (setProposals (s.contracts.proposals.filter (·.staged)) _)
      else setProposals (s.contracts.proposals.filter (·.staged)) _) = _
    rw [discarded]
    by_cases unlocks : kind = .unlock
    · rw [if_pos unlocks, setLocked_clean (by exact fresh)]
      simp [restarted, unlocks, freshBlocks]
    · rw [if_neg unlocks]
      simp [restarted, unlocks, freshBlocks]
  unfold warmStart
  simp only [read, period, table]

/-- Settles O48: the start-up's parts in turn, none of which finds a word in error. -/
theorem restartKeepsTheStore : Obligations.RestartKeepsTheStore := by
  unfold Obligations.RestartKeepsTheStore
  intro s high stopped clean valid before
  rw [startUp_warm stopped valid, warmStart_clean clean]
  generalize kindIs : (if high then RestartKind.unlock else .restart) = kind
  have clean' : (restarted kind s).store.errors = [] := clean
  have notPast : pastEnd (restarted kind s) = false := by
    unfold pastEnd boundaryDue
    split
    next k o clock isOpen => simpa using before k o clock isOpen
    next => rfl
  have resolved : resolveOutage kind (restarted kind s) = { restarted kind s with
      settlement := { s.settlement with openRecord := s.settlement.openRecord.map fun o =>
        { o with outage := true, commissioning := o.commissioning || high } } } := by
    unfold resolveOutage
    rw [readAll_clean clean']
    dsimp only
    rw [notPast, if_neg Bool.false_ne_true, continueRecord_clean clean']
    subst kindIs
    cases high
    · simp [restarted, freshBlocks]
    · rw [if_pos rfl, onOpen_clean (by exact clean')]
      simp [restarted, freshBlocks, Function.comp_def]
  rw [resolved, settle_idle rfl, beginOperation_rest (by exact freshBlocks_off kind s) (by exact rfl)
    (by exact restartLinks_called kind)]
  subst kindIs
  cases high <;> rfl

end Sys2Proof.Proofs.Restart
end

section
/-! What the parts of an operation that react to a change may move, and what every one of them leaves: cuts of grants, zero flow
taken at once, evaluations, and the allocation events that follow (R54, R69, R88, R117). -/

namespace Sys2Proof.Proofs.Reactions
open Sys2Proof Sys2Proof.Machine Sys2Proof.Proofs.Notice Sys2Proof.Proofs.Trips Sys2Proof.Proofs.StopNominate
  Sys2Proof.Proofs.Stages Sys2Proof.Proofs.Sums Sys2Proof.Proofs.Event Sys2Proof.Proofs.Fields Sys2Proof.Proofs.Upkeep

variable {s t u : State}

/-- What neither an evaluation nor a cut nor an event moves of a consumer. -/
def lasting (r : Consumer) : Nat × Bool × Nat × Option Timer :=
  (r.recoveryCount, r.damageMark, r.nomination, r.recoveryTimer)

theorem lasting_withTimers (r r' : Consumer) : lasting (withTimers r r') = lasting r := rfl

theorem lasting_withPurge (r r' : Consumer) : lasting (withPurge r r') = lasting r := rfl

/-- The state `t` follows on `s` by reactions, among them those to a change of the recovery mode of the consumers `L`. -/
structure Reacts (L : List (Fin 8)) (s t : State) : Prop where
  rest : t = { s with
    field := { s.field with channels := t.field.channels }
    allocator := { t.allocator with base := s.allocator.base }
    supervisor := { s.supervisor with consumers := t.supervisor.consumers }
    settlement := { s.settlement with openRecord := t.settlement.openRecord }
    links := { s.links with notices := t.links.notices }
    lines := t.lines }
  notices : ∀ (p : Fin 3) (j : Fin 10), j ≠ clsShed → j ≠ clsGrant → t.links.notices[p][j] = s.links.notices[p][j]
  record : ∀ c, (consumer t c).recoveryCount = (consumer s c).recoveryCount ∧
    (consumer t c).damageMark = (consumer s c).damageMark ∧ (consumer t c).nomination = (consumer s c).nomination
  timer : ∀ c, c ∉ L → (consumer t c).recoveryTimer = (consumer s c).recoveryTimer
  /-- The delay does not run in MANUAL (R97). -/
  stopped : ∀ c ∈ L, isAuto s c = false → (consumer t c).recoveryTimer = none
  /-- Of the open record only the flare accumulator moves (R65). -/
  isOpen : t.settlement.openRecord.map (fun o => { o with flare := 0 }) =
    s.settlement.openRecord.map (fun o => { o with flare := 0 })
  /-- It moves by a credit, which is none at the credit point. -/
  credited : s.allocator.result.creditPoint = s.allocator.base →
    (∀ o, s.settlement.openRecord = some o → flareSum o.flare 0 = o.flare) →
    t.settlement.openRecord = s.settlement.openRecord
  point : s.allocator.result.creditPoint = s.allocator.base → t.allocator.result.creditPoint = t.allocator.base

theorem Reacts.refl (s : State) : Reacts [] s s :=
  ⟨rfl, fun _ _ _ _ => rfl, fun _ => ⟨rfl, rfl, rfl⟩, fun _ _ => rfl, nofun, rfl, fun _ _ => rfl, id⟩

/-- A reaction that moves neither a consumer's lasting fields nor its recovery delay. -/
theorem Reacts.of_plain (rest : t = { s with
      field := { s.field with channels := t.field.channels }
      allocator := { t.allocator with base := s.allocator.base }
      supervisor := { s.supervisor with consumers := t.supervisor.consumers }
      links := { s.links with notices := t.links.notices }
      lines := t.lines })
    (notices : ∀ (p : Fin 3) (j : Fin 10), j ≠ clsShed → j ≠ clsGrant → t.links.notices[p][j] = s.links.notices[p][j])
    (record : ∀ c, lasting (consumer t c) = lasting (consumer s c))
    (point : t.allocator.result.creditPoint = s.allocator.result.creditPoint) : Reacts [] s t := by
  have settlement : t.settlement = s.settlement := by rw [rest]
  have base : t.allocator.base = s.allocator.base := by rw [rest]
  simp only [lasting, Prod.mk.injEq] at record
  refine ⟨?_, notices, fun c => ⟨(record c).1, (record c).2.1, (record c).2.2.1⟩, fun c _ => (record c).2.2.2, nofun, by rw [settlement],
    fun _ _ => by rw [settlement], fun standing => by rw [point, base, standing]⟩
  rw [settlement]
  exact rest

/-- What of a state neither a reaction nor the contract, the settlement and the notices enter into. -/
def surroundings (s : State) : State :=
  { s with
    field := { s.field with channels := Vector.replicate 16 freshChannel }
    allocator := { freshAllocator 0 with base := s.allocator.base }
    supervisor := { s.supervisor with consumers := Vector.replicate 8 (freshConsumer 0 false) }
    contracts := coldContracts
    settlement := coldSettlement
    links := { s.links with notices := Vector.replicate 3 (Vector.replicate 10 clearNotice) }
    lines := lowLines }

/-- The fields of the surroundings, one by one. -/
structure Around (s t : State) : Prop where
  power : t.power = s.power
  freeIndex : t.freeIndex = s.freeIndex
  arrival : t.field.arrivalBase = s.field.arrivalBase
  samples : t.field.samples = s.field.samples
  metering : t.metering = s.metering
  band : t.band = s.band
  base : t.allocator.base = s.allocator.base
  supervised : t.supervisor.base = s.supervisor.base
  exports : t.exports = s.exports
  store : t.store = s.store
  ports : t.links.ports = s.links.ports
  masks : t.links.masks = s.links.masks
  pending : t.pending = s.pending

theorem around_of_surroundings (h : surroundings t = surroundings s) : Around s t := by
  have part {α : Type} (f : State → α) : f (surroundings t) = f (surroundings s) := congrArg f h
  exact ⟨part (·.power), part (·.freeIndex), part (·.field.arrivalBase), part (·.field.samples), part (·.metering),
    part (·.band), part (·.allocator.base), part (·.supervisor.base), part (·.exports), part (·.store),
    part (·.links.ports), part (·.links.masks), part (·.pending)⟩

theorem Reacts.around {L : List (Fin 8)} (h : Reacts L s t) : surroundings t = surroundings s := by
  rw [h.rest]
  rfl

theorem Reacts.contracts {L : List (Fin 8)} (h : Reacts L s t) : t.contracts = s.contracts := by rw [h.rest]

theorem Reacts.store {L : List (Fin 8)} (h : Reacts L s t) : t.store = s.store := by rw [h.rest]

theorem Reacts.isAuto {L : List (Fin 8)} (h : Reacts L s t) (c : Fin 8) : isAuto t c = isAuto s c :=
  flagItem_eq h.contracts _

theorem Reacts.trans {L L' : List (Fin 8)} (first : Reacts L s t) (second : Reacts L' t u) : Reacts (L ++ L') s u := by
  have auto := first.isAuto
  obtain ⟨rest, notices, record, timer, stopped, isOpen, credited, point⟩ := first
  obtain ⟨rest', notices', record', timer', stopped', isOpen', credited', point'⟩ := second
  refine ⟨?_, fun p j shed grant => (notices' p j shed grant).trans (notices p j shed grant),
    fun c => ?_, fun c out => ?_, fun c within manual => ?_, isOpen'.trans isOpen,
    fun standing none => ?_, fun standing => point' (point standing)⟩
  · rw [rest] at rest'
    exact rest'
  · obtain ⟨count, mark, nomination⟩ := record c
    obtain ⟨count', mark', nomination'⟩ := record' c
    exact ⟨count'.trans count, mark'.trans mark, nomination'.trans nomination⟩
  · rw [List.mem_append, not_or] at out
    exact (timer' c out.2).trans (timer c out.1)
  · by_cases later : c ∈ L'
    · exact stopped' c later ((auto c).trans manual)
    · rw [timer' c later]
      exact stopped c ((List.mem_append.1 within).resolve_right later) manual
  · have same := credited standing none
    exact (credited' (point standing) fun o is => none o (by rw [← same]; exact is)).trans same

/-! ## Each reaction -/

theorem reacts_setConsumer {c : Fin 8} {r : Consumer} (same : lasting r = lasting (consumer s c)) :
    Reacts [] s (setConsumer c r s) := by
  refine .of_plain rfl (fun _ _ _ _ => rfl) (fun d => ?_) rfl
  by_cases h : d = c
  · subst h
    rw [consumer_setConsumer_same]
    exact same
  · rw [consumer_setConsumer_ne h]

theorem reacts_evaluate (c : Fin 8) (s : State) : Reacts [] s (evaluate c s) :=
  reacts_setConsumer rfl

theorem reacts_setResult {r : Allocation} (point : r.creditPoint = s.allocator.result.creditPoint) : Reacts [] s (setResult r s) :=
  .of_plain rfl (fun _ _ _ _ => rfl) (fun _ => rfl) point

theorem reacts_raiseNotice (ps : PartySet) {k : Fin 10} (d : Detail) (s : State) (reaction : k = clsShed ∨ k = clsGrant) :
    Reacts [] s (raiseNotice ps k d s) := by
  have told := (raiseNotice_otherNotices ps k d s).2.2
  have frame := raiseNotice_frame ps k d s
  generalize raiseNotice ps k d s = t at told frame
  have supervisor : t.supervisor = s.supervisor := by rw [frame]
  refine .of_plain (by rw [frame]) (fun p j shed grant => told p j fun same => ?_)
    (fun c => by rw [consumer, supervisor, consumer]) (by rw [frame])
  rcases reaction with rfl | rfl
  · exact shed same
  · exact grant same

theorem reacts_lowerGrant (c : Fin 8) (kw : Nat) (s : State) : Reacts [] s (lowerGrant c kw s) := by
  unfold lowerGrant
  split
  · exact (reacts_setResult (by exact rfl)).trans (reacts_raiseNotice _ _ _ (.inr rfl))
  · exact .refl s

theorem reacts_cutGrant (c : Fin 8) (s : State) : Reacts [] s (cutGrant c s) := by
  unfold cutGrant
  split
  · exact (reacts_lowerGrant ..).trans (reacts_evaluate ..)
  · exact .refl s

theorem Reacts.foldl {α : Type} {f : State → α → State} (step : ∀ s a, Reacts [] s (f s a)) (l : List α) (s : State) :
    Reacts [] s (l.foldl f s) :=
  foldl_induct (fun t => Reacts [] s t) _ _ (fun t a _ h => h.trans (step t a)) _ (.refl s)

theorem reacts_cutLinked (s : State) : Reacts [] s (cutLinked s) :=
  Reacts.foldl (fun s c => by
    split
    · exact reacts_cutGrant c s
    · exact .refl s) _ s

theorem reacts_trigger (s : State) : Reacts [] s (trigger s) := .of_plain rfl (fun _ _ _ _ => rfl) (fun _ => rfl) rfl

theorem reacts_takeTrigger (s : State) : Reacts [] s (takeTrigger s) :=
  .of_plain rfl (fun _ _ _ _ => rfl) (fun _ => rfl) rfl

theorem reacts_setChannel (ch : Fin 16) (r : PulseChannel) (s : State) : Reacts [] s (setChannel ch r s) :=
  .of_plain rfl (fun _ _ _ _ => rfl) (fun _ => rfl) rfl

theorem reacts_evaluateSome (c : Option (Fin 8)) (s : State) : Reacts [] s (evaluateSome c s) := by
  cases c with
  | none => exact .refl s
  | some c => exact reacts_evaluate c s

theorem reacts_expireFlow (ch : Fin 16) (s : State) : Reacts [] s (expireFlow ch s) :=
  (reacts_setChannel ..).trans (reacts_evaluateSome ..)

theorem reacts_zeroFlowItemChanged (i : Item) (s : State) : Reacts [] s (zeroFlowItemChanged i s) := by
  unfold zeroFlowItemChanged
  split
  · split
    · exact reacts_expireFlow _ s
    · exact .refl s
  · exact .refl s

/-! ## An allocation event -/

theorem lasting_restored (s : State) (c : Fin 8) : lasting (restored s c) = lasting (consumer s c) := rfl

theorem lasting_plan (a : Nat) (s : State) (c : Fin 8) : lasting (consumer (plan a s).state c) = lasting (consumer s c) := by
  have first : lasting (consumer (reserve a s).state c) = lasting (consumer s c) := by rw [(consumer_reserve a s c).1]; rfl
  have second : lasting (consumer (afterShedding a s).1 c) = lasting (consumer s c) := by
    have spec := afterShedding_spec a s c
    split at spec
    · rw [spec.1, ← first, shedRecord]
      split <;> rfl
    · rw [spec.1, first]
  obtain ⟨isRestored, left⟩ := plan_record a s c
  by_cases restores : IsRestored a s c
  · rw [isRestored restores, lasting_restored, second]
  · rw [left restores, second]

theorem reserve_base (a : Nat) (s : State) : (reserve a s).state.supervisor.base = s.supervisor.base :=
  foldl_keeps (fun x : Reserving => x.state.supervisor.base) _ (fun _ _ => by unfold reserveOne; split <;> rfl) _ _

theorem shedding_base (a : Nat) (s : State) : (shedding a s).1.supervisor.base = s.supervisor.base :=
  foldl_keeps (fun x : State × List (Fin 8) => x.1.supervisor.base) _ (fun _ _ => by unfold shedOne; split <;> rfl) _ _

theorem plan_base (a : Nat) (s : State) : (plan a s).state.supervisor.base = s.supervisor.base := by
  have shed : (afterShedding a s).1.supervisor.base = s.supervisor.base := by
    unfold afterShedding
    split
    · exact (shedding_base ..).trans (reserve_base a s)
    · exact reserve_base a s
  rw [plan_eq]
  generalize afterShedding a s = x at shed
  split
  · exact shed
  · unfold planServed
    split
    · exact shed
    · exact shed

theorem reacts_applyPlan (s : State) : Reacts [] s (applyPlan (plan (availableRate s) s) s) := by
  obtain ⟨sup, ln, moved⟩ := planned_frame s (availableRate s)
  have record := lasting_plan (availableRate s) s
  have base := plan_base (availableRate s) s
  generalize plan (availableRate s) s = p at moved record base ⊢
  refine .of_plain ?_ (fun q j _ _ => ?_) record rfl
  · unfold applyPlan
    rw [moved] at base ⊢
    simp only at base
    simp only [startPeriod, setFlare, setResult, ← base]
  · show p.state.links.notices[q][j] = _
    rw [moved]

theorem reacts_eventNotices (p : Plan) (old : Vector Nat 8) (s : State) : Reacts [] s (eventNotices p old s) := by
  refine (Reacts.foldl (fun s c => ?_) _ s).trans (Reacts.foldl (fun s c => ?_) _ _)
  · split
    · exact reacts_raiseNotice _ _ _ (.inl rfl)
    · split
      · exact reacts_raiseNotice _ _ _ (.inl rfl)
      · exact .refl s
  · split
    · exact reacts_raiseNotice _ _ _ (.inr rfl)
    · exact .refl s

theorem reacts_eventEvaluations (p : Plan) (before s : State) : Reacts [] s (eventEvaluations p before s) :=
  Reacts.foldl (fun s c => by
    split
    · exact reacts_evaluate c s
    · exact .refl s) _ s

theorem reacts_runStages (s : State) : Reacts [] s (runStages s) := by
  have applied := reacts_applyPlan s
  unfold runStages
  generalize plan (availableRate s) s = p at applied ⊢
  exact (applied.trans (reacts_eventNotices ..)).trans (reacts_eventEvaluations ..)

theorem reacts_creditFlare (clean : s.store.errors = []) : Reacts [] s (creditFlare s) := by
  unfold creditFlare
  dsimp only
  rw [onOpen_clean clean]
  refine ⟨rfl, fun _ _ _ _ => rfl, fun _ => ⟨rfl, rfl, rfl⟩, fun _ _ => rfl, nofun, ?_, fun standing none => ?_, fun _ => rfl⟩
  · simp only [setResult_settlement, Option.map_map]
    rfl
  · simp only [setResult_settlement, standing, Nat.sub_self, Nat.zero_div, Nat.mul_zero]
    cases is : s.settlement.openRecord with
    | none => rfl
    | some o => simp only [Option.map_some, none o is]

theorem reacts_allocationEvent (clean : s.store.errors = []) : Reacts [] s (allocationEvent s) := by
  rw [allocationEvent_clean clean]
  exact (reacts_creditFlare clean).trans (reacts_runStages _)

theorem reacts_takeTriggers (n : Nat) (clean : s.store.errors = []) : Reacts [] s (takeTriggers n s) := by
  induction n generalizing s with
  | zero => exact .refl s
  | succ n ih =>
    unfold takeTriggers
    split
    · exact .refl s
    · have event := (reacts_takeTrigger s).trans (reacts_allocationEvent (s := takeTrigger s) clean)
      exact event.trans (ih (by rw [event.store, clean]))

theorem reacts_settle (clean : s.store.errors = []) : Reacts [] s (settle s) := reacts_takeTriggers _ clean

/-! ## Items put in force (R100, R117) -/

/-- The consumers whose recovery mode an item is. -/
def modeOf : Item → List (Fin 8)
  | .consumer c k => if k = cRecoveryMode then [c] else []
  | _ => []

theorem reacts_recoveryTimer (c : Fin 8) {timer : Option Timer} (manual : isAuto s c = false → timer = none) :
    Reacts [c] s (setConsumer c { consumer s c with recoveryTimer := timer } s) := by
  have own : consumer (setConsumer c { consumer s c with recoveryTimer := timer } s) c =
      { consumer s c with recoveryTimer := timer } := consumer_setConsumer_same ..
  have others (d : Fin 8) (h : d ≠ c) := consumer_setConsumer_ne h { consumer s c with recoveryTimer := timer } s
  refine ⟨rfl, fun _ _ _ _ => rfl, fun d => ?_, fun d out => ?_, fun d within => ?_, rfl, fun _ _ => rfl, id⟩
  · by_cases h : d = c
    · subst h
      rw [own]
      exact ⟨rfl, rfl, rfl⟩
    · rw [others d h]
      exact ⟨rfl, rfl, rfl⟩
  · rw [others d (List.ne_of_not_mem_cons out)]
  · obtain rfl := List.mem_singleton.1 within
    rw [own]
    exact manual

theorem reacts_recoveryMode (c : Fin 8) (s : State) :
    Reacts [c] s (if isAuto s c then startRecovery c s else setConsumer c { consumer s c with recoveryTimer := none } s) := by
  split
  next auto =>
    have manual (timer : Option Timer) : isAuto s c = false → timer = none := fun h => absurd auto (by simp [h])
    unfold startRecovery
    split
    · exact reacts_recoveryTimer c (manual _)
    · have same := reacts_recoveryTimer c (manual (consumer s c).recoveryTimer)
      rwa [show { consumer s c with recoveryTimer := (consumer s c).recoveryTimer } = consumer s c from rfl,
        setConsumer_self] at same
  next => exact reacts_recoveryTimer c fun _ => rfl

theorem reacts_consumerItemChanged (c : Fin 8) (k : Fin 23) (s : State) :
    Reacts (modeOf (.consumer c k)) s (consumerItemChanged c k s) := by
  have cut : Reacts [] s (if k = cCeiling ∨ k = cHardCeiling ∨ k = cLinked then cutGrant c s else s) := by
    split
    · exact reacts_cutGrant c s
    · exact .refl s
  unfold consumerItemChanged modeOf
  dsimp only
  generalize (if k = cCeiling ∨ k = cHardCeiling ∨ k = cLinked then cutGrant c s else s) = u at cut ⊢
  split
  · have moded := (cut.trans (reacts_recoveryMode c u)).trans (reacts_evaluate c _)
    exact moded
  · exact cut.trans (reacts_evaluate c u)

theorem reacts_itemChanged (i : Item) (s : State) : Reacts (modeOf i) s (itemChanged i s) := by
  have first := reacts_zeroFlowItemChanged i s
  unfold itemChanged
  generalize zeroFlowItemChanged i s = u at first
  dsimp only
  split
  · exact first.trans (reacts_consumerItemChanged _ _ u)
  · split
    · exact first.trans (reacts_trigger u)
    · exact first
  · split
    · exact first.trans (reacts_cutLinked u)
    · exact first
  next plain _ _ =>
    cases i with
    | consumer c k => exact (plain c k rfl).elim
    | _ => exact first

theorem reacts_itemsChanged (changes : List (Item × Int)) (s : State) :
    Reacts (changes.flatMap fun ch => modeOf ch.1) s (changes.foldl (fun s ch => itemChanged ch.1 s) s) := by
  induction changes generalizing s with
  | nil => exact .refl s
  | cons ch rest ih => exact (reacts_itemChanged ch.1 s).trans (ih _)

/-- The contract with new values in place, before any block has acted on them (R134). -/
def withValues (changes : List (Item × Int)) (s : State) : State :=
  { s with contracts := { s.contracts with contract := withChanges s.contracts.contract changes } }

theorem setItems_clean (clean : s.store.errors = []) (changes : List (Item × Int)) :
    changes.foldl (fun s ch => setItem ch.1 ch.2 s) s = withValues changes s := by
  induction changes generalizing s with
  | nil => rfl
  | cons ch rest ih =>
    rw [List.foldl_cons, setItem_clean clean, ih (by exact clean)]
    rfl

theorem reacts_putInForce (clean : s.store.errors = []) (changes : List (Item × Int)) :
    Reacts (changes.flatMap fun ch => modeOf ch.1) (withValues changes s) (putInForce changes s) := by
  unfold putInForce
  rw [setItems_clean clean]
  exact reacts_itemsChanged changes _

/-! ## States stand -/

/-- No consumer enters another state. -/
def StatesStand (s t : State) : Prop := ∀ c, (consumer t c).state = (consumer s c).state

theorem StatesStand.trans (first : StatesStand s t) (second : StatesStand t u) : StatesStand s u :=
  fun c => (second c).trans (first c)

theorem StatesStand.foldl {α : Type} {f : State → α → State} (step : ∀ s a, StatesStand s (f s a)) (l : List α) (s : State) :
    StatesStand s (l.foldl f s) :=
  foldl_induct (fun t => StatesStand s t) _ _ (fun t a _ h => h.trans (step t a)) _ fun _ => rfl

theorem states_setConsumer {c : Fin 8} {r : Consumer} (same : r.state = (consumer s c).state) :
    StatesStand s (setConsumer c r s) := fun d => by
  by_cases h : d = c
  · subst h
    rw [consumer_setConsumer_same, same]
  · rw [consumer_setConsumer_ne h]

theorem states_evaluate (c : Fin 8) (s : State) : StatesStand s (evaluate c s) := states_setConsumer rfl

theorem states_cutGrant (c : Fin 8) (s : State) : StatesStand s (cutGrant c s) := fun d => by
  have cut := cutGrant_cut c s
  by_cases h : d = c
  · subst h
    rw [cut.record, withTimers_state]
  · rw [cut.others d h]

theorem states_cutLinked (s : State) : StatesStand s (cutLinked s) :=
  StatesStand.foldl (fun s c => by
    split
    · exact states_cutGrant c s
    · exact fun _ => rfl) _ s

theorem states_startRecovery (c : Fin 8) (s : State) : StatesStand s (startRecovery c s) := by
  unfold startRecovery
  split
  · exact states_setConsumer rfl
  · exact fun _ => rfl

theorem states_zeroFlowItemChanged (i : Item) (s : State) : StatesStand s (zeroFlowItemChanged i s) := by
  have expired (ch : Fin 16) : StatesStand s (expireFlow ch s) := by
    unfold expireFlow evaluateSome
    split
    · exact fun _ => rfl
    · exact StatesStand.trans (t := setChannel ch { freshChannel with noise := (channel s ch).noise } s) (fun _ => rfl)
        (states_evaluate _ _)
  unfold zeroFlowItemChanged
  split
  · split
    · exact expired _
    · exact fun _ => rfl
  · exact fun _ => rfl

theorem states_consumerItemChanged (c : Fin 8) (k : Fin 23) (s : State) : StatesStand s (consumerItemChanged c k s) := by
  have cut : StatesStand s (if k = cCeiling ∨ k = cHardCeiling ∨ k = cLinked then cutGrant c s else s) := by
    split
    · exact states_cutGrant c s
    · exact fun _ => rfl
  unfold consumerItemChanged
  dsimp only
  generalize (if k = cCeiling ∨ k = cHardCeiling ∨ k = cLinked then cutGrant c s else s) = u at cut ⊢
  refine cut.trans (.trans ?_ (states_evaluate c _))
  split
  · split
    · exact states_startRecovery c u
    · exact states_setConsumer rfl
  · exact fun _ => rfl

theorem states_itemChanged (i : Item) (s : State) : StatesStand s (itemChanged i s) := by
  have first := states_zeroFlowItemChanged i s
  unfold itemChanged
  generalize zeroFlowItemChanged i s = u at first
  dsimp only
  split
  · exact first.trans (states_consumerItemChanged _ _ u)
  · split
    · exact first
    · exact first
  · split
    · exact first.trans (states_cutLinked u)
    · exact first
  · exact first

theorem states_putInForce (clean : s.store.errors = []) (changes : List (Item × Int)) :
    StatesStand s (putInForce changes s) := by
  unfold putInForce
  rw [setItems_clean clean]
  exact StatesStand.foldl (fun s (ch : Item × Int) => states_itemChanged ch.1 s) changes (withValues changes s)

end Sys2Proof.Proofs.Reactions
end

section
/-! The application of the STAGED entries at a boundary (R99, R134, R135): what one entry does by its fate, and what the table does
as a whole. -/

namespace Sys2Proof.Proofs.Application
open Sys2Proof Sys2Proof.Machine Sys2Proof.Proofs.Notice Sys2Proof.Proofs.Trips Sys2Proof.Proofs.Event
  Sys2Proof.Proofs.Fields Sys2Proof.Proofs.Upkeep Sys2Proof.Proofs.Reactions

variable {s t u : State}

/-! ## Damage marks (R99) -/

theorem clearDamageMark_clean (clean : s.store.errors = []) (c : Fin 8) :
    clearDamageMark c s = setConsumer c { consumer s c with damageMark := false } s := by
  exact wrote_clean (s := setConsumer c { consumer s c with damageMark := false } s) clean _

/-- A consumer is named by one of the changes. -/
def named (changes : List (Item × Int)) (c : Fin 8) : Bool := changes.any fun ch => itemConsumer ch.1 == some c

/-- The consumers whose items change lose their damage marks, and nothing else moves. -/
theorem clearDamageMarks_clean (clean : s.store.errors = []) (changes : List (Item × Int)) :
    clearDamageMarks changes s = { s with supervisor := (clearDamageMarks changes s).supervisor } ∧
    surroundings (clearDamageMarks changes s) = surroundings s ∧
    ∀ c, consumer (clearDamageMarks changes s) c =
      { consumer s c with damageMark := (consumer s c).damageMark && !named changes c } := by
  induction changes generalizing s with
  | nil => exact ⟨rfl, rfl, fun c => by simp [clearDamageMarks, named]⟩
  | cons ch rest ih =>
    have skip (c : Fin 8) (other : itemConsumer ch.1 ≠ some c) : named (ch :: rest) c = named rest c := by
      simp [named, other]
    have mark (c : Fin 8) (own : itemConsumer ch.1 = some c) : named (ch :: rest) c = true := by
      simp [named, own]
    unfold clearDamageMarks
    rw [List.foldl_cons]
    change _ = { s with supervisor := (clearDamageMarks rest _).supervisor } ∧ _ ∧ ∀ c, consumer (clearDamageMarks rest _) c = _
    split
    next d own =>
      rw [clearDamageMark_clean clean]
      obtain ⟨frame, outside, record⟩ := ih (s := setConsumer d { consumer s d with damageMark := false } s) clean
      refine ⟨frame, outside, fun c => ?_⟩
      rw [record]
      by_cases h : c = d
      · subst h
        rw [consumer_setConsumer_same, mark c own]
        simp
      · rw [consumer_setConsumer_ne h, skip c (by rw [own]; exact fun same => h (Option.some.inj same).symm)]
    next none =>
      obtain ⟨frame, outside, record⟩ := ih clean
      refine ⟨frame, outside, fun c => ?_⟩
      rw [record, skip c (by rw [none]; nofun)]

/-! ## One entry of the table -/

/-- What stays in the table of the entries taken. -/
def leftOf (fs : List (Proposal × Fate)) : List Proposal :=
  fs.filterMap fun x =>
    match x.2 with
    | .kept => some x.1
    | .deferred => some { x.1 with deferred := true }
    | .discarded => none
    | .applied => none

/-- The application has gone from `x` to `y` by taking the entries `fs`. -/
structure Takes (fs : List (Proposal × Fate)) (x y : Applying) : Prop where
  around : surroundings y.state = surroundings x.state
  contracts : y.state.contracts = { x.state.contracts with
    contract := withChanges x.state.contracts.contract (appliedItems fs) }
  settlement : y.state.settlement = x.state.settlement
  kept : y.kept = x.kept ++ leftOf fs
  applied : y.applied = (x.applied || fs.any fun f => f.2 == .applied)
  told : ∀ p : Party, y.state.links.notices[partyIndex p][clsProposal] =
    toldOf p fs x.state.links.notices[partyIndex p][clsProposal]
  notices : ∀ (p : Fin 3) (j : Fin 10), j ≠ clsShed → j ≠ clsGrant → j ≠ clsProposal →
    y.state.links.notices[p][j] = x.state.links.notices[p][j]
  states : StatesStand x.state y.state
  record : ∀ c, (consumer y.state c).recoveryCount = (consumer x.state c).recoveryCount ∧
    (consumer y.state c).damageMark = ((consumer x.state c).damageMark && !named (appliedItems fs) c)
  timer : ∀ c, (∀ ch ∈ appliedItems fs, ch.1 ≠ .consumer c cRecoveryMode) →
    (consumer y.state c).recoveryTimer = (consumer x.state c).recoveryTimer ∧ isAuto y.state c = isAuto x.state c
  /-- In MANUAL no delay runs that ran in AUTO (R97). -/
  stopped : ∀ c, isAuto y.state c = false → (isAuto x.state c = true ∨ (consumer x.state c).recoveryTimer = none) →
    (consumer y.state c).recoveryTimer = none
  point : x.state.allocator.result.creditPoint = x.state.allocator.base →
    y.state.allocator.result.creditPoint = y.state.allocator.base

theorem withChanges_append (k : Contract) (l l' : List (Item × Int)) :
    withChanges k (l ++ l') = withChanges (withChanges k l) l' := List.foldl_append ..

theorem appliedItems_append (fs gs : List (Proposal × Fate)) : appliedItems (fs ++ gs) = appliedItems fs ++ appliedItems gs :=
  List.flatMap_append ..

theorem toldOf_append (p : Party) (fs gs : List (Proposal × Fate)) (n : NoticeRecord) :
    toldOf p (fs ++ gs) n = toldOf p gs (toldOf p fs n) := List.foldl_append ..

theorem Takes.trans {fs gs : List (Proposal × Fate)} {x y z : Applying} (first : Takes fs x y) (second : Takes gs y z) :
    Takes (fs ++ gs) x z := by
  obtain ⟨around, contracts, settlement, kept, applied, told, notices, states, record, timer, stopped, point⟩ := first
  obtain ⟨around', contracts', settlement', kept', applied', told', notices', states', record', timer', stopped', point'⟩ := second
  refine ⟨around'.trans around, ?_, settlement'.trans settlement, ?_, ?_, fun p => ?_, fun p j shed grant proposal => ?_,
    states.trans states', fun c => ?_, fun c plain => ?_,
    fun c manual ran => ?_, fun standing => point' (point standing)⟩
  · rw [contracts', contracts, appliedItems_append, withChanges_append]
  · rw [kept', kept, List.append_assoc, leftOf, leftOf, ← List.filterMap_append]
    rfl
  · rw [applied', applied, List.any_append, Bool.or_assoc]
  · rw [told', told, toldOf_append]
  · rw [notices' p j shed grant proposal, notices p j shed grant proposal]
  · obtain ⟨count, mark⟩ := record c
    obtain ⟨count', mark'⟩ := record' c
    refine ⟨count'.trans count, ?_⟩
    rw [mark', mark, appliedItems_append, named, named, named, List.any_append, Bool.not_or, Bool.and_assoc]
  · simp only [appliedItems_append, List.mem_append] at plain
    obtain ⟨same, auto⟩ := timer c fun ch member => plain ch (.inl member)
    obtain ⟨same', auto'⟩ := timer' c fun ch member => plain ch (.inr member)
    exact ⟨same'.trans same, auto'.trans auto⟩
  · refine stopped' c manual ?_
    by_cases auto : isAuto y.state c = true
    · exact .inl auto
    · exact .inr (stopped c (Bool.eq_false_iff.2 auto) ran)

/-- An entry whose fate touches nothing but the table. -/
theorem takes_left {e : Proposal} {f : Fate} {x : Applying} {l : List Proposal} (left : leftOf [(e, f)] = l)
    (other : f ≠ .applied) (quiet : f ≠ .discarded) : Takes [(e, f)] x { x with kept := x.kept ++ l } := by
  have none : appliedItems [(e, f)] = [] := by simp [appliedItems, other]
  refine ⟨rfl, by rw [none]; rfl, rfl, by rw [left], by simp [other], fun p => ?_, fun _ _ _ _ _ => rfl, fun _ => rfl,
    fun c => ⟨rfl, by simp [none, named]⟩, fun c _ => ⟨rfl, rfl⟩, fun c manual ran => ran.resolve_left (by simp [manual]), id⟩
  cases f <;> simp_all [toldOf]

theorem isAuto_eq_of_contract (h : t.contracts.contract = s.contracts.contract) (c : Fin 8) : isAuto t c = isAuto s c := by
  unfold isAuto flagItem
  rw [item_eq h]

/-- A PROPOSAL notice, as an occurrence for each party of the entry (R132). -/
theorem told_noticeProposal (e : Proposal) (o : Outcome) (s : State) (p : Party) :
    (noticeProposal e o s).links.notices[partyIndex p][clsProposal] =
      if hasParty (addParty e.parties e.proposer) p then
        addOccurrence (.proposal e.number o) s.links.notices[partyIndex p][clsProposal]
      else s.links.notices[partyIndex p][clsProposal] := by
  rw [noticeProposal, notices_raiseNotice]
  simp

theorem appliedItems_discarded (e : Proposal) : appliedItems [(e, .discarded)] = [] := rfl

theorem appliedItems_applied (e : Proposal) : appliedItems [(e, .applied)] = heldItems e.items := List.append_nil _

theorem noticeProposal_frame (e : Proposal) (o : Outcome) (s : State) : noticeProposal e o s = { s with
    links := { s.links with notices := (noticeProposal e o s).links.notices }
    lines := { s.lines with attn := (noticeProposal e o s).lines.attn } } := raiseNotice_frame ..

theorem noticeProposal_others (e : Proposal) (o : Outcome) (s : State) (p : Fin 3) {j : Fin 10} (other : j ≠ clsProposal) :
    (noticeProposal e o s).links.notices[p][j] = s.links.notices[p][j] :=
  (raiseNotice_otherNotices _ clsProposal _ s).2.2 p j other

theorem takes_discarded (e : Proposal) (x : Applying) :
    Takes [(e, .discarded)] x { x with state := noticeProposal e .discarded x.state } := by
  have frame := noticeProposal_frame e .discarded x.state
  have told := told_noticeProposal e .discarded x.state
  have others := @noticeProposal_others e .discarded x.state
  generalize noticeProposal e .discarded x.state = t at frame told others
  have record : ∀ c, consumer t c = consumer x.state c := consumer_eq (by rw [frame])
  have auto (c : Fin 8) : isAuto t c = isAuto x.state c := isAuto_eq_of_contract (by rw [frame]) c
  refine ⟨by rw [frame]; rfl, by rw [frame]; rfl, by rw [frame], (List.append_nil _).symm, (Bool.or_false _).symm, fun p => (told p).trans ?_,
    fun p j _ _ other => others p other, fun c => by rw [record], fun c => ?_, fun c _ => ⟨by rw [record], auto c⟩,
    fun c manual ran => ?_, fun standing => by rw [frame]; exact standing⟩
  · simp [toldOf]
  · rw [record, appliedItems_discarded]
    simp [named]
  · rw [record]
    exact ran.resolve_left (by rw [← auto c, manual]; nofun)

/-- A change of a consumer's recovery mode is among the changes. -/
theorem mem_modes {changes : List (Item × Int)} {c : Fin 8} :
    c ∈ changes.flatMap (fun ch => modeOf ch.1) ↔ ∃ ch ∈ changes, ch.1 = .consumer c cRecoveryMode := by
  have one (i : Item) : c ∈ modeOf i ↔ i = .consumer c cRecoveryMode := by
    cases i with
    | consumer d k =>
      by_cases mode : k = cRecoveryMode
      · simp [modeOf, mode, eq_comm]
      · simp [modeOf, mode]
    | _ => simp [modeOf]
  simp only [List.mem_flatMap, one]

theorem isAuto_withChanges {changes : List (Item × Int)} {c : Fin 8}
    (plain : ∀ ch ∈ changes, ch.1 ≠ .consumer c cRecoveryMode) (s : State) :
    isAuto (withValues changes s) c = isAuto s c := by
  have same (k : Contract) : readItem (withChanges k changes) (.consumer c cRecoveryMode) =
      readItem k (.consumer c cRecoveryMode) := by
    induction changes generalizing k with
    | nil => rfl
    | cons ch rest ih =>
      refine (ih (fun ch member => plain ch (List.mem_cons_of_mem _ member)) _).trans ?_
      exact readItem_writeItem_ne k (plain ch (List.mem_cons_self ..)).symm _
  unfold isAuto flagItem item
  rw [withValues, same]

theorem takes_applied (e : Proposal) {x : Applying} (clean : x.state.store.errors = []) :
    Takes [(e, .applied)] x { x with
      state := noticeProposal e .applied (clearDamageMarks (heldItems e.items) (putInForce (heldItems e.items) x.state))
      applied := true } := by
  generalize items : heldItems e.items = changes
  have reacted := reacts_putInForce clean changes
  have settled := putInForce_settlement (s := x.state) changes
  have standing := states_putInForce clean changes
  generalize putInForce changes x.state = v at reacted settled standing
  obtain ⟨cleared, outside, marks⟩ := clearDamageMarks_clean (s := v) (by rw [reacted.store]; exact clean) changes
  generalize clearDamageMarks changes v = w at cleared outside marks
  have frame := noticeProposal_frame e .applied w
  have told := told_noticeProposal e .applied w
  have others := @noticeProposal_others e .applied w
  generalize noticeProposal e .applied w = t at frame told others
  have record : ∀ c, consumer t c = { consumer v c with damageMark := (consumer v c).damageMark && !named changes c } :=
    fun c => (consumer_eq (by rw [frame]) c).trans (marks c)
  have contract : t.contracts = { x.state.contracts with
      contract := withChanges x.state.contracts.contract changes } := by
    rw [frame, cleared]
    exact reacted.contracts
  have auto (c : Fin 8) : isAuto t c = isAuto (withValues changes x.state) c := isAuto_eq_of_contract (by rw [contract]; rfl) c
  have links : w.links = v.links := by rw [cleared]
  have left : appliedItems [(e, .applied)] = changes := (appliedItems_applied e).trans items
  rw [links] at told others
  have around : surroundings t = surroundings x.state := by
    refine Eq.trans ?_ reacted.around
    rw [frame]
    exact outside
  have settlement : t.settlement = x.state.settlement := by
    rw [frame, cleared]
    exact settled
  refine ⟨around, by rw [left]; exact contract, settlement, (List.append_nil _).symm, (Bool.or_true _).symm, fun p => (told p).trans ?_,
    fun p j shed grant other => (others p other).trans (reacted.notices p j shed grant), fun c => ?_, fun c => ?_,
    fun c plain => ?_, fun c manual ran => ?_, fun point => ?_⟩
  · rw [reacted.notices _ _ (by decide) (by decide)]
    simp [toldOf, withValues]
  · rw [record]
    exact standing c
  · obtain ⟨count, mark, -⟩ := reacted.record c
    rw [record, left]
    exact ⟨count, congrArg (· && !named changes c) mark⟩
  · rw [left] at plain
    have out : c ∉ changes.flatMap (fun ch => modeOf ch.1) := fun within =>
      let ⟨ch, member, same⟩ := mem_modes.1 within
      plain ch member same
    rw [auto, isAuto_withChanges plain, record]
    exact ⟨reacted.timer c out, rfl⟩
  · rw [auto] at manual
    rw [record]
    by_cases within : c ∈ changes.flatMap (fun ch => modeOf ch.1)
    · exact reacted.stopped c within manual
    · have plain : ∀ ch ∈ changes, ch.1 ≠ .consumer c cRecoveryMode := fun ch member same =>
        within (mem_modes.2 ⟨ch, member, same⟩)
      rw [isAuto_withChanges plain] at manual
      exact (reacted.timer c within).trans (ran.resolve_left (by rw [manual]; nofun))
  · have allocator : t.allocator = v.allocator := by rw [frame, cleared]
    rw [allocator]
    exact reacted.point point

/-! ## The whole table -/

/-- An entry waits where it carries a structural item of a consumer that is not OFF (R134). -/
theorem mustWait_eq (s : State) (items : List (Item × Int)) : mustWait s items =
    (List.finRange 8).any fun c => ((consumer s c).state != .off) &&
      items.any fun i => isStructural i.1 && itemConsumer i.1 == some c := by
  rw [Bool.eq_iff_iff]
  simp only [mustWait, List.any_eq_true, Bool.and_eq_true, List.mem_finRange, true_and, beq_iff_eq]
  constructor
  · rintro ⟨i, member, structural, busy⟩
    cases own : itemConsumer i.1 with
    | none => simp [own] at busy
    | some c =>
      rw [own] at busy
      exact ⟨c, busy, i, member, structural, own⟩
  · rintro ⟨c, busy, i, member, structural, own⟩
    refine ⟨i, member, structural, ?_⟩
    rw [own]
    exact busy

theorem applyEntry_takes {busy : Fin 8 → Bool} {x : Applying} (clean : x.state.store.errors = [])
    (isBusy : ∀ c, busy c = ((consumer x.state c).state != .off)) (e : Proposal) :
    Takes [(e, fateOf busy x.state.contracts.contract e)] x (applyEntry x e) := by
  have waits : mustWait x.state (heldItems e.items) = (List.finRange 8).any fun c => busy c &&
      (heldItems e.items).any fun i => isStructural i.1 && itemConsumer i.1 == some c := by
    simp only [mustWait_eq, isBusy]
  unfold applyEntry fateOf
  rw [waits]
  split
  · exact takes_left rfl nofun nofun
  · split
    · exact takes_left rfl nofun nofun
    · by_cases fits : consistent x.state.contracts.contract (heldItems e.items) = true
      · rw [fits]
        exact takes_applied e clean
      · rw [Bool.eq_false_iff.2 fits]
        exact takes_discarded e x

theorem Takes.refl (x : Applying) : Takes [] x x :=
  ⟨rfl, rfl, rfl, (List.append_nil _).symm, (Bool.or_false _).symm, fun _ => rfl, fun _ _ _ _ _ => rfl, fun _ => rfl,
    fun c => ⟨rfl, (Bool.and_true _).symm⟩, fun c _ => ⟨rfl, rfl⟩, fun c manual ran => ran.resolve_left (by rw [manual]; nofun), id⟩

theorem applyEntries_takes {busy : Fin 8 → Bool} (l : List Proposal) {x : Applying} (clean : x.state.store.errors = [])
    (isBusy : ∀ c, busy c = ((consumer x.state c).state != .off)) :
    Takes (fates busy x.state.contracts.contract l) x (l.foldl applyEntry x) := by
  induction l generalizing x with
  | nil => exact .refl x
  | cons e rest ih =>
    have first := applyEntry_takes clean isBusy e
    have store : (applyEntry x e).state.store = x.state.store := by
      have same := congrArg State.store first.around
      exact same
    have further := ih (x := applyEntry x e) (by rw [store]; exact clean) fun c => by rw [first.states c, isBusy]
    have base : (applyEntry x e).state.contracts.contract =
        if fateOf busy x.state.contracts.contract e = .applied then
          withChanges x.state.contracts.contract (heldItems e.items)
        else x.state.contracts.contract := by
      rw [first.contracts]
      by_cases applies : fateOf busy x.state.contracts.contract e = .applied <;> simp [appliedItems, applies, withChanges]
    rw [base] at further
    exact first.trans further

/-- The state `t` follows on `s` by the application of the STAGED entries, with the fates `fs` (R99, R132, R134, R135). -/
structure Applied (s t : State) (fs : List (Proposal × Fate)) : Prop where
  around : surroundings t = surroundings s
  settlement : t.settlement = s.settlement
  entries : EntriesTaken s t fs
  told : ∀ p : Party, t.links.notices[partyIndex p][clsProposal] = toldOf p fs s.links.notices[partyIndex p][clsProposal]
  notices : ∀ (p : Fin 3) (j : Fin 10), j ≠ clsShed → j ≠ clsGrant → j ≠ clsProposal →
    t.links.notices[p][j] = s.links.notices[p][j]
  states : StatesStand s t
  count : ∀ c, (consumer t c).recoveryCount = (consumer s c).recoveryCount
  timer : ∀ c, (∀ ch ∈ appliedItems fs, ch.1 ≠ .consumer c cRecoveryMode) →
    (consumer t c).recoveryTimer = (consumer s c).recoveryTimer
  stopped : ∀ c, isAuto s c = true → isAuto t c = false → (consumer t c).recoveryTimer = none
  point : s.allocator.result.creditPoint = s.allocator.base → t.allocator.result.creditPoint = t.allocator.base

theorem any_applied (fs : List (Proposal × Fate)) : (fs.any fun f => f.2 == .applied) = true ↔ ∃ x ∈ fs, x.2 = .applied := by
  simp

theorem applyStaged_applied {busy : Fin 8 → Bool} (clean : s.store.errors = [])
    (isBusy : ∀ c, busy c = ((consumer s c).state != .off)) :
    Applied s (applyStaged s) (fates busy s.contracts.contract s.contracts.proposals) ∧
    (applyEntries s).applied = (fates busy s.contracts.contract s.contracts.proposals).any fun f => f.2 == .applied := by
  have taken := applyEntries_takes (x := { state := s, kept := [], applied := false }) s.contracts.proposals clean isBusy
  generalize fates busy s.contracts.contract s.contracts.proposals = fs at taken ⊢
  change Takes fs _ (applyEntries s) at taken
  unfold applyStaged
  generalize applyEntries s = y at taken
  obtain ⟨around, contracts, settlement, kept, applied, told, notices, states, record, timer, stopped, point⟩ := taken
  have cleanY : y.state.store.errors = [] := by
    have store := congrArg State.store around
    have same : y.state.store = s.store := store
    rw [same, clean]
  simp only [Bool.false_or] at applied
  simp only [List.nil_append] at kept
  have final : (if y.applied then bumpRevision (setProposals y.kept y.state) else setProposals y.kept y.state) =
      { y.state with contracts := { y.state.contracts with
        proposals := leftOf fs
        revision := if ∃ x ∈ fs, x.2 = .applied then (s.contracts.revision + 1) % 4294967296 else s.contracts.revision } } := by
    rw [setProposals_clean cleanY, kept, applied]
    by_cases one : ∃ x ∈ fs, x.2 = .applied
    · rw [if_pos ((any_applied fs).2 one), bumpRevision_clean (by exact cleanY), if_pos one, contracts]
      rfl
    · rw [if_neg fun h => one ((any_applied fs).1 h), if_neg one, contracts]
  dsimp only
  rw [final]
  refine ⟨⟨around, settlement, ⟨by rw [contracts]; rfl, fun c => (record c).2⟩, told, notices, states, fun c => (record c).1,
    fun c plain => (timer c plain).1, fun c auto manual => stopped c manual (.inl auto), point⟩, applied⟩

end Sys2Proof.Proofs.Application
end

section
/-! A settlement boundary part by part, in a store without errors: the credit, the closing, the application, the latch, the opening
and the recovery counts (R98, R108, R147 to R155). -/

namespace Sys2Proof.Proofs.Boundary
open Sys2Proof Sys2Proof.Machine Sys2Proof.Proofs.Notice Sys2Proof.Proofs.Trips Sys2Proof.Proofs.Event
  Sys2Proof.Proofs.Fields Sys2Proof.Proofs.Upkeep Sys2Proof.Proofs.Reactions Sys2Proof.Proofs.Application

variable {s t u : State}

/-! ## The credit and the closing (R65, R151) -/

/-- The state with the flare credited to its open record (R65). -/
def creditedState (s : State) : State :=
  { s with
    allocator := { s.allocator with result := { s.allocator.result with creditPoint := s.allocator.base } }
    settlement := { s.settlement with
      openRecord := s.settlement.openRecord.map fun o => { o with flare := creditedFlare s o } } }

theorem creditFlare_eq (clean : s.store.errors = []) : creditFlare s = creditedState s := by
  unfold creditFlare
  dsimp only
  rw [onOpen_clean clean]
  rfl

theorem passRecord_only (clean : s.store.errors = []) (r : ArchiveRecord) (empty : Bool) (p : Party) :
    passRecord r empty s p = { s with settlement := (passRecord r empty s p).settlement } := by
  unfold passRecord moveCursor
  split
  · rw [setCursor_clean clean]
  · split
    · rw [setCursor_clean clean, setGap_clean (by exact clean)]
    · rfl

theorem setMark_clean (clean : s.store.errors = []) (k : Fin 96) (b : Bool) :
    setMark k b s = { s with store := { s.store with knownDamaged := s.store.knownDamaged.set k b } } := by
  unfold setMark
  exact wrote_clean (by exact clean) _

/-- The ring with a record that has joined it, where no word is in error (R155, R169). -/
theorem writeArchive_eq (clean : s.store.errors = []) (r : ArchiveRecord) : writeArchive r s = { s with
    settlement := joinedRing r s
    store := { s.store with knownDamaged := s.store.knownDamaged.set (placeOf r.number) false } } := by
  have settled := writeArchive_settlement r s
  have passed (t : State) (l : List Party) (cleanT : t.store.errors = []) (b : Bool) :
      l.foldl (passRecord r b) t = { t with settlement := (l.foldl (passRecord r b) t).settlement } := by
    induction l generalizing t with
    | nil => rfl
    | cons p rest ih =>
      have first := passRecord_only cleanT r b p
      rw [List.foldl_cons]
      generalize passRecord r b t p = v at first ⊢
      generalize v.settlement = x at first
      subst first
      exact ih _ cleanT
  rw [← settled]
  unfold writeArchive
  dsimp only
  rw [wrote_clean (by exact clean), setMark_clean (by exact clean)]
  exact passed _ _ (by exact clean) _

theorem setHeatAccount_clean (clean : s.store.errors = []) (a : Account) :
    setHeatAccount a s = { s with settlement := { s.settlement with heatAccount := a } } := by
  unfold setHeatAccount
  exact wrote_clean (by exact clean) _

theorem setGasAccount_clean (clean : s.store.errors = []) (a : Account) :
    setGasAccount a s = { s with settlement := { s.settlement with gasAccount := a } } := by
  unfold setGasAccount
  exact wrote_clean (by exact clean) _

/-- The state with a record that has joined the ring, and the accounts that it carries (R151, R153). -/
def closedWith (r : ArchiveRecord) (s : State) : State :=
  { s with
    settlement := { joinedRing r s with heatAccount := r.heatAccount, gasAccount := r.gasAccount }
    store := { s.store with knownDamaged := s.store.knownDamaged.set (placeOf r.number) false } }

theorem writeArchive_accounts (clean : s.store.errors = []) (r : ArchiveRecord) :
    writeArchive r (setGasAccount r.gasAccount (setHeatAccount r.heatAccount s)) = closedWith r s := by
  have accounts : setGasAccount r.gasAccount (setHeatAccount r.heatAccount s) = { s with settlement := { s.settlement with
      heatAccount := r.heatAccount, gasAccount := r.gasAccount } } := by
    rw [setHeatAccount_clean clean, setGasAccount_clean (by exact clean)]
  have ring := joinedRing_setAccounts r r.gasAccount r.heatAccount s
  rw [accounts] at ring ⊢
  rw [writeArchive_eq (by exact clean), ring]
  rfl

theorem closeRecord_eq (clean : s.store.errors = []) (k : Boundary) (o : OpenRecord) :
    closeRecord k o s = closedWith (archiveRecord k s o) s := by
  unfold closeRecord
  generalize archiveRecord k s o = r
  exact writeArchive_accounts clean r

/-! ## The recovery counts (R98) -/

/-- A consumer with its recovery count at 0 and its idle delay started where it applies (R97, R98). -/
def recovered (s : State) (c : Fin 8) : Consumer :=
  { consumer s c with
    recoveryCount := 0
    recoveryTimer :=
      if (consumer s c).state = .tripped ∧ isAuto s c = true then
        some ((consumer s c).recoveryTimer.getD (startTimer s c cRecoveryDelay))
      else (consumer s c).recoveryTimer }

theorem recoverOne (c : Fin 8) (s : State) : startRecovery c (setConsumer c { consumer s c with recoveryCount := 0 } s) =
    setConsumer c (recovered s c) s := by
  have own : consumer (setConsumer c { consumer s c with recoveryCount := 0 } s) c =
      { consumer s c with recoveryCount := 0 } := consumer_setConsumer_same ..
  have auto : isAuto (setConsumer c { consumer s c with recoveryCount := 0 } s) c = isAuto s c := rfl
  have twice (r r' : Consumer) : setConsumer c r' (setConsumer c r s) = setConsumer c r' s := by
    simp [setConsumer]
  have delay : startTimer (setConsumer c { consumer s c with recoveryCount := 0 } s) c cRecoveryDelay =
      startTimer s c cRecoveryDelay := rfl
  unfold startRecovery recovered
  rw [own, auto, delay, twice]
  by_cases applies : (consumer s c).state = .tripped ∧ isAuto s c = true
  · cases timer : (consumer s c).recoveryTimer with
    | none => simp [applies]
    | some tm => simp [applies, timer]
  · have stays : ((consumer s c).state == .tripped && isAuto s c) = false := by
      simpa [Bool.and_eq_false_iff] using applies
    simp [applies, stays]

theorem resetRecovery_consumer (s : State) (c : Fin 8) : consumer (resetRecovery s) c = recovered s c := by
  have go : ∀ (l : List (Fin 8)), l.Nodup → ∀ t : State, t.contracts = s.contracts → t.supervisor.base = s.supervisor.base →
      (∀ d ∈ l, consumer t d = consumer s d) →
      consumer (l.foldl (fun s c => startRecovery c (setConsumer c { consumer s c with recoveryCount := 0 } s)) t) c =
        if c ∈ l then recovered s c else consumer t c := by
    intro l distinct
    induction l with
    | nil => exact fun t _ _ _ => rfl
    | cons d rest ih =>
      obtain ⟨fresh, distinct⟩ := List.nodup_cons.1 distinct
      intro t contracts base same
      have auto : isAuto t d = isAuto s d := flagItem_eq contracts _
      have delay : startTimer t d cRecoveryDelay = startTimer s d cRecoveryDelay := by
        rw [startTimer, startTimer, base, consumerItem_eq (congrArg ContractUnit.contract contracts)]
      have result : recovered t d = recovered s d := by
        rw [recovered, recovered, same d (List.mem_cons_self ..), auto, delay]
      rw [List.foldl_cons, recoverOne, result, ih distinct _ (by exact contracts) (by exact base) fun e member => by
        rw [consumer_setConsumer_ne fun (h : e = d) => fresh (h ▸ member)]
        exact same e (List.mem_cons_of_mem _ member)]
      by_cases h : c = d
      · subst h
        rw [if_neg fresh, consumer_setConsumer_same, if_pos (List.mem_cons_self ..)]
      · rw [consumer_setConsumer_ne h]
        simp [h]
  have all := go (List.finRange 8) (List.nodup_finRange 8) s rfl rfl fun _ _ => rfl
  rw [if_pos (List.mem_finRange c)] at all
  exact all

/-! ## The latch (R108, R109) -/

/-- The schedule entries that a change of the interval length leaves (R109). -/
def aligned (old : Nat) (s : State) : List ScheduleEntry :=
  if intervalLength s = old then s.exports.schedule
  else s.exports.schedule.filter fun e => e.start % intervalLength s == 0

theorem mem_aligned {old : Nat} {e : ScheduleEntry} : e ∈ aligned old s ↔
    e ∈ s.exports.schedule ∧ (intervalLength s = old ∨ e.start % intervalLength s = 0) := by
  unfold aligned
  split
  next same => simp [same]
  next changed => simp [changed]

theorem removeUnaligned_eq (clean : s.store.errors = []) (old : Nat) : removeUnaligned old s =
    { s with exports := { s.exports with schedule := aligned old s } } := by
  unfold removeUnaligned aligned
  split
  · rfl
  · exact setSchedule_clean clean _

/-- The latch in place and its entries gone, before the linked grants are cut (R108). -/
def latchedState (old start : Nat) (s : State) : State :=
  { s with exports := {
      schedule := (aligned old s).filter fun e => start < e.start
      latch := some (latchFor { s with exports := { s.exports with schedule := aligned old s } } start) } }

theorem makeLatch_eq (clean : s.store.errors = []) (old start : Nat) :
    makeLatch start (removeUnaligned old s) = cutLinked (latchedState old start s) := by
  rw [removeUnaligned_eq clean]
  unfold makeLatch
  rw [setLatch_clean (by exact clean), setSchedule_clean (by exact clean)]
  rfl

theorem reacts_latched (clean : s.store.errors = []) (old start : Nat) :
    Reacts [] (latchedState old start s) (makeLatch start (removeUnaligned old s)) := by
  rw [makeLatch_eq clean]
  exact reacts_cutLinked _

theorem states_latched (clean : s.store.errors = []) (old start : Nat) :
    StatesStand s (makeLatch start (removeUnaligned old s)) := by
  rw [makeLatch_eq clean]
  generalize standing : latchedState old start s = u
  have same : StatesStand s u := fun c => by rw [← standing]; rfl
  exact same.trans (states_cutLinked u)

theorem regularStart_mod (len t : Nat) : regularStart len t % len = 0 := by
  unfold regularStart
  exact Nat.sub_mod_eq_zero_of_mod_eq (Nat.mod_mod t len).symm

theorem latchFor_entry {start : Nat} {e : ScheduleEntry} (listed : e ∈ s.exports.schedule) (at' : e.start = start)
    (rising : s.exports.schedule.Pairwise fun a b => a.start < b.start) : latchFor s start = ⟨e.kw, .entry⟩ := by
  have found : s.exports.schedule.find? (·.start == start) = some e := by
    generalize s.exports.schedule = l at listed rising
    induction l with
    | nil => cases listed
    | cons a rest ih =>
      obtain ⟨below, rising⟩ := List.pairwise_cons.1 rising
      rcases List.mem_cons.1 listed with rfl | later
      · simp [at']
      · have before := below e later
        have other : (a.start == start) = false := beq_eq_false_iff_ne.2 (by omega)
        rw [List.find?_cons, other]
        exact ih later rising
  rw [latchFor, found]

theorem latchFor_default {start : Nat} (absent : ∀ e ∈ s.exports.schedule, e.start ≠ start) :
    latchFor s start = ⟨itemNat s (.exportItem xDefaultExport), .default⟩ := by
  have found : s.exports.schedule.find? (·.start == start) = none := by
    simpa [List.find?_eq_none] using absent
  rw [latchFor, found]

/-! ## The opening (R147, R150) -/

theorem openRecord_eq (clean : s.store.errors = []) (k : Boundary) (start : Nat) (changed : Bool) :
    openRecord k start changed s = { s with settlement := { s.settlement with
      openRecord := some (newRecord k start changed s), nextRecord := s.settlement.nextRecord + 1
      cursors := cursorsAt s (s.settlement.nextRecord + 1) } } := by
  have settled := openRecord_settlement k start changed s
  unfold openRecord
  rw [wroteAll_clean (by exact clean), setNextRecord_clean (by exact clean)]
  rfl

/-- Application, latch and opening, from the state with its clock set. -/
def opening (k : Boundary) (start : Nat) (s : State) : State :=
  openRecord k start (applyEntries s).applied
    (makeLatch (regularStart (intervalLength (applyStaged s)) start) (removeUnaligned (intervalLength s) (applyStaged s)))

theorem openInterval_outage (s : State) : openInterval .outage s = opening .outage (presentStart s) s := by
  unfold openInterval opening
  dsimp only
  rw [if_pos rfl]
  simp only [moveClock, openingStart]

theorem openInterval_eq {k : Boundary} (other : k ≠ .outage) (s : State) :
    openInterval k s = resetRecovery (opening k (deviceTime (moveClock k s)) (moveClock k s)) := by
  have time : deviceTime (applyStaged (moveClock k s)) = deviceTime (moveClock k s) := by
    rw [deviceTime, (applyStaged_settlement _).1, deviceTime]
  have start : openingStart k s (applyStaged (moveClock k s)) = deviceTime (moveClock k s) := by
    rw [← time]
    cases k with
    | outage => exact absurd rfl other
    | _ => rfl
  unfold openInterval
  dsimp only
  rw [if_neg other, start]
  rfl

/-- The state `t` follows on `s` by application, latch and opening at `start`, with the fates `fs` of the entries. -/
structure Opens (k : Boundary) (start : Nat) (s t : State) (fs : List (Proposal × Fate)) : Prop where
  around : surroundings { t with exports := s.exports } = surroundings s
  settlement : t.settlement = { s.settlement with
    openRecord := t.settlement.openRecord, nextRecord := s.settlement.nextRecord + 1
    cursors := cursorsAt s (s.settlement.nextRecord + 1) }
  opened : ∃ o, OpenedAt s t start o ∧ o.clockStep = (match k with | .step _ => true | _ => false) ∧
    o.outage = decide (k = .outage)
  latched : LatchedAt s t (start - start % itemNat t .intervalLength)
  entries : EntriesTaken s t fs
  told : ∀ p : Party, t.links.notices[partyIndex p][clsProposal] = toldOf p fs s.links.notices[partyIndex p][clsProposal]
  notices : ∀ (p : Fin 3) (j : Fin 10), j ≠ clsShed → j ≠ clsGrant → j ≠ clsProposal →
    t.links.notices[p][j] = s.links.notices[p][j]
  states : StatesStand s t
  count : ∀ c, (consumer t c).recoveryCount = (consumer s c).recoveryCount
  timer : ∀ c, (∀ ch ∈ appliedItems fs, ch.1 ≠ .consumer c cRecoveryMode) →
    (consumer t c).recoveryTimer = (consumer s c).recoveryTimer
  stopped : ∀ c, isAuto s c = true → isAuto t c = false → (consumer t c).recoveryTimer = none
  point : s.allocator.result.creditPoint = s.allocator.base → t.allocator.result.creditPoint = t.allocator.base

theorem revision_moves (n : Nat) : (n + 1) % 4294967296 ≠ n := by omega

/-- What a new record takes from the contract and the totals depends on nothing else (R147, R148, R150). -/
theorem newRecord_opened {k : Boundary} {start : Nat} {changed : Bool} (contracts : t.contracts = u.contracts)
    (isOpen : t.settlement.openRecord = some (newRecord k start changed u)) (number : u.settlement.nextRecord = s.settlement.nextRecord)
    (next : t.settlement.nextRecord = s.settlement.nextRecord + 1) (metering : u.metering = s.metering)
    (revision : changed = decide (u.contracts.revision ≠ s.contracts.revision)) :
    OpenedAt s t start (newRecord k start changed u) := by
  have items (i : Item) : itemNat t i = itemNat u i := itemNat_eq (congrArg ContractUnit.contract contracts) i
  have band : bandAt t start = bandAt u start := by rw [bandAt, items, bandAt]
  refine ⟨isOpen, number, by rw [next, ← number]; rfl, rfl, ?_, band.symm, ?_, ?_, by rw [contracts]; rfl, by rw [← metering]; rfl,
    ?_, by rw [contracts]; rfl, by rw [contracts]; exact revision, rfl, rfl, rfl, rfl, rfl, rfl⟩
  · rw [items]
    rfl
  · rw [band, heatPriceOf, items]
    rfl
  · rw [band, gasPriceOf, items]
    rfl
  · rw [items]
    show (start % intervalLength u != 0) = _
    by_cases h : start % itemNat u .intervalLength = 0 <;> simp [intervalLength, h]

/-- The latch and the list that it leaves (R108, R109). -/
theorem latched_state {start : Nat} {x : State} (exports : x.exports = s.exports)
    (rising : s.exports.schedule.Pairwise fun a b => a.start < b.start) (contracts : t.contracts = x.contracts)
    (latched : t.exports = (latchedState (intervalLength s) (regularStart (intervalLength x) start) x).exports) :
    LatchedAt s t (start - start % itemNat t .intervalLength) := by
  have items (i : Item) : itemNat t i = itemNat x i := itemNat_eq (congrArg ContractUnit.contract contracts) i
  have regular : start - start % itemNat t .intervalLength = regularStart (intervalLength x) start := by
    rw [items]
    rfl
  unfold LatchedAt
  rw [regular, latched]
  simp only [items]
  have whole := regularStart_mod (intervalLength x) start
  generalize regularStart (intervalLength x) start = r at whole ⊢
  have listed (e : ScheduleEntry) : e ∈ aligned (intervalLength s) x ↔ e ∈ s.exports.schedule ∧
      (intervalLength x = intervalLength s ∨ e.start % intervalLength x = 0) := by rw [mem_aligned, exports]
  have order : (aligned (intervalLength s) x).Pairwise fun a b => a.start < b.start := by
    unfold aligned
    rw [exports]
    split
    · exact rising
    · exact rising.filter _
  refine ⟨fun e member same => ?_, fun absent => ?_, fun e => ?_⟩
  · refine congrArg some (latchFor_entry ((listed e).2 ⟨member, .inr ?_⟩) same order)
    rw [same, whole]
  · refine congrArg some ((latchFor_default fun e member => ?_).trans ?_)
    · exact absent e ((listed e).1 member).1
    · rfl
  · show e ∈ (aligned (intervalLength s) x).filter _ ↔ _
    rw [List.mem_filter, listed, decide_eq_true_iff, and_assoc, and_comm (b := r < e.start)]
    exact Iff.rfl

theorem opening_opens {busy : Fin 8 → Bool} (clean : s.store.errors = [])
    (isBusy : ∀ c, busy c = ((consumer s c).state != .off))
    (rising : s.exports.schedule.Pairwise fun a b => a.start < b.start) (k : Boundary) (start : Nat) :
    Opens k start s (opening k start s) (fates busy s.contracts.contract s.contracts.proposals) := by
  obtain ⟨applied, changed⟩ := applyStaged_applied clean isBusy
  unfold opening
  rw [changed]
  generalize fates busy s.contracts.contract s.contracts.proposals = fs at applied ⊢
  generalize applyStaged s = x at applied ⊢
  have aroundX := around_of_surroundings applied.around
  have cleanX : x.store.errors = [] := by rw [aroundX.store, clean]
  have reacted := reacts_latched cleanX (intervalLength s) (regularStart (intervalLength x) start)
  have standing := states_latched cleanX (intervalLength s) (regularStart (intervalLength x) start)
  have settled : (makeLatch (regularStart (intervalLength x) start) (removeUnaligned (intervalLength s) x)).settlement =
      s.settlement := by rw [makeLatch_settlement, Upkeep.removeUnaligned_settlement, applied.settlement]
  generalize makeLatch (regularStart (intervalLength x) start) (removeUnaligned (intervalLength s) x) = u at reacted standing settled ⊢
  have storeU : u.store = x.store := reacted.store
  have contractsU : u.contracts = x.contracts := reacted.contracts
  have aroundU := around_of_surroundings reacted.around
  have metering : u.metering = s.metering := aroundU.metering.trans aroundX.metering
  have revision : (fs.any fun f => f.2 == .applied) = decide (u.contracts.revision ≠ s.contracts.revision) := by
    rw [contractsU, applied.entries.1, Bool.eq_iff_iff, any_applied, decide_eq_true_iff]
    by_cases one : ∃ x ∈ fs, x.2 = .applied
    · simp only [one, if_true, true_iff]
      exact revision_moves _
    · simp only [one, if_false, ne_eq, not_true]
  rw [openRecord_eq (by rw [storeU, cleanX])]
  refine ⟨?_, ?_, ⟨_, newRecord_opened (u := u) rfl rfl (by rw [settled]) (by rw [settled]) metering revision, rfl, rfl⟩,
    latched_state aroundX.exports rising contractsU aroundU.exports, ?_, fun p => ?_, fun p j shed grant proposal => ?_,
    fun c => ?_, fun c => ?_, fun c plain => ?_, fun c auto manual => ?_, fun point => ?_⟩
  · refine Eq.trans ?_ applied.around
    have same := congrArg (fun v : State => { v with exports := s.exports }) reacted.around
    refine Eq.trans (show _ = { surroundings u with exports := s.exports } from rfl) (same.trans ?_)
    rw [← aroundX.exports]
    rfl
  · have cursors (n : Nat) : cursorsAt u n = cursorsAt s n := by rw [cursorsAt, cursorsAt, settled]
    dsimp only
    rw [cursors, settled]
  · refine ⟨contractsU.trans applied.entries.1, fun c => ?_⟩
    exact (reacted.record c).2.1.trans (applied.entries.2 c)
  · exact (reacted.notices _ _ (by decide) (by decide)).trans (applied.told p)
  · exact (reacted.notices p j shed grant).trans (applied.notices p j shed grant proposal)
  · exact (standing c).trans (applied.states c)
  · exact (reacted.record c).1.trans (applied.count c)
  · exact (reacted.timer c (List.not_mem_nil)).trans (applied.timer c plain)
  · have autoX : isAuto x c = false := (reacted.isAuto c).symm.trans manual
    exact (reacted.timer c (List.not_mem_nil)).trans (applied.stopped c auto autoX)
  · exact reacted.point (applied.point point)

end Sys2Proof.Proofs.Boundary
end

section
/-! A settlement boundary as a whole, and the allocation events that follow it (R146, R147, R151, R159). -/

namespace Sys2Proof.Proofs.Boundaries
open Sys2Proof Sys2Proof.Machine Sys2Proof.Proofs.Notice Sys2Proof.Proofs.Trips Sys2Proof.Proofs.Event
  Sys2Proof.Proofs.Fields Sys2Proof.Proofs.Upkeep Sys2Proof.Proofs.Reactions Sys2Proof.Proofs.Application
  Sys2Proof.Proofs.Boundary

variable {s t u v : State}

/-! ## The record that is closed (R112, R113, R152 to R155) -/

/-- The state from which the open record is closed: at a boundary without a credit the state itself (R65, R160). -/
def isCredited (s v : State) : Prop := v = s ∨ v = creditedState s

theorem scheduledExport_credited (credit : isCredited s v) : scheduledExport v = scheduledExport s ∧
    scheduledSource v = scheduledSource s := by
  rcases credit with rfl | rfl
  · exact ⟨rfl, rfl⟩
  · exact ⟨rfl, rfl⟩

theorem townGas_credited (credit : isCredited s v) (o : OpenRecord) (flare : Nat) :
    townGas v { o with flare := flare } = townGas s o := by
  rcases credit with rfl | rfl
  · rfl
  · rfl

theorem intervalEnergy_eq (s : State) (o : OpenRecord) (ch : Fin 16) : intervalEnergy s o ch =
    (s.metering.totals[ch] + 10000000000000 - o.opening[ch] % 10000000000000) % 10000000000000 := rfl

theorem billed_sum (a : Account) (quantity price : Nat) :
    1000000 * billed a quantity price + (billAccount a quantity price).remainder = a.remainder + quantity * price := by
  unfold billed billAccount
  exact Nat.div_add_mod _ _

/-- The archive record of the open record `o`, closed at `stop` with the flare energy `flare` and the marks that the closing
sets. -/
def closedRecord (s : State) (o : OpenRecord) (stop flare : Nat) (step outage : Bool) : ArchiveRecord :=
  { number := o.number, start := o.start, length := spanOf o.start stop, band := o.band, revision := o.revision
    outage := o.outage || outage, clockStep := o.clockStep || step
    short := o.short, commissioning := o.commissioning, contractChanged := o.contractChanged
    contractDamaged := o.contractDamaged, estimatedGas := o.estimatedGas, estimatedHeat := o.estimatedHeat
    energies := Vector.ofFn (intervalEnergy s o)
    latch := { kw := scheduledExport s, source := scheduledSource s }
    scheduled := scheduledEnergy (scheduledExport s) (spanOf o.start stop)
    deviation := (intervalEnergy s o 15 : Int) - scheduledEnergy (scheduledExport s) (spanOf o.start stop)
    reverse := o.reverse, flare := flare, heatPrice := o.heatPrice, gasPrice := o.gasPrice
    townHeat := townHeat s o, townHeatAmount := billed s.settlement.heatAccount (townHeat s o) o.heatPrice
    townGas := townGas s o, townGasAmount := billed s.settlement.gasAccount (townGas s o) o.gasPrice
    heatAccount := billAccount s.settlement.heatAccount (townHeat s o) o.heatPrice
    gasAccount := billAccount s.settlement.gasAccount (townGas s o) o.gasPrice
    closing := s.metering.totals }

/-- A boundary is a clock step (R146). -/
def isStep : Boundary → Bool
  | .step _ => true
  | _ => false

theorem archiveRecord_eq {k : Boundary} (credit : isCredited s v) (o : OpenRecord) {flare stop : Nat}
    (closes : closingTime k v { o with flare := flare } = stop) :
    archiveRecord k v { o with flare := flare } = closedRecord s o stop flare (isStep k) (decide (k = .outage)) := by
  obtain ⟨exported, source⟩ := scheduledExport_credited credit
  have gasDrawn := townGas_credited credit o flare
  have metering : v.metering = s.metering := by rcases credit with rfl | rfl <;> rfl
  have heatAccount : v.settlement.heatAccount = s.settlement.heatAccount := by rcases credit with rfl | rfl <;> rfl
  have gasAccount : v.settlement.gasAccount = s.settlement.gasAccount := by rcases credit with rfl | rfl <;> rfl
  have energies : intervalEnergy v { o with flare := flare } = intervalEnergy s o := by
    funext ch
    rw [intervalEnergy, metering, intervalEnergy]
  have heatDrawn : townHeat v { o with flare := flare } = townHeat s o := by simp only [townHeat, energies]
  have length : closingLength k v { o with flare := flare } = spanOf o.start stop := by rw [closingLength, closes]
  unfold archiveRecord closedRecord
  rw [length, energies, exported, source, heatDrawn, gasDrawn, metering, heatAccount, gasAccount]
  rfl

theorem recordedAs (s : State) (o : OpenRecord) (stop flare : Nat) (step outage : Bool)
    (heat : t.settlement.heatAccount = (closedRecord s o stop flare step outage).heatAccount)
    (gas : t.settlement.gasAccount = (closedRecord s o stop flare step outage).gasAccount) :
    RecordedAs s t o (closedRecord s o stop flare step outage) stop flare step outage := by
  have small (a : Account) (quantity price : Nat) : (billAccount a quantity price).remainder < 1000000 :=
    Nat.mod_lt _ (by decide)
  have energy (ch : Fin 16) : (closedRecord s o stop flare step outage).energies[ch] = intervalEnergy s o ch :=
    Vector.getElem_ofFn ..
  have energyOf (ch : Nat) (within : ch < 16) :
      (closedRecord s o stop flare step outage).energies[ch] = intervalEnergy s o ⟨ch, within⟩ := energy ⟨ch, within⟩
  refine ⟨rfl, rfl, fun before => spanOf_of_le before, rfl, rfl, rfl, rfl, rfl, rfl, rfl, rfl, rfl, rfl, rfl, rfl, rfl, rfl, rfl,
    fun ch => ?_, rfl, rfl, ?_, ?_, ?_, heat.symm, gas.symm, ?_, ?_, ?_, ?_, ?_, ?_⟩
  · rw [energy, intervalEnergy_eq]
  · rw [energyOf 15 (by decide)]
    rfl
  · rw [energyOf 12 (by decide), energyOf 13 (by decide), energyOf 14 (by decide)]
    rfl
  · simp only [energy]
    rfl
  · rw [heat]
    rfl
  · rw [heat]
    exact billed_sum ..
  · rw [heat]
    exact small ..
  · rw [gas]
    rfl
  · rw [gas]
    exact billed_sum ..
  · rw [gas]
    exact small ..

/-! ## What the parts of a boundary speak of -/

section
variable {x : State} (contracts : t.contracts = u.contracts)
include contracts

theorem openedAt_of_same {start : Nat} {o : OpenRecord} (settlement : t.settlement = u.settlement)
    (h : OpenedAt s u start o) : OpenedAt s t start o := by
  have items (i : Item) : itemNat t i = itemNat u i := itemNat_eq (congrArg ContractUnit.contract contracts) i
  have band : bandAt t start = bandAt u start := by rw [bandAt, items, bandAt]
  have heat (b : Nat) : heatPriceOf t b = heatPriceOf u b := by rw [heatPriceOf, items, heatPriceOf]
  have gas (b : Nat) : gasPriceOf t b = gasPriceOf u b := by rw [gasPriceOf, items, gasPriceOf]
  simpa only [OpenedAt, settlement, contracts, items, band, heat, gas] using h

theorem latchedAt_of_same {r : Nat} (exports : t.exports = u.exports) (h : LatchedAt s u r) : LatchedAt s t r := by
  have items (i : Item) : itemNat t i = itemNat u i := itemNat_eq (congrArg ContractUnit.contract contracts) i
  simpa only [LatchedAt, exports, items] using h

end

/-- The items that applied entries carry are items of STAGED entries of the table (R134). -/
theorem mem_appliedItems {busy : Fin 8 → Bool} {base : Contract} {l : List Proposal} {ch : Item × Int}
    (member : ch ∈ appliedItems (fates busy base l)) : ∃ e ∈ l, e.staged = true ∧ (.item ch.1, ch.2) ∈ e.items := by
  induction l generalizing base with
  | nil => cases member
  | cons e rest ih =>
    rw [fates, ← List.singleton_append, appliedItems_append, List.mem_append] at member
    rcases member with own | later
    · by_cases applies : fateOf busy base e = .applied
      · rw [applies, appliedItems_applied] at own
        refine ⟨e, List.mem_cons_self .., ?_, mem_heldItems own⟩
        refine Classical.byContradiction fun isOpen => ?_
        have kept : fateOf busy base e = .kept := if_pos (by simp [isOpen])
        rw [kept] at applies
        cases applies
      · simp [appliedItems, applies] at own
    · obtain ⟨e', listed, rest⟩ := ih later
      exact ⟨e', List.mem_cons_of_mem _ listed, rest⟩

/-- A boundary of the kind `k` leads from `s` to `t`: it closes `o` at `stop` and opens the next record at `start`, and the
entries of the table have the fates `fs`. -/
structure Passes (k : Boundary) (s t : State) (o : OpenRecord) (stop flare start : Nat) (fs : List (Proposal × Fate)) : Prop where
  recorded : RecordedAs s t o (closedRecord s o stop flare (isStep k) (decide (k = .outage))) stop flare (isStep k)
    (decide (k = .outage))
  joined : Joined s t (closedRecord s o stop flare (isStep k) (decide (k = .outage)))
  opened : ∃ o', OpenedAt s t start o' ∧ o'.clockStep = isStep k ∧ o'.outage = decide (k = .outage)
  latched : LatchedAt s t (start - start % itemNat t .intervalLength)
  entries : EntriesTaken s t fs
  told : ∀ p : Party, t.links.notices[partyIndex p][clsProposal] = toldOf p fs s.links.notices[partyIndex p][clsProposal]
  settled : ∀ p : Fin 3, t.links.notices[p][clsSettlement] =
    addOccurrence (.settlement o.number) s.links.notices[p][clsSettlement]
  recovery : k ≠ .outage → RecoveryAtBoundary s t
  ports : t.links.ports = s.links.ports
  outside : OutsideBoundaryKept s t

/-- The state with its open record closed, and its clock set. -/
def movedFrom (r : ArchiveRecord) (clock : Option Nat) (millis : Nat) (v : State) : State :=
  { closedWith r v with settlement := { (closedWith r v).settlement with clock := clock, clockMillis := millis } }

theorem joined_of_moved {r : ArchiveRecord} {clock : Option Nat} {millis n : Nat} (credit : isCredited s v)
    (settlement : t.settlement = { (movedFrom r clock millis v).settlement with
      openRecord := t.settlement.openRecord, nextRecord := n, cursors := cursorsAt (movedFrom r clock millis v) n })
    (store : t.store = (movedFrom r clock millis v).store) : Joined s t r := by
  have kept : keptRecords v = keptRecords s := by rcases credit with rfl | rfl <;> rfl
  have ring : t.settlement.archive = keptRecords v ++ [r] := by rw [settlement]; rfl
  have oldest : oldestNumber t = oldestJoined r v := oldestNumber_joined ring
  have filled : cursorsAt (movedFrom r clock millis v) n = Vector.ofFn (cursorJoined r v) := by
    refine if_neg ?_
    show ¬ (keptRecords v ++ [r]).isEmpty = true
    simp
  have archive : v.settlement.archive = s.settlement.archive := by rcases credit with rfl | rfl <;> rfl
  have cursors : v.settlement.cursors = s.settlement.cursors := by rcases credit with rfl | rfl <;> rfl
  have gapMarks : v.settlement.gapMarks = s.settlement.gapMarks := by rcases credit with rfl | rfl <;> rfl
  have damaged : v.store = s.store := by rcases credit with rfl | rfl <;> rfl
  refine ⟨?_, fun p => ⟨?_, ?_⟩, ?_⟩
  · rw [ring, kept]
    rfl
  · rw [settlement, filled, oldest, ← archive, ← cursors]
    exact Vector.getElem_ofFn ..
  · rw [settlement, oldest, ← archive, ← cursors, ← gapMarks]
    exact Vector.getElem_ofFn ..
  · rw [store, ← damaged]
    rfl

/-- What the recovery counts and delays are after the parts of a boundary and the events that follow (R97, R98). -/
theorem recovery_of_opens {k : Boundary} {start : Nat} {m u : State} {busy : Fin 8 → Bool}
    (opens : Opens k start m u (fates busy s.contracts.contract s.contracts.proposals))
    (contractsM : m.contracts = s.contracts) (supervisorM : m.supervisor = s.supervisor) (contracts : t.contracts = u.contracts)
    (count : ∀ c, (consumer t c).recoveryCount = (recovered u c).recoveryCount)
    (timer : ∀ c, (consumer t c).recoveryTimer = (recovered u c).recoveryTimer) : RecoveryAtBoundary s t := by
  intro c
  have consumerM : consumer m c = consumer s c := consumer_eq supervisorM c
  have state : (consumer u c).state = (consumer s c).state := (opens.states c).trans (by rw [consumerM])
  have autoM : isAuto m c = isAuto s c := flagItem_eq contractsM _
  have auto : isAuto t c = isAuto u c := flagItem_eq contracts _
  have base : u.supervisor.base = s.supervisor.base :=
    (around_of_surroundings opens.around).supervised.trans (by rw [supervisorM])
  have delay : startTimer u c cRecoveryDelay = ⟨s.supervisor.base, 1000 * consumerItem t c cRecoveryDelay⟩ := by
    rw [startTimer, base, consumerItem_eq (congrArg ContractUnit.contract contracts)]
  refine ⟨count c, fun tripped inAuto => ?_, fun was manual => ?_, fun plain => ?_⟩
  · rw [timer, recovered, if_pos ⟨state.trans tripped, auto.symm.trans inAuto⟩]
    rfl
  · rw [auto] at manual
    rw [timer, recovered, if_neg fun h => by rw [manual] at h; exact Bool.false_ne_true h.2]
    exact opens.stopped c (autoM.trans was) manual
  · have same : (consumer u c).recoveryTimer = (consumer s c).recoveryTimer := by
      refine (opens.timer c fun ch member mode => ?_).trans (by rw [consumerM])
      obtain ⟨e, listed, staged, carried⟩ := mem_appliedItems member
      exact plain e listed staged _ carried (by rw [mode])
    rw [timer, recovered, state, ← auto, same, delay]

/-- What the recovery counts' reset leaves of the part (R98). -/
theorem resetRecovery_around (s : State) : surroundings (resetRecovery s) = surroundings s :=
  foldl_keeps surroundings _ (fun t c => by unfold startRecovery; split <;> rfl) _ s

theorem raiseNotice_around (ps : PartySet) (k : Fin 10) (d : Detail) (s : State) :
    surroundings (raiseNotice ps k d s) = surroundings s := by
  rw [raiseNotice_frame]
  rfl

/-- The state `w` follows on `u` by the last part of a boundary (R98). -/
structure Recovers (k : Boundary) (u w : State) : Prop where
  around : surroundings w = surroundings u
  contracts : w.contracts = u.contracts
  settlement : w.settlement = u.settlement
  links : w.links = u.links
  point : w.allocator = u.allocator
  mark : ∀ c, (consumer w c).damageMark = (consumer u c).damageMark
  record : k ≠ .outage → ∀ c, consumer w c = recovered u c

theorem recovers_resetRecovery (k : Boundary) (u : State) : Recovers k u (if k = .outage then u else resetRecovery u) := by
  split
  next outage => exact ⟨rfl, rfl, rfl, rfl, rfl, fun _ => rfl, fun other => absurd outage other⟩
  next =>
    exact ⟨resetRecovery_around u, resetRecovery_contracts u, resetRecovery_settlement u, resetRecovery_links u,
      resetRecovery_allocator u, fun c => by rw [resetRecovery_consumer]; rfl, fun _ c => resetRecovery_consumer u c⟩

/-- The state `m`, from which a boundary applies the entries, has of `s` all that the application, the latch and the opening
read. -/
structure Starts (s m : State) : Prop where
  contracts : m.contracts = s.contracts
  supervisor : m.supervisor = s.supervisor
  links : m.links = s.links
  exports : m.exports = s.exports
  metering : m.metering = s.metering
  next : m.settlement.nextRecord = s.settlement.nextRecord
  errors : m.store.errors = s.store.errors
  outside : OutsideBoundaryKept s m
  point : m.allocator.result.creditPoint = m.allocator.base

/-- What a boundary comes to at its end, from the state `m` on, where no word is in error: what the opening made of `u`
stands, whatever events follow. -/
structure Ends (k : Boundary) (s m u t : State) (start : Nat) (fs : List (Proposal × Fate)) : Prop where
  opened : ∃ o', OpenedAt s t start o' ∧ o'.clockStep = isStep k ∧ o'.outage = decide (k = .outage)
  latched : LatchedAt s t (start - start % itemNat t .intervalLength)
  entries : EntriesTaken s t fs
  recovery : k ≠ .outage → RecoveryAtBoundary s t
  ports : t.links.ports = s.links.ports
  outside : OutsideBoundaryKept s t
  settlement : t.settlement = u.settlement
  store : t.store = m.store

theorem ends_of_opens {k : Boundary} {start : Nat} {m u w x : State} {busy : Fin 8 → Bool} (clean : s.store.errors = [])
    (starts : Starts s m) (opens : Opens k start m u (fates busy s.contracts.contract s.contracts.proposals))
    (recovers : Recovers k u w) (around : surroundings x = surroundings w) (settlementW : x.settlement = w.settlement)
    (contractsW : x.contracts = w.contracts) (allocatorW : x.allocator = w.allocator) (supervisorW : x.supervisor = w.supervisor) :
    Ends k s m u (settle x) start (fates busy s.contracts.contract s.contracts.proposals) ∧
    ∀ (p : Fin 3) (j : Fin 10), j ≠ clsShed → j ≠ clsGrant → (settle x).links.notices[p][j] = x.links.notices[p][j] := by
  obtain ⟨contractsM, supervisorM, linksM, exportsM, meteringM, nextM, errorsM, outsideM, pointM⟩ := starts
  have settlementX : x.settlement = u.settlement := settlementW.trans recovers.settlement
  have contractsX : x.contracts = u.contracts := contractsW.trans recovers.contracts
  have allocatorX : x.allocator = u.allocator := allocatorW.trans recovers.point
  have consumerX : ∀ c, consumer x c = consumer w c := consumer_eq supervisorW
  have fromM := around_of_surroundings opens.around
  have toX := around_of_surroundings (around.trans recovers.around)
  have cleanX : x.store.errors = [] := by rw [toX.store, show u.store = m.store from fromM.store, errorsM, clean]
  have reacted := reacts_settle cleanX
  generalize settle x = t at reacted ⊢
  refine ⟨?_, reacted.notices⟩
  have toT := around_of_surroundings reacted.around
  obtain ⟨o', opened, step, outage⟩ := opens.opened
  have settlement : t.settlement = u.settlement := by
    have noFlare : o'.flare = 0 := by
      obtain ⟨-, -, -, -, -, -, -, -, -, -, -, -, -, -, -, -, -, flare, -⟩ := opened
      exact flare
    have same := reacted.credited (by rw [allocatorX]; exact opens.point pointM) fun o'' is => by
      rw [settlementX, opened.1] at is
      obtain rfl := Option.some.inj is
      rw [noFlare]
      decide
    have rest := congrArg State.settlement reacted.rest
    rw [rest, ← settlementX, same]
  have contracts : t.contracts = u.contracts := reacted.contracts.trans contractsX
  have exports : t.exports = u.exports := toT.exports.trans toX.exports
  refine ⟨⟨o', ?_, step, outage⟩, ?_, ⟨?_, fun c => ?_⟩, fun other => ?_, ?_, ?_, settlement,
    toT.store.trans (toX.store.trans fromM.store)⟩
  · have here := openedAt_of_same contracts settlement opened
    simpa only [OpenedAt, nextM, meteringM, contractsM] using here
  · have here := latchedAt_of_same contracts exports opens.latched
    have length : itemNat t .intervalLength = itemNat u .intervalLength := itemNat_eq (congrArg ContractUnit.contract contracts) _
    have before : itemNat m .intervalLength = itemNat s .intervalLength := itemNat_eq (congrArg ContractUnit.contract contractsM) _
    rw [length]
    simpa only [LatchedAt, exportsM, before] using here
  · rw [contracts, opens.entries.1, contractsM]
  · have mark := (reacted.record c).2.1
    rw [consumerX, recovers.mark] at mark
    rw [mark, opens.entries.2, consumer_eq supervisorM]
  · refine recovery_of_opens opens contractsM supervisorM contracts (fun c => ?_) fun c => ?_
    · rw [(reacted.record c).1, consumerX, recovers.record other]
    · rw [reacted.timer c List.not_mem_nil, consumerX, recovers.record other]
  · exact (toT.ports.trans (toX.ports.trans fromM.ports)).trans (by rw [linksM])
  · obtain ⟨power, samples, arrival, metering, band, base, supervised, contractBase, masks, pending⟩ := outsideM
    refine ⟨(toT.power.trans (toX.power.trans fromM.power)).trans power,
      (toT.samples.trans (toX.samples.trans fromM.samples)).trans samples,
      (toT.arrival.trans (toX.arrival.trans fromM.arrival)).trans arrival,
      (toT.metering.trans (toX.metering.trans fromM.metering)).trans metering,
      (toT.band.trans (toX.band.trans fromM.band)).trans band, (toT.base.trans (toX.base.trans fromM.base)).trans base,
      (toT.supervised.trans (toX.supervised.trans fromM.supervised)).trans supervised, ?_,
      (toT.masks.trans (toX.masks.trans fromM.masks)).trans masks,
      (toT.pending.trans (toX.pending.trans fromM.pending)).trans pending⟩
    rw [contracts, opens.entries.1]
    exact contractBase

theorem starts_of_moved {r : ArchiveRecord} {clock : Option Nat} {millis : Nat} (credit : isCredited s v)
    (point : v.allocator.result.creditPoint = v.allocator.base) : Starts s (movedFrom r clock millis v) := by
  rcases credit with rfl | rfl
  · exact ⟨rfl, rfl, rfl, rfl, rfl, rfl, rfl, ⟨rfl, rfl, rfl, rfl, rfl, rfl, rfl, rfl, rfl, rfl⟩, point⟩
  · exact ⟨rfl, rfl, rfl, rfl, rfl, rfl, rfl, ⟨rfl, rfl, rfl, rfl, rfl, rfl, rfl, rfl, rfl, rfl⟩, point⟩

theorem passes_of_opens {k : Boundary} {start flare stop : Nat} {clock : Option Nat} {millis : Nat} {o : OpenRecord} {m u w : State}
    {busy : Fin 8 → Bool} (clean : s.store.errors = []) (credit : isCredited s v)
    (point : v.allocator.result.creditPoint = v.allocator.base)
    (moved : m = movedFrom (closedRecord s o stop flare (isStep k) (decide (k = .outage))) clock millis v)
    (opens : Opens k start m u (fates busy s.contracts.contract s.contracts.proposals))
    (recovers : Recovers k u w) :
    Passes k s (settle (raiseNotice allParties clsSettlement (.settlement o.number) w)) o stop flare start
      (fates busy s.contracts.contract s.contracts.proposals) ∧
    (settle (raiseNotice allParties clsSettlement (.settlement o.number) w)).settlement.clock = clock ∧
    (settle (raiseNotice allParties clsSettlement (.settlement o.number) w)).settlement.clockMillis = millis := by
  have told := (raiseNotice_otherNotices allParties clsSettlement (.settlement o.number) w).2.2
  have own := raiseNotice_all clsSettlement (.settlement o.number) w
  have frame := raiseNotice_frame allParties clsSettlement (.settlement o.number) w
  have aroundX := raiseNotice_around allParties clsSettlement (.settlement o.number) w
  generalize raiseNotice allParties clsSettlement (.settlement o.number) w = x at told own frame aroundX ⊢
  have starts : Starts s m := by rw [moved]; exact starts_of_moved credit point
  obtain ⟨ends, notices⟩ := ends_of_opens clean starts opens recovers aroundX (by rw [frame]) (by rw [frame]) (by rw [frame])
    (by rw [frame])
  generalize settle x = t at ends notices ⊢
  have ring : t.settlement = { m.settlement with
      openRecord := t.settlement.openRecord, nextRecord := m.settlement.nextRecord + 1
      cursors := cursorsAt m (m.settlement.nextRecord + 1) } := by
    rw [ends.settlement]
    exact opens.settlement
  have clock : t.settlement.clock = clock ∧ t.settlement.clockMillis = millis := by
    rw [ring, moved]
    exact ⟨rfl, rfl⟩
  refine ⟨⟨recordedAs s o stop flare _ _ ?_ ?_, ?_, ends.opened, ends.latched, ends.entries, fun p => ?_, fun p => ?_,
    ends.recovery, ends.ports, ends.outside⟩, clock⟩
  · rw [ring, moved]
    rfl
  · rw [ring, moved]
    rfl
  · exact joined_of_moved credit (by rw [← moved]; exact ring) (by rw [ends.store, moved])
  · rw [notices _ _ (by decide) (by decide), told _ _ (by decide), recovers.links, opens.told, starts.links]
  · rw [notices _ _ (by decide) (by decide), own, recovers.links,
      opens.notices _ _ (by decide) (by decide) (by decide), starts.links]

end Sys2Proof.Proofs.Boundaries
end

section
/-! The regular boundary, the clock step and the first setting of the clock (R137, R143, R146, R147, R151). -/

namespace Sys2Proof.Proofs.ClockSteps
open Sys2Proof Sys2Proof.Machine Sys2Proof.Proofs.Notice Sys2Proof.Proofs.Trips Sys2Proof.Proofs.Event
  Sys2Proof.Proofs.Fields Sys2Proof.Proofs.Upkeep Sys2Proof.Proofs.Reactions Sys2Proof.Proofs.Application
  Sys2Proof.Proofs.Boundary Sys2Proof.Proofs.Boundaries Sys2Proof.Proofs.Timers Sys2Proof.Proofs.Agreement
  Sys2Proof.Proofs.Removal

variable {s t : State}

theorem closingTime_credited (k : Boundary) (s : State) (o : OpenRecord) (flare : Nat) :
    closingTime k (creditedState s) { o with flare := flare } = closingTime k s o := by
  cases k <;> rfl

/-- A boundary with a credit, part by part (R151). -/
theorem boundary_eq {k : Boundary} {o : OpenRecord} (clean : s.store.errors = []) (isOpen : s.settlement.openRecord = some o)
    (credits : k ≠ .outage) :
    boundary k s = raiseNotice allParties clsSettlement (.settlement o.number) (openInterval k (closedWith
      (closedRecord s o (closingTime k s o) (creditedFlare s o) (isStep k) (decide (k = .outage))) (creditedState s))) := by
  have isOpen' : (creditedState s).settlement.openRecord = some { o with flare := creditedFlare s o } := by
    show s.settlement.openRecord.map _ = _
    rw [isOpen]
    rfl
  have record := archiveRecord_eq (k := k) (.inr rfl) o (closingTime_credited k s o (creditedFlare s o))
  unfold boundary boundaryCredit
  rw [if_neg credits, creditFlare_eq clean]
  dsimp only
  rw [isOpen']
  dsimp only
  rw [closeRecord_eq (s := creditedState s) clean, record]

/-- A boundary with a credit closes the open record and opens the next at the time to which it sets the clock. -/
theorem boundary_passes {k : Boundary} {o : OpenRecord} {time millis : Nat} (clean : s.store.errors = [])
    (rising : s.exports.schedule.Pairwise fun a b => a.start < b.start) (isOpen : s.settlement.openRecord = some o)
    (credits : k ≠ .outage) (moves : ∀ r, moveClock k (closedWith r (creditedState s)) =
      movedFrom r (some time) millis (creditedState s)) :
    Passes k s (settle (boundary k s)) o (closingTime k s o) (creditedFlare s o) time
      (fates (fun c => (consumer s c).state != .off) s.contracts.contract s.contracts.proposals) ∧
    (settle (boundary k s)).settlement.clock = some time ∧ (settle (boundary k s)).settlement.clockMillis = millis := by
  rw [boundary_eq clean isOpen credits, openInterval_eq credits, moves]
  generalize step : closedRecord s o (closingTime k s o) (creditedFlare s o) (isStep k) (decide (k = .outage)) = r
  have opens := opening_opens (s := movedFrom r (some time) millis (creditedState s))
    (busy := fun c => (consumer s c).state != .off) clean (fun _ => rfl) rising k time
  have recovers := recovers_resetRecovery k (opening k time (movedFrom r (some time) millis (creditedState s)))
  rw [if_neg credits] at recovers
  exact passes_of_opens clean (.inr rfl) rfl (by rw [step]) opens recovers

/-! ## The regular boundary (R147) -/

/-- Settles O42: the boundary's parts in their order, or nothing before the end. -/
theorem regularBoundaryClosesAndOpens : Obligations.RegularBoundaryClosesAndOpens := by
  unfold Obligations.RegularBoundaryClosesAndOpens
  intro s k o calm ordered clock isOpen
  obtain ⟨running, clean, idle⟩ := calm
  have due : boundaryDue s = decide (o.stop ≤ k) := by simp only [boundaryDue, clock, isOpen]
  refine ⟨fun ended => ?_, fun before => ?_⟩
  · obtain ⟨passes, clock', -⟩ := boundary_passes (k := .regular) (time := k) (millis := s.settlement.clockMillis) clean
      ordered.2.1 isOpen nofun fun r => by rw [← clock]; rfl
    have taken : exec .regularBoundary s = .next (settle (boundary .regular s)) := by
      show execRegularBoundary s = _
      rw [execRegularBoundary, running, due, decide_eq_true ended, Bool.and_true, if_pos rfl, operation_settles ⟨running, clean, idle⟩,
        takeBoundary, due, decide_eq_true ended, if_pos rfl]
    generalize settle (boundary .regular s) = t at passes clock' taken
    obtain ⟨o', opened, step, outage⟩ := passes.opened
    exact ⟨t, _, o', taken, passes.recorded, passes.joined, opened, step, outage, passes.latched, clock'.trans clock.symm,
      passes.entries, passes.told, passes.settled, passes.recovery nofun, passes.ports, passes.outside⟩
  · show execRegularBoundary s = _
    rw [execRegularBoundary, due, decide_eq_false (by omega), Bool.and_false, if_neg Bool.false_ne_true]

/-! ## WRITE CLOCK (R143, R146) -/

theorem moveClock_step {time : Nat} (within : time < 281474976710656) (r : ArchiveRecord) :
    moveClock (.step time) (closedWith r (creditedState s)) =
      movedFrom r (some time) s.settlement.clockMillis (creditedState s) :=
  if_pos within

/-- A clock step closes the open record at the present time and opens the next at the new one (R146). -/
theorem stepClock_passes {o : OpenRecord} {k time : Nat} (clean : s.store.errors = [])
    (rising : s.exports.schedule.Pairwise fun a b => a.start < b.start) (clock : s.settlement.clock = some k)
    (isOpen : s.settlement.openRecord = some o) (within : time < 281474976710656) :
    Passes (.step time) s (settle (boundary (.step time) s)) o k (creditedFlare s o) time
      (fates (fun c => (consumer s c).state != .off) s.contracts.contract s.contracts.proposals) ∧
    (settle (boundary (.step time) s)).settlement.clock = some time ∧
    (settle (boundary (.step time) s)).settlement.clockMillis = s.settlement.clockMillis := by
  have present : closingTime (.step time) s o = k := by
    show deviceTime s = k
    rw [deviceTime, clock]
    rfl
  have passes := boundary_passes clean rising isOpen (k := .step time) nofun (moveClock_step within)
  rwa [present] at passes

/-- The state from which the first record is opened (R143). -/
def firstSet (time : Nat) (s : State) : State :=
  { creditedState s with settlement := { (creditedState s).settlement with clock := some time, clockMillis := 0 } }

theorem boundary_first {time : Nat} (clean : s.store.errors = []) (absent : s.settlement.openRecord = none)
    (within : time < 281474976710656) :
    boundary (.first time) s = resetRecovery (opening (.first time) time (firstSet time s)) := by
  have none' : (creditedState s).settlement.openRecord = none := by
    show s.settlement.openRecord.map _ = _
    rw [absent]
    rfl
  have sets : setClock time (creditedState s) = { creditedState s with settlement := { (creditedState s).settlement with
      clock := some time } } := if_pos within
  have moves : moveClock (.first time) (creditedState s) = firstSet time s := by
    rw [moveClock, sets]
    rfl
  unfold boundary boundaryCredit
  rw [if_neg nofun, creditFlare_eq clean]
  dsimp only
  rw [none']
  dsimp only
  rw [openInterval_eq (k := .first time) nofun, moves]
  rfl

theorem boundary_first_ends {time : Nat} (clean : s.store.errors = [])
    (rising : s.exports.schedule.Pairwise fun a b => a.start < b.start) (absent : s.settlement.openRecord = none)
    (within : time < 281474976710656) :
    Ends (.first time) s (firstSet time s) (opening (.first time) time (firstSet time s)) (settle (boundary (.first time) s)) time
      (fates (fun c => (consumer s c).state != .off) s.contracts.contract s.contracts.proposals) ∧
    (settle (boundary (.first time) s)).settlement = { s.settlement with
      clock := some time, clockMillis := 0, openRecord := (settle (boundary (.first time) s)).settlement.openRecord
      nextRecord := s.settlement.nextRecord + 1, cursors := cursorsAt s (s.settlement.nextRecord + 1) } ∧
    ∀ p : Fin 3, (settle (boundary (.first time) s)).links.notices[p][clsSettlement] =
      s.links.notices[p][clsSettlement] := by
  have opens := opening_opens (s := firstSet time s) (busy := fun c => (consumer s c).state != .off) clean (fun _ => rfl) rising
    (.first time) time
  have recovers := recovers_resetRecovery (.first time) (opening (.first time) time (firstSet time s))
  rw [if_neg nofun] at recovers
  have starts : Starts s (firstSet time s) :=
    ⟨rfl, rfl, rfl, rfl, rfl, rfl, rfl, ⟨rfl, rfl, rfl, rfl, rfl, rfl, rfl, rfl, rfl, rfl⟩, rfl⟩
  obtain ⟨ends, notices⟩ := ends_of_opens clean starts opens recovers rfl rfl rfl rfl rfl
  rw [boundary_first clean absent within]
  refine ⟨ends, ?_, fun p => ?_⟩
  · rw [ends.settlement]
    exact opens.settlement
  · rw [notices p _ (by decide) (by decide), recovers.links, opens.notices p _ (by decide) (by decide) (by decide)]
    rfl

theorem execWriteClock_taken (calm : Calm s) {f : Frame} {time : Nat} (taken : Taken s f 5) (within : time < 4294967296) :
    exec (.writeClock f time) s = .next (respond f.party 0x41
      (writeClockAnswer s (settle (judged writeClockStatus (fun s => boundary (writeClockKind time s) s) s))).1
      (writeClockAnswer s (settle (judged writeClockStatus (fun s => boundary (writeClockKind time s) s) s))).2
      (settle (judged writeClockStatus (fun s => boundary (writeClockKind time s) s) s))) := by
  obtain ⟨running, clean, idle⟩ := calm
  show execWriteClock f time s = _
  rw [execWriteClock, decide_eq_true within, request_taken (length := lenWriteClock) running taken, readAll_clean clean,
    settle_idle idle, serve_calm clean idle]

theorem execWriteClock_locked (calm : Calm s) {f : Frame} {time : Nat} (taken : Taken s f 5) (within : time < 4294967296)
    (locked : s.contracts.locked = true) : exec (.writeClock f time) s = .next (respond f.party 0x41 .locked [] s) := by
  have status : writeClockStatus s = .locked := if_pos locked
  rw [execWriteClock_taken calm taken within, judged_refused (by rw [status]; rfl), settle_idle calm.2.2]
  simp only [writeClockAnswer, status]

theorem execWriteClock_unlocked (calm : Calm s) {f : Frame} {time : Nat} (taken : Taken s f 5) (within : time < 4294967296)
    (unlocked : s.contracts.locked = false) :
    exec (.writeClock f time) s = .next (respond f.party 0x41 .done
      [.u48 (deviceTime (settle (boundary (writeClockKind time s) s)))] (settle (boundary (writeClockKind time s) s))) := by
  have status : writeClockStatus s = .done := if_neg (by simp [unlocked])
  rw [execWriteClock_taken calm taken within, judged_taken (by rw [status]; rfl)]
  simp only [writeClockAnswer, status]

/-- Settles O40: LOCKED, the first opening, and the step. -/
theorem writeClockOpensOrSteps : Obligations.WriteClockOpensOrSteps := by
  unfold Obligations.WriteClockOpensOrSteps
  intro s f time calm ordered taken within
  refine ⟨execWriteClock_locked calm taken within, fun unlocked unset absent => ?_, fun k o unlocked clock isOpen => ?_⟩
  · have effect := execWriteClock_unlocked calm taken within unlocked
    rw [writeClockKind, if_pos unset] at effect
    obtain ⟨ends, settlement, notices⟩ := boundary_first_ends calm.2.1 ordered.2.1 absent (time := time) (by omega)
    generalize settle (boundary (.first time) s) = t at effect ends settlement notices
    have clock : t.settlement.clock = some time := by rw [settlement]
    have now : deviceTime t = time := by rw [deviceTime, clock]; rfl
    rw [now] at effect
    obtain ⟨o', opened, step, outage⟩ := ends.opened
    exact ⟨_, o', effect, answered_of_ports ends.ports .., clock, opened, step, outage, ends.latched, by
      rw [respond_settlement, settlement], by rw [respond_settlement, settlement],
      by rw [respond_settlement, settlement], by rw [respond_settlement, settlement],
      by rw [respond_settlement, settlement], notices, ends.recovery nofun, ends.outside⟩
  · have effect := execWriteClock_unlocked calm taken within unlocked
    rw [writeClockKind, if_neg (by rw [clock]; nofun)] at effect
    obtain ⟨passes, clock', -⟩ := stepClock_passes calm.2.1 ordered.2.1 clock isOpen (time := time) (by omega)
    generalize settle (boundary (.step time) s) = t at effect passes clock'
    have now : deviceTime t = time := by rw [deviceTime, clock']; rfl
    rw [now] at effect
    obtain ⟨o', opened, step, outage⟩ := passes.opened
    exact ⟨_, _, o', effect, answered_of_ports passes.ports .., clock', passes.recorded, passes.joined, opened, step, outage,
      passes.latched, passes.settled, passes.recovery nofun, passes.outside⟩

/-! ## A completed clock step (R137) -/

/-- The table without the entry of a number. -/
def withoutEntry (number : Nat) (s : State) : State :=
  { s with contracts := { s.contracts with proposals := s.contracts.proposals.filter (·.number != number) } }

section
variable {f : Frame} {number k : Nat} {d : Int} {e : Proposal} (found : entryOf s number = some e)
include found

theorem concurBody_offset (clean : s.store.errors = []) {p : Party} (items : e.items = [(.offset, d)])
    (fresh : hasParty e.concurred p = false) (full : addParty e.concurred p = e.parties) (clock : s.settlement.clock = some k) :
    concurBody p number s =
      if (k : Int) + d < 0 then noticeProposal (concurredEntry p e) .discarded (withoutEntry number s)
      else boundary (.step ((k : Int) + d).toNat) (noticeProposal (concurredEntry p e) .applied (withoutEntry number s)) := by
  have carries : (concurredEntry p e).number = number := by
    show e.number = number
    exact number_of_entryOf found
  have itemsC : (concurredEntry p e).items = [(.offset, d)] := items
  have completes : completeEntry (concurredEntry p e) = completeStep (concurredEntry p e) d := by
    funext x
    rw [completeEntry, itemsC]
  have body : concurBody p number s = completeStep (concurredEntry p e) d (changeEntry number (concurredEntry p) s) := by
    rw [← completes]
    simp [concurBody, found, fresh, concurredEntry, full]
  have rest := filter_changed (number := number) (g := concurredEntry p) (fun _ => rfl) s.contracts.proposals
  have removed : removeEntry (concurredEntry p e).number (changeEntry number (concurredEntry p) s) = withoutEntry number s := by
    rw [changeEntry_clean clean, removeEntry, setProposals_clean (by exact clean), carries, withoutEntry]
    simp only [rest]
  have running : (changeEntry number (concurredEntry p) s).settlement.clock = some k := by
    rw [changeEntry_clean clean]
    exact clock
  have time : steppedTime d (changeEntry number (concurredEntry p) s) = (k : Int) + d := by
    rw [steppedTime, deviceTime, running]
    rfl
  rw [body, completeStep, time, running, endEntry, endEntry, removed, stepClock]
  simp

end

/-- The state that a clock-step entry's completion reports: discarded below 0, applied otherwise (R127, R137). -/
theorem entryStateCode_offset {number k : Nat} {d : Int} (gone : entryOf t number = none) (clock : s.settlement.clock = some k) :
    entryStateCode number [(.offset, d)] s t = if (k : Int) + d < 0 then 3 else 2 := by
  simp [entryStateCode, gone, clock, steppedTime, deviceTime]

theorem mem_leftOf {busy : Fin 8 → Bool} {base : Contract} {l : List Proposal} {x : Proposal}
    (left : x ∈ leftOf (fates busy base l)) : ∃ e ∈ l, x.number = e.number := by
  induction l generalizing base with
  | nil => cases left
  | cons e rest ih =>
    rw [fates, ← List.singleton_append, leftOf, List.filterMap_append, List.mem_append] at left
    rcases left with own | later
    · refine ⟨e, List.mem_cons_self .., ?_⟩
      cases fate : fateOf busy base e <;> simp_all
    · obtain ⟨e', listed, number⟩ := ih later
      exact ⟨e', List.mem_cons_of_mem _ listed, number⟩

theorem noticed_eq (e : Proposal) (o : Outcome) (s : State) : ∃ n a, noticeProposal e o s = { s with
    links := { s.links with notices := n }, lines := { s.lines with attn := a } } :=
  ⟨_, _, noticeProposal_frame e o s⟩

/-- Settles O37: the check of the new time, the discarded entry, and the step of the state without the entry. -/
theorem completedClockStepMovesTheClock : Obligations.CompletedClockStepMovesTheClock := by
  unfold Obligations.CompletedClockStepMovesTheClock
  intro s f number k d e o calm ordered taken found items isOpen inside fresh full clock isRecord
  have body := concurBody_offset found calm.2.1 items fresh full clock (p := f.party)
  have effect := execConcur_done found calm taken inside
  have carried : e.number = number := number_of_entryOf found
  have carries : (concurredEntry f.party e).number = number := carried
  refine ⟨fun below => ?_, fun above within => ?_⟩
  · rw [if_pos below] at body
    have quiet : settle (concurBody f.party number s) = concurBody f.party number s :=
      settle_quiet calm (by rw [body, noticeProposal_allocator]; rfl)
    have gone : entryOf (concurBody f.party number s) number = none := by
      refine entryOf_removed (l := s.contracts.proposals) ?_
      rw [body, noticeProposal_contracts]
      rfl
    rw [quiet, items, entryStateCode_offset gone clock, if_pos below, body, noticeProposal, carries] at effect
    exact effect
  · rw [if_neg (by omega)] at body
    obtain ⟨n, a, noticed⟩ := noticed_eq (concurredEntry f.party e) .applied (withoutEntry number s)
    rw [noticed] at body
    generalize stepped : ((k : Int) + d).toNat = time at body ⊢
    obtain ⟨passes, clock', millis⟩ := stepClock_passes (s := { withoutEntry number s with
      links := { s.links with notices := n }, lines := { s.lines with attn := a } }) (time := time) calm.2.1 ordered.2.1 clock
      isRecord (by omega)
    have next : settle (concurBody f.party number s) = settle (boundary (.step time) { withoutEntry number s with
      links := { s.links with notices := n }, lines := { s.lines with attn := a } }) := by rw [body]; rfl
    rw [← next] at passes clock' millis
    generalize settle (concurBody f.party number s) = t at effect passes clock' millis
    have gone : ∀ x ∈ t.contracts.proposals, x.number ≠ number := by
      rw [passes.entries.1]
      intro x left
      obtain ⟨e', listed, same⟩ := mem_leftOf left
      rw [same]
      simpa using (List.mem_filter.1 listed).2
    have absent : entryOf t number = none := by
      rw [entryOf, List.find?_eq_none]
      intro x listed is
      exact gone x listed (beq_iff_eq.1 is)
    rw [items, entryStateCode_offset absent clock, if_neg (by omega)] at effect
    obtain ⟨o', opened, step, outage⟩ := passes.opened
    refine ⟨_, _, o', effect, answered_of_ports passes.ports .., gone, clock', millis, passes.recorded, passes.joined, opened, step,
      outage, passes.latched, fun c => ?_, passes.outside⟩
    obtain ⟨count, runs, stops, delay⟩ := passes.recovery nofun c
    exact ⟨count, runs, stops, fun plain => delay fun e' listed => plain e' (List.mem_filter.1 listed).1⟩

end Sys2Proof.Proofs.ClockSteps
end

section
/-! A boundary while every consumer is OFF and no grant stands, as at the resolution of an outage: it sheds, restores and cuts
nothing, so no notice of an event is raised (R66, R86, R159). -/

namespace Sys2Proof.Proofs.Outage
open Sys2Proof Sys2Proof.Machine Sys2Proof.Proofs.Notice Sys2Proof.Proofs.Trips Sys2Proof.Proofs.Event
  Sys2Proof.Proofs.Fields Sys2Proof.Proofs.Upkeep Sys2Proof.Proofs.Reactions Sys2Proof.Proofs.Application
  Sys2Proof.Proofs.Boundary Sys2Proof.Proofs.Boundaries Sys2Proof.Proofs.Timers Sys2Proof.Proofs.Period
  Sys2Proof.Proofs.Sums Sys2Proof.Proofs.Restart

variable {s t u : State}

/-! ## Consumers at rest -/

/-- Every consumer is OFF, and no grant stands. -/
def AtRest (s : State) : Prop := ∀ c, (consumer s c).state = .off ∧ grant s c = 0

/-- From consumers at rest, the change leaves them at rest and raises no notice of an event. -/
def Rests (s t : State) : Prop :=
  AtRest s → AtRest t ∧ ∀ (p : Fin 3) (j : Fin 10), j = clsShed ∨ j = clsGrant → t.links.notices[p][j] = s.links.notices[p][j]

theorem Rests.refl (s : State) : Rests s s := fun rest => ⟨rest, fun _ _ _ => rfl⟩

theorem Rests.trans (first : Rests s t) (second : Rests t u) : Rests s u := fun rest => by
  obtain ⟨rest', same⟩ := first rest
  obtain ⟨rest'', same'⟩ := second rest'
  exact ⟨rest'', fun p j event => (same' p j event).trans (same p j event)⟩

theorem Rests.foldl {α : Type} {f : State → α → State} (step : ∀ s a, Rests s (f s a)) (l : List α) (s : State) :
    Rests s (l.foldl f s) :=
  foldl_induct (fun t => Rests s t) _ _ (fun t a _ h => h.trans (step t a)) _ (.refl s)

theorem Rests.of_states (states : StatesStand s t) (grants : t.allocator.result.grants = s.allocator.result.grants)
    (links : t.links = s.links) : Rests s t := fun rest =>
  ⟨fun c => ⟨(states c).trans (rest c).1, by rw [grant, grants]; exact (rest c).2⟩, fun _ _ _ => by rw [links]⟩

theorem rests_raiseNotice (ps : PartySet) {k : Fin 10} (d : Detail) (s : State) (other : k ≠ clsShed ∧ k ≠ clsGrant) :
    Rests s (raiseNotice ps k d s) := fun rest => by
  have told := (raiseNotice_otherNotices ps k d s).2.2
  have frame := raiseNotice_frame ps k d s
  generalize raiseNotice ps k d s = t at told frame
  have record : ∀ c, consumer t c = consumer s c := consumer_eq (by rw [frame])
  refine ⟨fun c => ⟨by rw [record]; exact (rest c).1, ?_⟩, fun p j event => told p j ?_⟩
  · rw [grant, frame]
    exact (rest c).2
  · rcases event with rfl | rfl
    · exact other.1.symm
    · exact other.2.symm

/-! ## The reactions -/

theorem rests_cutGrant (c : Fin 8) (s : State) : Rests s (cutGrant c s) := fun rest => by
  have noCut : cutGrant c s = s := if_neg (by rw [(rest c).2]; omega)
  rw [noCut]
  exact ⟨rest, fun _ _ _ => rfl⟩

theorem rests_cutLinked (s : State) : Rests s (cutLinked s) :=
  Rests.foldl (fun s c => by
    split
    · exact rests_cutGrant c s
    · exact .refl s) _ s

theorem rests_zeroFlowItemChanged (i : Item) (s : State) : Rests s (zeroFlowItemChanged i s) := by
  refine .of_states (states_zeroFlowItemChanged i s) ?_ ?_
  · unfold zeroFlowItemChanged
    split
    · split
      · rw [expireFlow_allocator]
      · rfl
    · rfl
  · unfold zeroFlowItemChanged
    split
    · split
      · rw [expireFlow_links]
      · rfl
    · rfl

theorem rests_consumerItemChanged (c : Fin 8) (k : Fin 23) (s : State) : Rests s (consumerItemChanged c k s) := by
  have cut : Rests s (if k = cCeiling ∨ k = cHardCeiling ∨ k = cLinked then cutGrant c s else s) := by
    split
    · exact rests_cutGrant c s
    · exact .refl s
  unfold consumerItemChanged
  dsimp only
  generalize (if k = cCeiling ∨ k = cHardCeiling ∨ k = cLinked then cutGrant c s else s) = u at cut ⊢
  refine cut.trans (.trans ?_ (.of_states (states_evaluate c _) rfl rfl))
  split
  · split
    · exact .of_states (states_startRecovery c u) (by rw [startRecovery_allocator]) (startRecovery_links u c)
    · exact .of_states (states_setConsumer rfl) rfl rfl
  · exact .refl u

theorem rests_itemChanged (i : Item) (s : State) : Rests s (itemChanged i s) := by
  have first := rests_zeroFlowItemChanged i s
  unfold itemChanged
  generalize zeroFlowItemChanged i s = u at first
  dsimp only
  split
  · exact first.trans (rests_consumerItemChanged _ _ u)
  · split
    · exact first.trans (.of_states (fun _ => rfl) rfl rfl)
    · exact first
  · split
    · exact first.trans (rests_cutLinked u)
    · exact first
  · exact first

theorem rests_putInForce (clean : s.store.errors = []) (changes : List (Item × Int)) : Rests s (putInForce changes s) := by
  unfold putInForce
  rw [setItems_clean clean]
  exact .trans (t := withValues changes s) (.of_states (fun _ => rfl) rfl rfl)
    (Rests.foldl (fun s (ch : Item × Int) => rests_itemChanged ch.1 s) changes _)

theorem rests_runStages (s : State) : Rests s (runStages s) := fun rest => by
  have resting (c : Fin 8) := runStages_resting (c := c) (.inl (rest c).1)
  have unlit (c : Fin 8) : lit s c = false := not_lit (by rw [(rest c).1]; nofun)
  have noCandidate (c : Fin 8) : isCandidate s c = false := by simp [isCandidate, (rest c).1]
  have notWaiting (c : Fin 8) : isWaiting s c = false := by simp [isWaiting, (rest c).1]
  have noShed (c : Fin 8) : (plan (availableRate s) s).shed.contains c = false := by
    refine Bool.eq_false_iff.2 fun shed => ?_
    rcases (shed_iff s c).1 (List.contains_iff_mem.1 shed) with ⟨isLit, -⟩ | ⟨candidate, -⟩
    · rw [unlit] at isLit
      cases isLit
    · rw [noCandidate] at candidate
      cases candidate
  have noneRestored (c : Fin 8) : (plan (availableRate s) s).restored ≠ some c := fun is => by
    have waits := ((restored_iff s c).1 is).1
    rw [notWaiting] at waits
    cases waits
  have grants (c : Fin 8) : (plan (availableRate s) s).grants[c] = s.allocator.result.grants[c] := by
    have none := (resting c).2
    rw [runStages_grant] at none
    exact none.trans (rest c).2.symm
  have links : (runStages s).links = s.links := by
    have plain := plan_links s (availableRate s)
    unfold runStages
    generalize plan (availableRate s) s = x at plain noShed noneRestored grants ⊢
    have quiet : eventNotices x s.allocator.result.grants (applyPlan x s) = applyPlan x s := by
      have first : ∀ (l : List (Fin 8)) (t : State), l.foldl (fun s c =>
          if x.shed.contains c then noticeShed c false s
          else if x.restored = some c then noticeShed c true s else s) t = t := fun l t =>
        foldl_induct (fun v => v = t) _ _ (fun v c _ same => by
          rw [noShed, if_neg Bool.false_ne_true, if_neg (noneRestored c)]
          exact same) _ rfl
      have second : ∀ (l : List (Fin 8)) (t : State), l.foldl (fun s' c =>
          if x.grants[c] ≠ s.allocator.result.grants[c] then noticeGrant c x.grants[c] s' else s') t = t := fun l t =>
        foldl_induct (fun v => v = t) _ _ (fun v c _ same => by
          rw [if_neg (Classical.not_not.2 (grants c))]
          exact same) _ rfl
      unfold eventNotices
      dsimp only
      rw [first, second]
    rw [eventEvaluations_links, quiet]
    exact plain
  refine ⟨fun c => ⟨?_, (resting c).2⟩, fun _ _ _ => by rw [links]⟩
  rw [(resting c).1, withTimers_state]
  exact (rest c).1

theorem rests_takeTriggers (n : Nat) (clean : s.store.errors = []) : Rests s (takeTriggers n s) := by
  induction n generalizing s with
  | zero => exact .refl s
  | succ n ih =>
    unfold takeTriggers
    split
    · exact .refl s
    · rw [allocationEvent_clean (s := takeTrigger s) clean]
      have store := (runStages_store (creditFlare (takeTrigger s))).trans (creditFlare_store_clean (s := takeTrigger s) clean)
      have credit : Rests s (creditFlare (takeTrigger s)) := by
        rw [creditFlare_eq (s := takeTrigger s) clean]
        exact .of_states (fun _ => rfl) rfl rfl
      exact (credit.trans (rests_runStages _)).trans (ih (by rw [store]; exact clean))

theorem rests_settle (clean : s.store.errors = []) : Rests s (settle s) := rests_takeTriggers _ clean

/-! ## The boundary -/

theorem rests_clearDamageMarks (clean : s.store.errors = []) (changes : List (Item × Int)) :
    Rests s (clearDamageMarks changes s) := by
  obtain ⟨frame, -, record⟩ := clearDamageMarks_clean clean changes
  exact .of_states (fun c => by rw [record]) (by rw [frame]) (by rw [frame])

theorem rests_applyEntry (x : Applying) (clean : x.state.store.errors = []) (e : Proposal) :
    Rests x.state (applyEntry x e).state ∧ (applyEntry x e).state.store = x.state.store := by
  have notice (o : Outcome) (s : State) : Rests s (noticeProposal e o s) := rests_raiseNotice _ _ s ⟨by decide, by decide⟩
  unfold applyEntry
  split
  · exact ⟨.refl _, rfl⟩
  · split
    · exact ⟨.refl _, rfl⟩
    · split
      · exact ⟨notice _ _, noticeProposal_store ..⟩
      · have put := rests_putInForce clean (heldItems e.items)
        have store := putInForce_store_clean clean (heldItems e.items)
        have marks := rests_clearDamageMarks (s := putInForce (heldItems e.items) x.state) (by rw [store]; exact clean)
          (heldItems e.items)
        have frame := (clearDamageMarks_clean (s := putInForce (heldItems e.items) x.state) (by rw [store]; exact clean)
          (heldItems e.items)).1
        refine ⟨(put.trans marks).trans (notice _ _), ?_⟩
        show (noticeProposal e .applied _).store = _
        rw [noticeProposal_store, frame]
        exact store

theorem rests_applyStaged (clean : s.store.errors = []) : Rests s (applyStaged s) := by
  have entries : Rests s (applyEntries s).state ∧ (applyEntries s).state.store = s.store :=
    foldl_induct (fun x : Applying => Rests s x.state ∧ x.state.store = s.store) _ _
      (fun x e _ ⟨rests, store⟩ =>
        have one := rests_applyEntry x (by rw [store]; exact clean) e
        ⟨rests.trans one.1, one.2.trans store⟩) _ ⟨.refl s, rfl⟩
  obtain ⟨rests, store⟩ := entries
  have cleanX : (applyEntries s).state.store.errors = [] := by rw [store]; exact clean
  unfold applyStaged
  dsimp only
  rw [setProposals_clean cleanX]
  split
  · rw [bumpRevision_clean (by exact cleanX)]
    exact rests.trans (.of_states (fun _ => rfl) rfl rfl)
  · exact rests.trans (.of_states (fun _ => rfl) rfl rfl)

theorem rests_makeLatch (clean : s.store.errors = []) (old start : Nat) :
    Rests s (makeLatch start (removeUnaligned old s)) ∧ (makeLatch start (removeUnaligned old s)).store = s.store := by
  have placed : Rests s (latchedState old start s) := .of_states (fun _ => rfl) rfl rfl
  have store : (latchedState old start s).store = s.store := rfl
  rw [makeLatch_eq clean]
  generalize latchedState old start s = u at placed store
  exact ⟨placed.trans (rests_cutLinked u), (cutLinked_store u).trans store⟩

theorem rests_openRecord (clean : s.store.errors = []) (k : Boundary) (start : Nat) (changed : Bool) :
    Rests s (openRecord k start changed s) := by
  rw [openRecord_eq clean]
  exact .of_states (fun _ => rfl) rfl rfl

theorem rests_opening (clean : s.store.errors = []) (k : Boundary) (start : Nat) : Rests s (opening k start s) := by
  have applied := rests_applyStaged clean
  have store : (applyStaged s).store = s.store :=
    (around_of_surroundings (applyStaged_applied clean fun _ => rfl).1.around).store
  unfold opening
  generalize applyStaged s = x at applied store
  have cleanX : x.store.errors = [] := by rw [store, clean]
  obtain ⟨latched, storeU⟩ := rests_makeLatch cleanX (intervalLength s) (regularStart (intervalLength x) start)
  exact (applied.trans latched).trans (rests_openRecord (by rw [storeU, cleanX]) k start _)

/-- The boundary after an outage, part by part (R159, R160). -/
theorem boundary_outage_eq {o : OpenRecord} (clean : s.store.errors = []) (isOpen : s.settlement.openRecord = some o) :
    boundary .outage s = raiseNotice allParties clsSettlement (.settlement o.number) (opening .outage (presentStart s)
      (closedWith (closedRecord s o (presentStart s) o.flare false true) s)) := by
  have closes : closingTime .outage s o = presentStart s := rfl
  have record : archiveRecord .outage s o = closedRecord s o (presentStart s) o.flare false true :=
    archiveRecord_eq (v := s) (k := .outage) (flare := o.flare) (.inl rfl) o closes
  unfold boundary boundaryCredit
  rw [if_pos rfl]
  dsimp only
  rw [isOpen]
  dsimp only
  rw [closeRecord_eq clean, record, openInterval_outage]
  generalize closedRecord s o (presentStart s) o.flare false true = r
  have start : presentStart (closedWith r s) = presentStart s := rfl
  rw [start]

/-- The boundary after an outage opens the next record from a state `u`, and the SETTLEMENT notice follows (R151, R159). -/
theorem boundary_outage_opens {o : OpenRecord} (clean : s.store.errors = [])
    (rising : s.exports.schedule.Pairwise fun a b => a.start < b.start) (isOpen : s.settlement.openRecord = some o) :
    ∃ u, boundary .outage s = raiseNotice allParties clsSettlement (.settlement o.number) u ∧
      Opens .outage (presentStart s) (closedWith (closedRecord s o (presentStart s) o.flare false true) s) u
        (fates (fun c => (consumer s c).state != .off) s.contracts.contract s.contracts.proposals) ∧
      Rests s u ∧ u.store.errors = [] := by
  have whole := boundary_outage_eq clean isOpen
  generalize closedRecord s o (presentStart s) o.flare false true = r at whole ⊢
  have opens : Opens .outage (presentStart s) (closedWith r s) (opening .outage (presentStart s) (closedWith r s))
      (fates (fun c => (consumer s c).state != .off) s.contracts.contract s.contracts.proposals) :=
    opening_opens (s := closedWith r s) (busy := fun c => (consumer s c).state != .off) clean (fun _ => rfl) rising _ _
  have closed : Rests s (closedWith r s) := .of_states (fun _ => rfl) rfl rfl
  have rests := rests_opening (s := closedWith r s) clean .outage (presentStart s)
  generalize opening .outage (presentStart s) (closedWith r s) = u at whole opens rests
  have kept : u.store = (closedWith r s).store := (around_of_surroundings opens.around).store
  exact ⟨u, whole, opens, closed.trans rests, by rw [kept]; exact clean⟩

/-- A boundary after an outage leads to `t`: it closes `o` at the regular start, without a credit, and of the notices only
PROPOSAL and SETTLEMENT move where every consumer is at rest (R159, R160). -/
structure Resumes (s t : State) (o : OpenRecord) (fs : List (Proposal × Fate)) : Prop where
  passes : Passes .outage s t o (presentStart s) o.flare (presentStart s) fs
  clock : t.settlement.clock = s.settlement.clock
  notices : AtRest s → ∀ (p : Fin 3) (j : Fin 10), j ≠ clsProposal → j ≠ clsSettlement →
    t.links.notices[p][j] = s.links.notices[p][j]
  off : AtRest s → AtRest t

theorem boundary_outage_resumes {o : OpenRecord} (clean : s.store.errors = [])
    (rising : s.exports.schedule.Pairwise fun a b => a.start < b.start) (isOpen : s.settlement.openRecord = some o)
    (point : s.allocator.result.creditPoint = s.allocator.base) :
    Resumes s (settle (boundary .outage s)) o
      (fates (fun c => (consumer s c).state != .off) s.contracts.contract s.contracts.proposals) ∧
    (boundary .outage s).store.errors = [] := by
  obtain ⟨u, whole, opens, rests, store⟩ := boundary_outage_opens clean rising isOpen
  generalize step : closedRecord s o (presentStart s) o.flare false true = r at opens
  have moved : closedWith r s = movedFrom (closedRecord s o (presentStart s) o.flare (isStep .outage)
      (decide (Boundary.outage = .outage))) s.settlement.clock s.settlement.clockMillis s := by
    rw [show isStep .outage = false from rfl, decide_eq_true rfl, step]
    rfl
  have recovers : Recovers .outage u u := ⟨rfl, rfl, rfl, rfl, rfl, fun _ => rfl, fun other => absurd rfl other⟩
  obtain ⟨passes, clock, -⟩ := passes_of_opens (k := .outage) (stop := presentStart s) (flare := o.flare) clean (.inl rfl) point moved
    opens recovers
  have raised := rests_raiseNotice allParties (k := clsSettlement) (.settlement o.number) u ⟨by decide, by decide⟩
  have told := (raiseNotice_otherNotices allParties clsSettlement (.settlement o.number) u).2.2
  have storeX : (raiseNotice allParties clsSettlement (.settlement o.number) u).store.errors = [] := by
    rw [raiseNotice_frame]
    exact store
  rw [whole]
  generalize raiseNotice allParties clsSettlement (.settlement o.number) u = x at passes clock raised told storeX ⊢
  have whole' := (rests.trans raised).trans (rests_settle storeX)
  refine ⟨⟨passes, clock, fun rest p j proposal settlement => ?_, fun rest => (whole' rest).1⟩, storeX⟩
  by_cases event : j = clsShed ∨ j = clsGrant
  · exact (whole' rest).2 p j event
  · obtain ⟨shed, grant⟩ := not_or.1 event
    rw [(reacts_settle storeX).notices p j shed grant, told p j settlement, opens.notices p j shed grant proposal]
    rfl

/-! ## The resolution (R159) -/

theorem itemNat_withChanges {changes : List (Item × Int)} {i : Item} (plain : ∀ ch ∈ changes, ch.1 ≠ i) (s : State) :
    itemNat (withValues changes s) i = itemNat s i := by
  have same (k : Contract) : readItem (withChanges k changes) i = readItem k i := by
    induction changes generalizing k with
    | nil => rfl
    | cons ch rest ih =>
      refine (ih (fun ch member => plain ch (List.mem_cons_of_mem _ member)) _).trans ?_
      exact readItem_writeItem_ne k (plain ch (List.mem_cons_self ..)).symm _
  unfold itemNat item
  rw [withValues, same]

/-- No STAGED entry of the table changes the interval length. -/
def LengthStands (s : State) : Prop :=
  ∀ e ∈ s.contracts.proposals, e.staged = true → ∀ x ∈ e.items, x.1 ≠ .item .intervalLength

theorem itemNat_taken {busy : Fin 8 → Bool} {m : State} (contract : m.contracts.contract = s.contracts.contract)
    (taken : EntriesTaken m t (fates busy s.contracts.contract s.contracts.proposals)) (stands : LengthStands s) :
    itemNat t .intervalLength = itemNat s .intervalLength := by
  have plain : ∀ ch ∈ appliedItems (fates busy s.contracts.contract s.contracts.proposals), ch.1 ≠ .intervalLength := by
    intro ch member is
    obtain ⟨e, listed, staged, carried⟩ := mem_appliedItems member
    exact stands e listed staged _ carried (by rw [is])
  rw [← itemNat_withChanges plain s]
  exact itemNat_eq (by rw [taken.1, contract]; rfl) _

/-- The record that the boundary opens reaches past the present time, and is marked COMMISSIONING as the contract is
(R147, R150). -/
theorem boundary_outage_reaches {o : OpenRecord} {k : Nat} (clean : s.store.errors = [])
    (rising : s.exports.schedule.Pairwise fun a b => a.start < b.start) (isOpen : s.settlement.openRecord = some o)
    (clock : s.settlement.clock = some k) (long : 0 < itemNat s .intervalLength) (stands : LengthStands s) :
    pastEnd (boundary .outage s) = false ∧
    ∃ o', (boundary .outage s).settlement.openRecord = some o' ∧ o'.commissioning = !s.contracts.locked := by
  obtain ⟨u, whole, opens, -, -⟩ := boundary_outage_opens clean rising isOpen
  have frame := raiseNotice_frame allParties clsSettlement (.settlement o.number) u
  rw [whole, frame]
  generalize closedRecord s o (presentStart s) o.flare false true = r at opens
  obtain ⟨o', ⟨opened, -, -, -, stop, -, -, -, -, -, -, commissioning, -⟩, -, -⟩ := opens.opened
  have contracts := opens.entries.1
  have length := itemNat_taken (s := s) rfl opens.entries stands
  have clock' : u.settlement.clock = some k := by
    rw [opens.settlement]
    exact clock
  refine ⟨?_, o', opened, by rw [commissioning, contracts]; rfl⟩
  have start : presentStart s = k - k % itemNat s .intervalLength := by
    rw [presentStart, deviceTime, clock]
    rfl
  have whole' := regularStart_mod (itemNat s .intervalLength) k
  rw [regularStart] at whole'
  rw [start, length, whole', Nat.sub_zero] at stop
  have below := Nat.mod_lt k long
  simp only [pastEnd, boundaryDue, clock', opened]
  exact decide_eq_false (by omega)

theorem resolveOutage_past {kind : RestartKind} (clean : s.store.errors = []) (past : pastEnd s = true)
    (reaches : pastEnd (boundary .outage s) = false) (store : (boundary .outage s).store.errors = [])
    (marked : kind = .unlock → ∀ o', (boundary .outage s).settlement.openRecord = some o' → o'.commissioning = true) :
    resolveOutage kind s = boundary .outage s := by
  have once (n : Nat) : outageBoundaries (n + 2) s = boundary .outage s := by
    rw [outageBoundaries, if_pos past, readAll_clean clean, if_pos past, outageBoundaries, if_neg (by rw [reaches]; nofun)]
  unfold resolveOutage
  rw [readAll_clean clean]
  dsimp only
  rw [if_pos past, once]
  generalize boundary .outage s = t at store marked ⊢
  split
  next unlocks =>
    have same : t.settlement.openRecord.map (fun o => { o with commissioning := true }) = t.settlement.openRecord := by
      cases isOpen : t.settlement.openRecord with
      | none => rfl
      | some o' =>
        have mark := marked unlocks o' isOpen
        rw [Option.map_some, ← mark]
    rw [onOpen_clean store, same]
  next => rfl

theorem restarted_atRest (kind : RestartKind) (s : State) : AtRest (restarted kind s) := fun c =>
  ⟨freshBlocks_off kind s c, by simp [grant, restarted, freshBlocks, freshAllocator, emptyAllocation]⟩

theorem restart_notices {t : State} {kind : RestartKind} {number : Nat} {fs : List (Proposal × Fate)}
    (told : ∀ p : Party, t.links.notices[partyIndex p][clsProposal] =
      toldOf p fs (restartLinks kind).notices[partyIndex p][clsProposal])
    (settled : ∀ p : Fin 3, t.links.notices[p][clsSettlement] =
      addOccurrence (.settlement number) (restartLinks kind).notices[p][clsSettlement])
    (others : ∀ (p : Fin 3) (j : Fin 10), j ≠ clsProposal → j ≠ clsSettlement →
      t.links.notices[p][j] = (restartLinks kind).notices[p][j]) (p : Party) :
    t.links.notices[partyIndex p] =
      ((restartNotices kind).set 8 { pending := true, count := 1, detail := some (.settlement number) }).set 6
        (toldOf p fs clearNotice) := by
  have fresh (q : Fin 3) : (restartLinks kind).notices[q] = restartNotices kind := Vector.getElem_replicate ..
  ext1 j hj
  by_cases isProposal : j = 6
  · subst isProposal
    have own := told p
    rw [fresh] at own
    rw [Vector.getElem_set_self]
    exact own
  · rw [Vector.getElem_set_ne _ _ (Ne.symm isProposal)]
    by_cases isSettlement : j = 8
    · subst isSettlement
      have own := settled (partyIndex p)
      rw [fresh] at own
      rw [Vector.getElem_set_self]
      exact own
    · rw [Vector.getElem_set_ne _ _ (Ne.symm isSettlement)]
      have other := others (partyIndex p) ⟨j, hj⟩ (fun is => isProposal (congrArg Fin.val is))
        fun is => isSettlement (congrArg Fin.val is)
      rw [fresh] at other
      exact other

/-- Settles O49: the start-up, the one boundary that the outage's resolution takes, and the part that begins to take events. -/
theorem restartPastTheEndClosesTheRecord : Obligations.RestartPastTheEndClosesTheRecord := by
  unfold Obligations.RestartPastTheEndClosesTheRecord
  intro s high k o fs stopped clean valid ordered clock isOpen ended long stands taken
  rw [startUp_warm stopped valid, warmStart_clean clean]
  generalize kindIs : (if high then RestartKind.unlock else .restart) = kind
  have locked : (restarted kind s).contracts.locked = (s.contracts.locked && !high) := by
    subst kindIs
    cases high <;> rfl
  have past : pastEnd (restarted kind s) = true := by
    show boundaryDue s = true
    simp only [boundaryDue, clock, isOpen, decide_eq_true ended]
  have busy : (fun c => (consumer (restarted kind s) c).state != .off) = fun _ => false :=
    funext fun c => by rw [(restarted_atRest kind s c).1]; rfl
  have lengthStands : LengthStands (restarted kind s) := fun e listed => stands e (List.mem_filter.1 listed).1
  obtain ⟨reaches, o', opened, marked⟩ := boundary_outage_reaches (s := restarted kind s) clean ordered.2.1 isOpen clock long
    lengthStands
  obtain ⟨resumes, store⟩ := boundary_outage_resumes (s := restarted kind s) clean ordered.2.1 isOpen rfl
  rw [resolveOutage_past (s := restarted kind s) clean past reaches store fun unlocks o'' is => ?_]
  · have passes := resumes.passes
    have notices := resumes.notices (restarted_atRest kind s)
    have clock' := resumes.clock
    have fates' : fates (fun _ => false) (restarted kind s).contracts.contract (restarted kind s).contracts.proposals = fs :=
      taken.symm
    have length := itemNat_taken rfl passes.entries lengthStands
    rw [busy, fates'] at passes
    have latched := passes.latched
    have start : presentStart (restarted kind s) = k - k % itemNat s .intervalLength := by
      show regularStart (intervalLength s) (deviceTime s) = _
      rw [deviceTime, clock]
      rfl
    have whole := regularStart_mod (itemNat s .intervalLength) k
    rw [regularStart] at whole
    rw [start, length, show itemNat (restarted kind s) .intervalLength = itemNat s .intervalLength from rfl, whole,
      Nat.sub_zero] at latched
    rw [start] at passes
    generalize settle (boundary .outage (restarted kind s)) = t at passes latched notices clock' ⊢
    have frame := beginOperation_frame t
    generalize (beginOperation t).lines = l, (beginOperation t).allocator = al at frame
    obtain ⟨o', opened, step, outage⟩ := passes.opened
    obtain ⟨table, marks⟩ := passes.entries
    refine ⟨_, closedRecord (restarted kind s) o (k - k % itemNat s .intervalLength) o.flare false true, o', congrArg _ frame,
      passes.recorded, passes.joined, opened, outage, step, latched, clock'.trans clock, ⟨?_, fun c => ?_⟩, fun p => ?_, rfl, ?_⟩
    · rw [table, ← locked]
      rfl
    · have mark : (consumer (restarted kind s) c).damageMark = (consumer s c).damageMark := by
        simp [consumer, restarted, freshBlocks, freshSupervisor, freshConsumer]
      have own := marks c
      rw [mark] at own
      exact own
    · exact restart_notices passes.told passes.settled notices p
    · exact passes.outside.2.2.2.1
  · obtain rfl := Option.some.inj (opened.symm.trans is)
    rw [marked, locked]
    subst kindIs
    cases high
    · cases unlocks
    · simp

end Sys2Proof.Proofs.Outage
end

section
/-! What a change of one item in force does to the block that reads it: cuts, the recovery delay, zero flow and evaluation points
(R3, R69, R97, R100, R117). -/

namespace Sys2Proof.Proofs.ItemActs
open Sys2Proof Sys2Proof.Machine Sys2Proof.Proofs.Trips Sys2Proof.Proofs.Event Sys2Proof.Proofs.StopNominate
  Sys2Proof.Proofs.Fields Sys2Proof.Proofs.Reactions

variable {s t u w x y : State} {c : Fin 8} {k : Fin 23}

/-! ## A record at an evaluation point (R88) -/

/-- The record `r` of a consumer after an evaluation point of the state `u`. -/
def reviewed (r : Consumer) (u : State) (c : Fin 8) : Consumer := evaluated (setConsumer c r u) c

theorem reviewed_eq (r : Consumer) (u : State) (c : Fin 8) : reviewed r u c = { r with
    overdrawTimer := judge (r.state == .active && overdrawHolds u c) r.overdrawTimer (startTimer u c cOverdrawMask)
    lineLowTimer := judge (r.state == .active && lineLowHolds u c) r.lineLowTimer (startTimer u c cLineLowMask)
    passingTimer := judge (!(r.state == .active) && !(r.state == .tripped && r.causes.valvePassing) && passingHolds u c)
      r.passingTimer (startTimer u c cPassingMask)
    lowDrawTimer := judge (r.state == .active && lowDrawHolds u c) r.lowDrawTimer (startTimer u c cLowDrawTime) } := by
  unfold reviewed evaluated lit passingApplies lit
  rw [consumer_setConsumer_same]
  rfl

theorem evaluated_reviewed (u : State) (c : Fin 8) : evaluated u c = reviewed (consumer u c) u c := by
  rw [reviewed, setConsumer_self]

theorem judge_judge (holds : Bool) (running : Option Timer) (fresh : Timer) :
    judge holds (judge holds running fresh) fresh = judge holds running fresh := by
  cases holds <;> rfl

theorem reviewed_reviewed (r : Consumer) (u : State) (c : Fin 8) : reviewed (reviewed r u c) u c = reviewed r u c := by
  simp only [reviewed_eq, judge_judge]

/-- An evaluation point neither reads nor moves the damage mark and the recovery delay. -/
theorem reviewed_lasting (r : Consumer) (u : State) (c : Fin 8) (b : Bool) (tm : Option Timer) :
    reviewed { r with damageMark := b, recoveryTimer := tm } u c =
      { reviewed r u c with damageMark := b, recoveryTimer := tm } := by
  simp only [reviewed_eq]

theorem reviewed_delay (r : Consumer) (u : State) (c : Fin 8) (tm : Option Timer) :
    reviewed { r with recoveryTimer := tm } u c = { reviewed r u c with recoveryTimer := tm } := by
  simp only [reviewed_eq]

/-- What an evaluation point of a consumer reads besides its record stands. -/
structure Sees (c : Fin 8) (s t : State) : Prop where
  field : t.field = s.field
  contract : t.contracts.contract = s.contracts.contract
  grant : grant t c = grant s c
  base : t.supervisor.base = s.supervisor.base

theorem Sees.trans (first : Sees c s t) (second : Sees c t u) : Sees c s u :=
  ⟨second.field.trans first.field, second.contract.trans first.contract, second.grant.trans first.grant,
    second.base.trans first.base⟩

theorem Sees.symm (h : Sees c s t) : Sees c t s := ⟨h.field.symm, h.contract.symm, h.grant.symm, h.base.symm⟩

theorem reviewed_of_sees (sees : Sees c s t) (r : Consumer) : reviewed r t c = reviewed r s c := by
  obtain ⟨field, contract, granted, base⟩ := sees
  have items (k : Fin 23) : consumerItem t c k = consumerItem s c k := consumerItem_eq contract ..
  have values (i : Item) : item t i = item s i := by rw [item, contract, item]
  have drawn : draw t c = draw s c := by
    have timeout (ch : Fin 16) : itemNat t (zeroFlowItem ch) = itemNat s (zeroFlowItem ch) := itemNat_eq contract _
    have elapsed (n : Nat) : sinceArrival t n = sinceArrival s n := by rw [sinceArrival, field, sinceArrival]
    unfold draw takeRate channel
    rw [field]
    simp only [timeout, elapsed]
  have line : valueInUse t (lineChannel c) = valueInUse s (lineChannel c) := by
    unfold valueInUse sample
    rw [field, values]
  have timers (k : Fin 23) : startTimer t c k = startTimer s c k := by rw [startTimer, base, items, startTimer]
  have overdraws : overdrawHolds t c = overdrawHolds s c := by
    rw [overdrawHolds, overdrawLimit, drawn, granted, items, items, overdrawHolds, overdrawLimit]
  have linesLow : lineLowHolds t c = lineLowHolds s c := by rw [lineLowHolds, line, values, lineLowHolds]
  have passes : passingHolds t c = passingHolds s c := by rw [passingHolds, drawn, items, passingHolds]
  have drawsLow : lowDrawHolds t c = lowDrawHolds s c := by rw [lowDrawHolds, drawn, granted, items, lowDrawHolds]
  simp only [reviewed_eq, overdraws, linesLow, passes, drawsLow, timers]

theorem sees_setConsumer (d : Fin 8) (r : Consumer) (s : State) : Sees c s (setConsumer d r s) := ⟨rfl, rfl, rfl, rfl⟩

theorem consumer_evaluate_same (c : Fin 8) (u : State) : consumer (evaluate c u) c = reviewed (consumer u c) u c := by
  rw [evaluate, consumer_setConsumer_same, evaluated_reviewed]

theorem consumer_evaluate_after (c : Fin 8) (u : State) :
    consumer (evaluate c u) c = reviewed (consumer u c) (evaluate c u) c :=
  (consumer_evaluate_same c u).trans (reviewed_of_sees (sees_setConsumer c _ u) _).symm

theorem consumer_evaluate_other {d : Fin 8} (other : d ≠ c) (u : State) : consumer (evaluate c u) d = consumer u d :=
  consumer_setConsumer_ne other _ _

/-! ## Cuts (R69) -/

/-- The grants of the consumers `S` above their demands have been cut to them, each of which was then an evaluation point. -/
structure Cut (S : Fin 8 → Prop) (s t : State) : Prop where
  allocator : t.allocator = { s.allocator with result := { s.allocator.result with
    grants := t.allocator.result.grants, surplus := t.allocator.result.surplus } }
  cut : ∀ d, S d → grant t d = min (grant s d) (demand s d)
  stands : ∀ d, ¬ S d → grant t d = grant s d
  record : ∀ d, consumer t d = if grant t d = grant s d then consumer s d else reviewed (consumer s d) t d
  field : t.field = s.field
  contracts : t.contracts = s.contracts
  exports : t.exports = s.exports
  settlement : t.settlement = s.settlement
  base : t.supervisor.base = s.supervisor.base

theorem Cut.refl (s : State) : Cut (fun _ => False) s s :=
  ⟨rfl, nofun, fun _ _ => rfl, fun _ => (if_pos rfl).symm, rfl, rfl, rfl, rfl, rfl⟩

theorem Cut.nomination {S : Fin 8 → Prop} (h : Cut S s t) (d : Fin 8) : (consumer t d).nomination = (consumer s d).nomination := by
  rw [h.record d]
  split
  · rfl
  · rw [reviewed_eq]

/-- A demand depends on nothing that a cut moves (R56). -/
theorem demand_of_same (contract : t.contracts.contract = s.contracts.contract) (exports : t.exports = s.exports)
    (clock : t.settlement.clock = s.settlement.clock) (d : Fin 8)
    (nomination : (consumer t d).nomination = (consumer s d).nomination) : demand t d = demand s d := by
  have items (i : Item) : itemNat t i = itemNat s i := itemNat_eq contract i
  have own (k : Fin 23) : consumerItem t d k = consumerItem s d k := consumerItem_eq contract ..
  have linked : isLinked t d = isLinked s d := by rw [isLinked, flagItem, item, contract, isLinked, flagItem, item]
  have scheduled : scheduledExport t = scheduledExport s := by rw [scheduledExport, clock, exports, items, scheduledExport]
  simp only [demand, cappedNomination, derivedRate, effectiveCeiling, linked, scheduled, items, own, nomination]

theorem Cut.demand {S : Fin 8 → Prop} (h : Cut S s t) (d : Fin 8) : demand t d = demand s d :=
  demand_of_same (by rw [h.contracts]) h.exports (by rw [h.settlement]) d (h.nomination d)

theorem Cut.trans {S S' : Fin 8 → Prop} (first : Cut S s t) (second : Cut S' t u) (apart : ∀ d, S d → ¬ S' d) :
    Cut (fun d => S d ∨ S' d) s u := by
  refine ⟨?_, fun d either => ?_, fun d neither => ?_, fun d => ?_, second.field.trans first.field,
    second.contracts.trans first.contracts, second.exports.trans first.exports, second.settlement.trans first.settlement,
    second.base.trans first.base⟩
  · rw [second.allocator, first.allocator]
  · rcases either with own | own
    · rw [second.stands d (apart d own), first.cut d own]
    · rw [second.cut d own, first.demand, first.stands d fun early => apart d early own]
  · obtain ⟨no, no'⟩ := not_or.1 neither
    rw [second.stands d no', first.stands d no]
  · by_cases own : S' d
    · have same := first.stands d fun early => apart d early own
      rw [second.record d, first.record d, same, if_pos rfl]
    · have same := second.stands d own
      have sees : Sees d t u := ⟨second.field, by rw [second.contracts], same, second.base⟩
      rw [second.record d, if_pos same, first.record d, same, reviewed_of_sees sees]

theorem cut_cutGrant (c : Fin 8) (s : State) : Cut (· = c) s (cutGrant c s) := by
  have cut := cutGrant_cut c s
  have contracts : (cutGrant c s).contracts = s.contracts := cutGrant_contracts ..
  have exports : (cutGrant c s).exports = s.exports := cutGrant_exports ..
  have field : (cutGrant c s).field = s.field := cutGrant_field ..
  have own : grant (cutGrant c s) c = min (grant s c) (demand s c) := by
    rw [grant, cut.allocator, grantLowered]
    show (s.allocator.result.grants.set c _)[c] = _
    rw [Fin.getElem_fin, Vector.getElem_set_self, Nat.min_comm]
    rfl
  have others (d : Fin 8) (other : d ≠ c) : grant (cutGrant c s) d = grant s d := by
    rw [grant, cut.allocator, grantLowered]
    exact getElem_set_fin _ other _
  have base : (cutGrant c s).supervisor.base = s.supervisor.base := by
    unfold cutGrant
    split
    · show (lowerGrant c _ s).supervisor.base = _
      rw [lowerGrant_supervisor]
    · rfl
  refine ⟨by rw [cut.allocator]; rfl, fun d is => by rw [is]; exact own, others, fun d => ?_, field, contracts, exports,
    cut.settlement, base⟩
  by_cases is : d = c
  · subst is
    unfold cutGrant at own ⊢
    split
    next below =>
      rw [if_pos below] at own
      rw [if_neg (by rw [own]; omega), consumer_evaluate_after, consumer_eq (lowerGrant_supervisor ..)]
    next => rw [if_pos rfl]
  · rw [if_pos (others d is), cut.others d is]

/-- The linked consumers are cut in turn (R110). -/
theorem cut_cutLinked (s : State) : Cut (fun d => isLinked s d = true) s (cutLinked s) := by
  have go (l : List (Fin 8)) (distinct : l.Nodup) (t : State) (contracts : t.contracts = s.contracts) :
      Cut (fun d => d ∈ l ∧ isLinked s d = true) t (l.foldl (fun s c => if isLinked s c then cutGrant c s else s) t) := by
    induction l generalizing t with
    | nil => simpa using Cut.refl t
    | cons c rest ih =>
      obtain ⟨fresh, distinct⟩ := List.nodup_cons.1 distinct
      have linked : isLinked t c = isLinked s c := flagItem_eq contracts _
      rw [List.foldl_cons, linked]
      split
      next isLinked' =>
        have first := cut_cutGrant c t
        have whole := first.trans (ih distinct _ (first.contracts.trans contracts)) fun d is ⟨member, _⟩ => fresh (is ▸ member)
        refine cast (congrArg (Cut · _ _) (funext fun d => propext ?_)) whole
        simp only [List.mem_cons]
        grind
      next notLinked =>
        refine cast (congrArg (Cut · _ _) (funext fun d => propext ?_)) (ih distinct t contracts)
        simp only [List.mem_cons]
        grind
  have whole : Cut (fun d => d ∈ List.finRange 8 ∧ isLinked s d = true) s (cutLinked s) := go _ (List.nodup_finRange 8) s rfl
  simpa only [List.mem_finRange, true_and] using whole

/-! ## Zero flow (R3, R7) -/

theorem zeroFlowItem_of_channel {i : Item} {ch : Fin 16} (is : zeroFlowChannel i = some ch) : zeroFlowItem ch = i := by
  cases i with
  | source n k =>
    obtain ⟨rfl, rfl⟩ : k = sZeroFlow ∧ _ = ch := by simpa [zeroFlowChannel] using is
    exact dif_pos n.isLt
  | consumer c k =>
    obtain ⟨rfl, rfl⟩ : k = cZeroFlow ∧ _ = ch := by simpa [zeroFlowChannel] using is
    revert c
    decide
  | heatPoint n k =>
    obtain ⟨rfl, rfl⟩ : k = pZeroFlow ∧ _ = ch := by simpa [zeroFlowChannel] using is
    revert n
    decide
  | exportItem k =>
    obtain ⟨rfl, rfl⟩ : k = xZeroFlow ∧ 15 = ch := by simpa [zeroFlowChannel] using is
    rfl
  | _ => cases is

/-- The consumer of a channel whose timeout an item is, is the item's own (R2, R3). -/
theorem consumer_of_zeroFlow {i : Item} {ch : Fin 16} (is : zeroFlowChannel i = some ch) (d : Fin 8)
    (own : channelConsumer ch = some d) : i = .consumer d cZeroFlow := by
  rw [← zeroFlowItem_of_channel is]
  clear is
  revert ch d
  decide

/-- A zero-flow timeout that has already passed is taken at once. -/
structure Flowed (i : Item) (w u : State) : Prop where
  allocator : u.allocator = w.allocator
  contracts : u.contracts = w.contracts
  exports : u.exports = w.exports
  settlement : u.settlement = w.settlement
  base : u.supervisor.base = w.supervisor.base
  record : ∀ d, consumer u d = consumer w d ∨ (i = .consumer d cZeroFlow ∧ consumer u d = reviewed (consumer w d) u d)
  field : (∃ ch last, zeroFlowChannel i = some ch ∧ (channel w ch).state ≠ .noFlow ∧ (channel w ch).lastArrival = some last ∧
      1000 * itemNat w i ≤ sinceArrival w last ∧ u.field = (setChannel ch
        { state := .noFlow, lastArrival := none, period := none, lastEnergy := none, rate := 0,
          noise := (channel w ch).noise } w).field) ∨
    (u.field = w.field ∧ ∀ ch last, zeroFlowChannel i = some ch → (channel w ch).state ≠ .noFlow →
      (channel w ch).lastArrival = some last → sinceArrival w last < 1000 * itemNat w i)

theorem zeroFlowDue_iff (w : State) (ch : Fin 16) : zeroFlowDue w ch = true ↔ (channel w ch).state ≠ .noFlow ∧
    ∃ last, (channel w ch).lastArrival = some last ∧ 1000 * itemNat w (zeroFlowItem ch) ≤ sinceArrival w last := by
  unfold zeroFlowDue
  split
  next dry => simp [dry]
  next last arrived flows => simpa [arrived] using fun _ => flows
  next arrived _ => simp [arrived]

theorem flowed (i : Item) (w : State) : Flowed i w (zeroFlowItemChanged i w) := by
  unfold zeroFlowItemChanged
  cases is : zeroFlowChannel i with
  | none => exact ⟨rfl, rfl, rfl, rfl, rfl, fun _ => .inl rfl, .inr ⟨rfl, fun ch _ h => by rw [is] at h; cases h⟩⟩
  | some ch =>
    have due := zeroFlowDue_iff w ch
    rw [zeroFlowItem_of_channel is] at due
    dsimp only
    split
    next falls =>
      obtain ⟨flows, last, arrived, passed⟩ := due.1 falls
      refine ⟨expireFlow_allocator .., expireFlow_contracts .., expireFlow_exports .., expireFlow_settlement .., ?_, fun d => ?_,
        .inl ⟨ch, last, is, flows, arrived, passed, ?_⟩⟩ <;> unfold expireFlow
      · cases channelConsumer ch <;> rfl
      · cases own : channelConsumer ch with
        | none => exact .inl rfl
        | some c =>
          by_cases same : d = c
          · subst same
            exact .inr ⟨consumer_of_zeroFlow is d own, consumer_evaluate_after ..⟩
          · exact .inl (consumer_evaluate_other same _)
      · rw [evaluateSome_frame]
        rfl
    next stays =>
      refine ⟨rfl, rfl, rfl, rfl, rfl, fun _ => .inl rfl, .inr ⟨rfl, fun ch' last is' flows arrived => ?_⟩⟩
      obtain rfl := Option.some.inj (is.symm.trans is')
      refine Classical.byContradiction fun passed => ?_
      exact stays (due.2 ⟨flows, last, arrived, by omega⟩)

/-! ## The change of an item (R100, R117) -/

/-- The recovery delay that the mode in force leaves (R97). -/
def modeTimer (s : State) (c : Fin 8) : Option Timer :=
  if isAuto s c = false then none
  else if (consumer s c).state = .tripped ∧ (consumer s c).recoveryCount < 3 then
    some ((consumer s c).recoveryTimer.getD (startTimer s c cRecoveryDelay))
  else (consumer s c).recoveryTimer

/-- What follows on the change of an item other than a source's in-service item, before any event. -/
structure Acts (w x : State) (i : Item) : Prop where
  allocator : x.allocator = { w.allocator with result := { w.allocator.result with
    grants := x.allocator.result.grants, surplus := x.allocator.result.surplus } }
  lowered : ∀ d, LowersDemand w d i → grant x d = min (grant w d) (demand w d)
  stands : ∀ d, ¬ LowersDemand w d i → grant x d = grant w d
  own : ∀ d, (∃ k, i = .consumer d k) → consumer x d =
    reviewed { consumer w d with recoveryTimer := (consumer x d).recoveryTimer } x d
  others : ∀ d, (∀ k, i ≠ .consumer d k) → consumer x d =
    if grant x d = grant w d then consumer w d else reviewed (consumer w d) x d
  recovery : ∀ c, i = .consumer c cRecoveryMode → (consumer x c).recoveryTimer = modeTimer w c

theorem recoveryMode_eq (c : Fin 8) (s : State) :
    (if isAuto s c then startRecovery c s else setConsumer c { consumer s c with recoveryTimer := none } s) =
      setConsumer c { consumer s c with recoveryTimer := modeTimer s c } s := by
  have same : setConsumer c { consumer s c with recoveryTimer := (consumer s c).recoveryTimer } s = s := setConsumer_self c s
  unfold modeTimer startRecovery
  cases isAuto s c with
  | false => rfl
  | true =>
    cases timer : (consumer s c).recoveryTimer with
    | some tm =>
      rw [timer] at same
      simp [same]
    | none =>
      rw [timer] at same
      by_cases idle : (consumer s c).state = .tripped ∧ (consumer s c).recoveryCount < 3
      · simp [idle]
      · simp [idle, same]

/-- The cut that follows on the change of a consumer's item (R69). -/
theorem cut_own (c : Fin 8) (k : Fin 23) (s : State) : Cut (fun d => d = c ∧ (k = cCeiling ∨ k = cHardCeiling ∨ k = cLinked)) s
    (if k = cCeiling ∨ k = cHardCeiling ∨ k = cLinked then cutGrant c s else s) := by
  split
  next cuts => simpa only [cuts, and_true] using cut_cutGrant c s
  next plain => simpa only [plain, and_false] using Cut.refl s

theorem consumerItemChanged_eq (c : Fin 8) (k : Fin 23) (s : State) : ∃ y,
    Cut (fun d => d = c ∧ (k = cCeiling ∨ k = cHardCeiling ∨ k = cLinked)) s y ∧
    consumerItemChanged c k s = evaluate c (setConsumer c { consumer y c with
      recoveryTimer := if k = cRecoveryMode then modeTimer y c else (consumer y c).recoveryTimer } y) := by
  refine ⟨_, cut_own c k s, ?_⟩
  unfold consumerItemChanged
  dsimp only
  generalize (if k = cCeiling ∨ k = cHardCeiling ∨ k = cLinked then cutGrant c s else s) = y
  rw [recoveryMode_eq]
  split
  · rfl
  · rw [show setConsumer c { consumer y c with recoveryTimer := (consumer y c).recoveryTimer } y = y from setConsumer_self c y]

theorem lowersDemand_consumer (w : State) (d c : Fin 8) (k : Fin 23) : LowersDemand w d (.consumer c k) ↔
    d = c ∧ (k = cCeiling ∨ k = cHardCeiling ∨ k = cLinked) := by
  simp only [LowersDemand, Item.consumer.injEq, reduceCtorEq, false_and, or_false, and_false, eq_comm (a := c)]
  simp only [and_or_left]

section
variable {i : Item} {S : Fin 8 → Prop} (flow : Flowed i w u)
include flow

theorem demand_flowed (d : Fin 8) : demand u d = demand w d := by
  refine demand_of_same (by rw [flow.contracts]) flow.exports (by rw [flow.settlement]) d ?_
  rcases flow.record d with same | ⟨-, point⟩
  · rw [same]
  · rw [point, reviewed_eq]

theorem granted_flowed (d : Fin 8) : grant u d = grant w d := by rw [grant, flow.allocator, grant]

variable (cut : Cut S u x)
include cut

theorem lowered_of_cut (cuts : ∀ d, S d ↔ LowersDemand w d i) (d : Fin 8) :
    (LowersDemand w d i → grant x d = min (grant w d) (demand w d)) ∧ (¬ LowersDemand w d i → grant x d = grant w d) := by
  rw [← demand_flowed flow, ← granted_flowed flow, ← cuts]
  exact ⟨cut.cut d, cut.stands d⟩

theorem allocator_of_cut : x.allocator = { w.allocator with result := { w.allocator.result with
    grants := x.allocator.result.grants, surplus := x.allocator.result.surplus } } := by
  rw [← flow.allocator]
  exact cut.allocator

theorem acts_of_cut (cuts : ∀ d, S d ↔ LowersDemand w d i) (plain : ∀ c k, i ≠ .consumer c k) : Acts w x i := by
  have lowered := lowered_of_cut flow cut cuts
  refine ⟨allocator_of_cut flow cut, fun d => (lowered d).1, fun d => (lowered d).2, fun d ⟨k, is⟩ => absurd is (plain d k),
    fun d _ => ?_, fun c is => absurd is (plain c _)⟩
  have same : consumer u d = consumer w d := (flow.record d).resolve_right fun ⟨is, _⟩ => plain d _ is
  rw [cut.record d, same, granted_flowed flow]

end

theorem modeTimer_of_same (contracts : t.contracts = s.contracts) (base : t.supervisor.base = s.supervisor.base)
    (record : consumer t c = consumer s c ∨ consumer t c = reviewed (consumer s c) t c) : modeTimer t c = modeTimer s c := by
  have auto : isAuto t c = isAuto s c := flagItem_eq contracts _
  have delay : startTimer t c cRecoveryDelay = startTimer s c cRecoveryDelay := by
    rw [startTimer, base, consumerItem_eq (congrArg ContractUnit.contract contracts), startTimer]
  unfold modeTimer
  rw [auto, delay]
  rcases record with same | point
  · rw [same]
  · rw [point, reviewed_eq]

/-- Before the last evaluation point of a change a consumer stands, or has been at an evaluation point. -/
theorem record_before {S : Fin 8 → Prop} (flow : Flowed (.consumer c k) w u) (cut : Cut S u y)
    (cuts : ∀ d, S d ↔ LowersDemand w d (.consumer c k)) :
    consumer y c = consumer w c ∨ consumer y c = reviewed (consumer w c) y c := by
  have later := cut.record c
  rcases flow.record c with same | ⟨zeroFlow, point⟩
  · rw [same] at later
    split at later
    · exact .inl later
    · exact .inr later
  · obtain ⟨-, rfl⟩ := Item.consumer.inj zeroFlow
    have granted : grant y c = grant u c := cut.stands c fun own => by
      have lowers := (lowersDemand_consumer w c c cZeroFlow).1 ((cuts c).1 own)
      exact absurd lowers.2 (by decide)
    have sees : Sees c u y := ⟨cut.field, by rw [cut.contracts], granted, cut.base⟩
    rw [if_pos granted, point, ← reviewed_of_sees sees] at later
    exact .inr later

/-- A consumer's item: the cut, the recovery delay, and the evaluation point (R100). -/
theorem acts_consumer (flow : Flowed (.consumer c k) w u) : Acts w (consumerItemChanged c k u) (.consumer c k) := by
  obtain ⟨y, cut, changed⟩ := consumerItemChanged_eq c k u
  have cuts (d : Fin 8) : (d = c ∧ (k = cCeiling ∨ k = cHardCeiling ∨ k = cLinked)) ↔ LowersDemand w d (.consumer c k) :=
    (lowersDemand_consumer w d c k).symm
  have lowered := lowered_of_cut flow cut cuts
  have allocator := allocator_of_cut flow cut
  have before := record_before flow cut cuts
  have mode : modeTimer y c = modeTimer w c :=
    modeTimer_of_same (cut.contracts.trans flow.contracts) (cut.base.trans flow.base) before
  rw [changed]
  generalize timer : (if k = cRecoveryMode then modeTimer y c else (consumer y c).recoveryTimer) = tm
  have sees : Sees c y (evaluate c (setConsumer c { consumer y c with recoveryTimer := tm } y)) :=
    (sees_setConsumer c _ y).trans (sees_setConsumer c _ _)
  have after := consumer_evaluate_after c (setConsumer c { consumer y c with recoveryTimer := tm } y)
  rw [consumer_setConsumer_same] at after
  have elsewhere (d : Fin 8) (other : d ≠ c) :
      consumer (evaluate c (setConsumer c { consumer y c with recoveryTimer := tm } y)) d = consumer y d :=
    (consumer_evaluate_other other _).trans (consumer_setConsumer_ne other _ _)
  have delay : (consumer (evaluate c (setConsumer c { consumer y c with recoveryTimer := tm } y)) c).recoveryTimer = tm := by
    rw [after, reviewed_eq]
  have same : (evaluate c (setConsumer c { consumer y c with recoveryTimer := tm } y)).allocator = y.allocator := rfl
  generalize evaluate c (setConsumer c { consumer y c with recoveryTimer := tm } y) = z at sees after elsewhere delay same ⊢
  have granted (d : Fin 8) : grant z d = grant y d := by rw [grant, same, grant]
  rw [← same] at allocator
  simp only [← granted] at lowered
  refine ⟨allocator, fun d => (lowered d).1, fun d => (lowered d).2, fun d ⟨k', is⟩ => ?_, fun d other => ?_, fun d is => ?_⟩
  · obtain ⟨rfl, -⟩ := Item.consumer.inj is
    rw [delay, after]
    rcases before with same | point
    · rw [same]
    · rw [point, ← reviewed_delay, reviewed_of_sees sees, reviewed_of_sees sees, reviewed_reviewed]
  · have ne : d ≠ c := fun same => other k (by rw [same])
    have stands : grant y d = grant u d := cut.stands d fun own => ne own.1
    have same : consumer u d = consumer w d := (flow.record d).resolve_right fun ⟨is, _⟩ => other _ is
    rw [elsewhere d ne, granted, cut.record d, stands, granted_flowed flow, same, if_pos rfl, if_pos rfl]
  · obtain ⟨rfl, rfl⟩ := Item.consumer.inj is
    rw [delay, ← timer, if_pos rfl, mode]

/-- The change of any item but a source's in-service item. -/
theorem acts_itemChanged (i : Item) (w : State) (plain : ∀ n, i ≠ .source n sInService) : Acts w (itemChanged i w) i := by
  have flow := flowed i w
  unfold itemChanged
  generalize zeroFlowItemChanged i w = u at flow ⊢
  dsimp only
  cases i with
  | consumer c k => exact acts_consumer flow
  | source n k =>
    have other : k ≠ sInService := fun is => plain n (by rw [is])
    dsimp only
    rw [if_neg other]
    exact acts_of_cut flow (.refl u) (fun d => by simp [LowersDemand]) nofun
  | exportItem k =>
    have linked (d : Fin 8) : isLinked u d = isLinked w d := flagItem_eq flow.contracts _
    have lowers (d : Fin 8) : LowersDemand w d (.exportItem k) ↔
        isLinked w d = true ∧ (k = xHeatRate ∨ (k = xDefaultExport ∧ w.settlement.clock = none)) := by simp [LowersDemand]
    dsimp only
    rw [flow.settlement]
    split
    next cuts =>
      exact acts_of_cut flow (cut_cutLinked u) (fun d => by rw [lowers, linked]; simp [cuts]) nofun
    next stays => exact acts_of_cut flow (.refl u) (fun d => by rw [lowers]; simp [stays]) nofun
  | _ => exact acts_of_cut flow (.refl u) (fun d => by simp [LowersDemand]) nofun

theorem itemChanged_field (i : Item) (w : State) : (itemChanged i w).field = (zeroFlowItemChanged i w).field := by
  unfold itemChanged
  generalize zeroFlowItemChanged i w = u
  cases i with
  | consumer c k =>
    obtain ⟨y, cut, changed⟩ := consumerItemChanged_eq c k u
    dsimp only
    rw [changed]
    exact cut.field
  | source n k => dsimp only; split <;> rfl
  | exportItem k =>
    dsimp only
    split
    · exact cutLinked_field u
    · rfl
  | _ => rfl

end Sys2Proof.Proofs.ItemActs
end

section
/-! WRITE's effect: one value in force, the damage mark, the revision, the open record, and what the change acts on (R99, R123). -/

namespace Sys2Proof.Proofs.Writing
open Sys2Proof Sys2Proof.Machine Sys2Proof.Proofs.Trips Sys2Proof.Proofs.Event Sys2Proof.Proofs.Fields
  Sys2Proof.Proofs.Reactions Sys2Proof.Proofs.Application Sys2Proof.Proofs.ItemActs Sys2Proof.Proofs.Agreement
  Sys2Proof.Proofs.Removal Sys2Proof.Proofs.Timers Sys2Proof.Proofs.Outage

variable {s t : State} {i : Item} {v : Int}

/-- The part after a WRITE, up to the event, but for its consumers' records: the block has acted on the new value, the revision
and the open record have moved. -/
def written (i : Item) (v : Int) (s : State) : State :=
  { itemChanged i (withValues [(i, v)] s) with
    contracts := { (itemChanged i (withValues [(i, v)] s)).contracts with
      revision := (s.contracts.revision + 1) % 4294967296 }
    settlement := { (itemChanged i (withValues [(i, v)] s)).settlement with
      openRecord := (itemChanged i (withValues [(i, v)] s)).settlement.openRecord.map fun o => { o with contractChanged := true } } }

theorem writeBody_clean (clean : s.store.errors = []) : ∃ sup, writeBody (.item i) v s = { written i v s with supervisor := sup } ∧
    surroundings (writeBody (.item i) v s) = surroundings s ∧
    ∀ c, consumer (writeBody (.item i) v s) c = { consumer (itemChanged i (withValues [(i, v)] s)) c with
      damageMark := (consumer (itemChanged i (withValues [(i, v)] s)) c).damageMark && !(itemConsumer i == some c) } := by
  have put : putInForce [(i, v)] s = itemChanged i (withValues [(i, v)] s) := by
    unfold putInForce
    rw [setItems_clean clean]
    rfl
  have reacted := reacts_itemChanged i (withValues [(i, v)] s)
  have contracts := reacted.contracts
  unfold writeBody written
  dsimp only
  rw [put]
  generalize itemChanged i (withValues [(i, v)] s) = x at reacted contracts ⊢
  have store : x.store.errors = [] := by rw [reacted.store]; exact clean
  obtain ⟨frame, outside, marks⟩ := clearDamageMarks_clean store [(i, v)]
  generalize clearDamageMarks [(i, v)] x = y at frame outside marks
  have storeY : y.store.errors = [] := by rw [frame, store]
  rw [bumpRevision_clean storeY, markContractChanged, onOpen_clean (by exact storeY)]
  have revision : y.contracts.revision = s.contracts.revision := by
    rw [frame, contracts]
    rfl
  refine ⟨y.supervisor, ?_, ?_, fun c => ?_⟩
  · rw [revision, frame]
    rfl
  · exact Eq.trans (show _ = surroundings y from rfl) (outside.trans reacted.around)
  · refine (show _ = consumer y c from rfl).trans ((marks c).trans ?_)
    simp [named]

/-- The state `t` follows on `s` with the value `v` of the item `i` in force (R99, R117, R125). -/
structure InForce (i : Item) (v : Int) (s t : State) : Prop where
  contracts : t.contracts = { s.contracts with
    contract := writeItem s.contracts.contract i v, revision := (s.contracts.revision + 1) % 4294967296 }
  mark : ∀ c, (consumer t c).damageMark = ((consumer s c).damageMark && !(itemConsumer i == some c))
  nomination : ∀ c, (consumer t c).nomination = (consumer s c).nomination
  timer : ∀ c, i ≠ .consumer c cRecoveryMode → (consumer t c).recoveryTimer = (consumer s c).recoveryTimer
  isOpen : t.settlement.openRecord.map (fun o => { o with flare := 0 }) =
    s.settlement.openRecord.map (fun o => { o with flare := 0, contractChanged := true })
  settlement : SettlementKept s t
  around : surroundings t = surroundings s

theorem inForce_write (clean : s.store.errors = []) : InForce i v s (settle (writeBody (.item i) v s)) := by
  obtain ⟨sup, frame, around, marks⟩ := writeBody_clean (i := i) (v := v) clean
  have acted := reacts_itemChanged i (withValues [(i, v)] s)
  have settlementX := itemChanged_settlement (withValues [(i, v)] s) i
  have contractsX := acted.contracts
  unfold written at frame
  generalize itemChanged i (withValues [(i, v)] s) = x at frame marks acted settlementX contractsX
  generalize writeBody (.item i) v s = y at frame around marks ⊢
  have store : y.store.errors = [] := by rw [(around_of_surroundings around).store, clean]
  have reacted := reacts_settle store
  generalize settle y = t at reacted ⊢
  have settlementY : y.settlement = { s.settlement with
      openRecord := s.settlement.openRecord.map fun o => { o with contractChanged := true } } := by
    rw [frame, settlementX]
    rfl
  have consumerW : ∀ c, consumer (withValues [(i, v)] s) c = consumer s c := fun _ => rfl
  refine ⟨?_, fun c => ?_, fun c => ?_, fun c other => ?_, ?_, ?_, reacted.around.trans around⟩
  · rw [reacted.contracts, frame, contractsX]
    rfl
  · rw [(reacted.record c).2.1, marks c, (acted.record c).2.1, consumerW]
  · rw [(reacted.record c).2.2, marks c, (acted.record c).2.2, consumerW]
  · have out : c ∉ modeOf i := fun within => other (by
      cases i with
      | consumer d k =>
        rw [modeOf] at within
        split at within
        next mode => rw [mode, List.mem_singleton.1 within]
        next => cases within
      | _ => cases within)
    rw [reacted.timer c List.not_mem_nil, marks c, acted.timer c out, consumerW]
  · rw [reacted.isOpen, settlementY]
    simp only [Option.map_map]
    rfl
  · have rest := congrArg State.settlement reacted.rest
    unfold SettlementKept
    rw [rest, settlementY]

section
variable (force : InForce i v s t)
include force

theorem InForce.item_same : item t i = v := by
  rw [item, force.contracts]
  exact readItem_writeItem_same ..

theorem InForce.item_other {j : Item} (other : j ≠ i) : item t j = item s j := by
  rw [item, force.contracts]
  exact readItem_writeItem_ne _ other _

end

/-! ## What the change acts on -/

/-- A source's in-service item is followed by an event, which restarts the period (R52, R53). -/
theorem write_inService (calm : Calm s) (n : Fin 4) (taken : settle (writeBody (.item (.source n sInService)) v s) = t) :
    t.allocator.result.timeBase = some s.allocator.base ∧
    t.allocator.timer = { start := s.allocator.base, length := 1000 * itemNat t .allocationPeriod } ∧ t.field = s.field := by
  obtain ⟨-, clean, idle⟩ := calm
  obtain ⟨sup, frame, around, -⟩ := writeBody_clean (i := .source n sInService) (v := v) clean
  have changed : itemChanged (.source n sInService) (withValues [(.source n sInService, v)] s) =
      trigger (withValues [(.source n sInService, v)] s) := rfl
  unfold written at frame
  rw [changed] at frame
  generalize writeBody (.item (.source n sInService)) v s = y at frame around taken
  have store : y.store.errors = [] := by rw [(around_of_surroundings around).store, clean]
  have one : y.allocator.triggers = 1 := by
    rw [frame]
    exact (trigger_triggers _).trans (congrArg (· + 1) idle)
  have base : y.allocator.base = s.allocator.base := (around_of_surroundings around).base
  have field : y.field = s.field := by
    rw [frame]
    rfl
  rw [settle_one store one] at taken
  have result := runStages_result (creditFlare (takeTrigger y))
  have timer := runStages_timer (creditFlare (takeTrigger y))
  have fieldT := runStages_field (creditFlare (takeTrigger y))
  have contracts := runStages_contracts (creditFlare (takeTrigger y))
  rw [taken] at result timer fieldT contracts
  have baseX : (creditFlare (takeTrigger y)).allocator.base = s.allocator.base := (creditFlare_base (takeTrigger y)).trans base
  refine ⟨?_, ?_, ?_⟩
  · rw [result]
    exact congrArg some baseX
  · rw [timer, baseX, itemNat_eq (congrArg ContractUnit.contract contracts)]
  · rw [fieldT, creditFlare_field]
    exact field

/-- Every other item is followed by no event. -/
theorem write_plain (calm : Calm s) (plain : ∀ n, i ≠ .source n sInService) :
    settle (writeBody (.item i) v s) = writeBody (.item i) v s := by
  obtain ⟨sup, frame, -, -⟩ := writeBody_clean (i := i) (v := v) calm.2.1
  refine settle_quiet calm ?_
  rw [frame]
  show (itemChanged i _).allocator.triggers = _
  rw [(acts_itemChanged i _ plain).allocator]
  rfl

theorem lowersDemand_withValues (d : Fin 8) : LowersDemand (withValues [(i, v)] s) d i ↔ LowersDemand s d i := by
  cases i with
  | exportItem k => exact Iff.rfl
  | _ => simp [LowersDemand]

/-- What another item than a source's in-service item does: the cut of R69, and the evaluation points of R100. -/
theorem write_acts (calm : Calm s) (plain : ∀ n, i ≠ .source n sInService) (taken : settle (writeBody (.item i) v s) = t) :
    t.allocator = { s.allocator with result := { s.allocator.result with
      grants := t.allocator.result.grants, surplus := t.allocator.result.surplus } } ∧
    ∀ d : Fin 8,
      (LowersDemand s d i → grant t d = min (grant s d) (demand t d)) ∧
      (¬ LowersDemand s d i → grant t d = grant s d) ∧
      ((∃ k, i = .consumer d k) → consumer t d = evaluated (setConsumer d
        { consumer s d with damageMark := false, recoveryTimer := (consumer t d).recoveryTimer }
        { t with supervisor := s.supervisor }) d) ∧
      ((∀ k, i ≠ .consumer d k) → consumer t d =
        if grant t d = grant s d then consumer s d else evaluated { t with supervisor := s.supervisor } d) := by
  have force := inForce_write (i := i) (v := v) calm.2.1
  rw [taken] at force
  rw [write_plain calm plain] at taken
  have acts := acts_itemChanged i (withValues [(i, v)] s) plain
  have reacted := reacts_itemChanged i (withValues [(i, v)] s)
  obtain ⟨sup, frame, -, marks⟩ := writeBody_clean (i := i) (v := v) calm.2.1
  rw [taken] at frame marks
  unfold written at frame
  have same (j : Fin 8) : consumer (withValues [(i, v)] s) j = consumer s j := rfl
  have granted (j : Fin 8) : grant (withValues [(i, v)] s) j = grant s j := rfl
  obtain ⟨allocator, lowered, stands, own, others, -⟩ := acts
  have aroundX := around_of_surroundings reacted.around
  have contractsX := reacted.contracts
  generalize itemChanged i (withValues [(i, v)] s) = x at *
  have allocatorT : t.allocator = x.allocator := by rw [frame]
  have grantT (d : Fin 8) : grant t d = grant x d := by rw [grant, allocatorT, grant]
  have sees (d : Fin 8) : Sees d x { t with supervisor := s.supervisor } :=
    ⟨by rw [frame], by rw [frame], by rw [← grantT]; rfl, aroundX.supervised.symm⟩
  have demandT (d : Fin 8) : demand t d = demand (withValues [(i, v)] s) d := by
    refine demand_of_same ?_ ?_ ?_ d (force.nomination d)
    · rw [frame, contractsX]
    · rw [frame]
      exact aroundX.exports
    · have kept := congrArg Settlement.clock (show { t.settlement with openRecord := none } = _ from force.settlement)
      exact kept
  refine ⟨by rw [allocatorT]; exact allocator, fun d => ⟨fun lowers => ?_, fun not => ?_, fun ⟨k, is⟩ => ?_, fun other => ?_⟩⟩
  · rw [grantT, lowered d ((lowersDemand_withValues d).2 lowers), demandT, granted]
  · rw [grantT, stands d fun lowers => not ((lowersDemand_withValues d).1 lowers), granted]
  · have point := own d ⟨k, is⟩
    have mark := marks d
    have owner : itemConsumer i = some d := by rw [is]; rfl
    rw [owner, beq_self_eq_true, Bool.not_true, Bool.and_false] at mark
    have delay : (consumer t d).recoveryTimer = (consumer x d).recoveryTimer := by rw [mark]
    show _ = reviewed _ _ d
    rw [reviewed_of_sees (sees d), reviewed_lasting, delay, mark, point, same, reviewed_delay]
  · have none' : (itemConsumer i == some d) = false := by
      cases i with
      | consumer c k => simpa [itemConsumer] using fun is => other k (by rw [is])
      | _ => rfl
    have mark := marks d
    rw [none', Bool.not_false, Bool.and_true] at mark
    rw [mark, others d other, grantT, granted, same, evaluated_reviewed, reviewed_of_sees (sees d)]
    rfl

/-- The recovery delay follows its consumer's mode (R97). -/
theorem write_recovery (calm : Calm s) (taken : settle (writeBody (.item i) v s) = t) (c : Fin 8) :
    (consumer t c).recoveryTimer =
      if i ≠ .consumer c cRecoveryMode then (consumer s c).recoveryTimer
      else if v ≠ 1 then none
      else if (consumer s c).state = .tripped ∧ (consumer s c).recoveryCount < 3 then
        some ((consumer s c).recoveryTimer.getD
          { start := s.supervisor.base, length := 1000 * consumerItem s c cRecoveryDelay })
      else (consumer s c).recoveryTimer := by
  have force := inForce_write (i := i) (v := v) calm.2.1
  rw [taken] at force
  split
  next other => exact force.timer c other
  next is =>
    obtain rfl := Classical.not_not.1 is
    have plain : ∀ n, Item.consumer c cRecoveryMode ≠ .source n sInService := nofun
    have mode := (acts_itemChanged _ (withValues [(.consumer c cRecoveryMode, v)] s) plain).recovery c rfl
    obtain ⟨-, -, -, marks⟩ := writeBody_clean (i := .consumer c cRecoveryMode) (v := v) calm.2.1
    rw [write_plain calm plain] at taken
    rw [taken] at marks
    have auto : isAuto (withValues [(.consumer c cRecoveryMode, v)] s) c = (v == 1) := by
      unfold isAuto flagItem item
      exact congrArg (· == 1) (readItem_writeItem_same s.contracts.contract (.consumer c cRecoveryMode) v)
    have delay : startTimer (withValues [(.consumer c cRecoveryMode, v)] s) c cRecoveryDelay =
        { start := s.supervisor.base, length := 1000 * consumerItem s c cRecoveryDelay } := by
      have other : ∀ ch ∈ [(Item.consumer c cRecoveryMode, v)], ch.1 ≠ .consumer c cRecoveryDelay := by
        simp [cRecoveryMode, cRecoveryDelay]
      rw [startTimer, consumerItem, itemNat_withChanges other]
      rfl
    rw [marks c]
    show (consumer (itemChanged _ _) c).recoveryTimer = _
    rw [mode, modeTimer, auto, delay]
    by_cases isAuto : v = 1
    · subst isAuto
      rfl
    · simp [isAuto]

/-- A zero-flow timeout that has already passed is taken at once, and no other channel moves (R3). -/
theorem write_field (calm : Calm s) (taken : settle (writeBody (.item i) v s) = t) :
    (∃ ch last, zeroFlowChannel i = some ch ∧ (channel s ch).state ≠ .noFlow ∧ (channel s ch).lastArrival = some last ∧
      1000 * v.toNat ≤ sinceArrival s last ∧ t.field = (setChannel ch
        { state := .noFlow, lastArrival := none, period := none, lastEnergy := none, rate := 0,
          noise := (channel s ch).noise } s).field) ∨
    (t.field = s.field ∧ ∀ ch last, zeroFlowChannel i = some ch → (channel s ch).state ≠ .noFlow →
      (channel s ch).lastArrival = some last → sinceArrival s last < 1000 * v.toNat) := by
  have value : itemNat (withValues [(i, v)] s) i = v.toNat := congrArg Int.toNat (readItem_writeItem_same s.contracts.contract i v)
  have flow := (flowed i (withValues [(i, v)] s)).field
  rw [value, ← itemChanged_field] at flow
  by_cases source : ∃ n, i = .source n sInService
  · obtain ⟨n, rfl⟩ := source
    obtain ⟨-, -, field⟩ := write_inService calm n taken
    exact .inr ⟨field, nofun⟩
  · have plain : ∀ n, i ≠ .source n sInService := fun n is => source ⟨n, is⟩
    obtain ⟨_, frame, -⟩ := writeBody_clean (i := i) (v := v) calm.2.1
    rw [write_plain calm plain] at taken
    rw [taken, written] at frame
    have field : t.field = (itemChanged i (withValues [(i, v)] s)).field := by rw [frame]
    rw [← field] at flow
    exact flow

theorem actedOn_write (calm : Calm s) (taken : settle (writeBody (.item i) v s) = t) : ActedOn s t i v := by
  refine ⟨fun ⟨n, is⟩ => ?_, fun plain => write_acts calm plain taken, write_recovery calm taken, write_field calm taken⟩
  subst is
  obtain ⟨time, timer, -⟩ := write_inService calm n taken
  exact ⟨time, timer⟩

/-! ## The request -/

theorem writeItemStatus_done (free : ∀ e ∈ s.contracts.proposals, ∀ x ∈ e.items, x.1 ≠ .item i) (range : itemInRange i v = true)
    (off : ∀ c, isStructural i = true → itemConsumer i = some c → (consumer s c).state = .off)
    (unset : i = .intervalLength → s.settlement.clock = none) (consistent : consistent (projected s) [(i, v)] = true) :
    writeItemStatus i v s = .done := by
  have named : entryNaming s (.item i) = none := by
    rw [entryNaming, List.find?_eq_none]
    intro e listed carries
    obtain ⟨x, member, is⟩ := List.any_eq_true.1 carries
    exact free e listed x member (beq_iff_eq.1 is)
  have right : ¬ ((∃ c, isStructural i = true ∧ itemConsumer i = some c ∧ (consumer s c).state ≠ .off) ∨
      (i = .intervalLength ∧ s.settlement.clock ≠ none)) := by
    rintro (⟨c, structural, own, notOff⟩ | ⟨interval, running⟩)
    · exact notOff (off c structural own)
    · exact running (unset interval)
  rw [writeItemStatus_eq, if_neg (Classical.not_not.2 named), if_neg (by simp [range]), if_neg right, if_neg (by simp [consistent])]

/-- Settles O32: the checks pass, and the effect is what the change and its block make of the state. -/
theorem writePutsTheValueInForce : Obligations.WritePutsTheValueInForce := by
  unfold Obligations.WritePutsTheValueInForce
  intro s f name i v calm taken named unlocked free range off unset consistent
  have status := (writeStatus_unlocked unlocked i v).trans (writeItemStatus_done free range off unset consistent)
  have effect : exec (.write f name v) s = .next (respond f.party 0x40 .done [] (settle (writeBody (.item i) v s))) := by
    show execWrite f name v s = _
    rw [execWrite, named]
    exact request_judged_done calm taken codeWrite (writeReads (.item i)) status rfl (by rw [status])
  have force := inForce_write (i := i) (v := v) calm.2.1
  have acted := actedOn_write (i := i) (v := v) calm rfl
  generalize settle (writeBody (.item i) v s) = t at effect force acted
  have around := around_of_surroundings force.around
  refine ⟨_, effect, answered_of_ports around.ports .., force.item_same, fun j other => force.item_other other, ?_, fun c own => ?_,
    fun c other => ?_, force.nomination, acted, force.isOpen, force.settlement, around.power, around.metering, around.band, around.exports,
    around.store, around.masks, around.samples, around.pending⟩
  · have contracts := force.contracts
    have contract : t.contracts.contract = writeItem s.contracts.contract i v := by rw [contracts]
    rw [← contract] at contracts
    exact contracts
  · refine (force.mark c).trans ?_
    simp [own]
  · refine (force.mark c).trans ?_
    simp [other]

end Sys2Proof.Proofs.Writing
end

section
/-! What the reads of the report and of the signature at a start-up find: the occurrences that they raise, and the errors that they
leave (R166, R167, R170, R172). -/

namespace Sys2Proof.Proofs.StartReads
open Sys2Proof Sys2Proof.Machine Sys2Proof.Proofs.Notice Sys2Proof.Proofs.Event Sys2Proof.Proofs.Fields

variable {s t u : State} {x y : Thing} {w : Nat}

/-! ## Errors of words and of things (R165) -/

theorem errorAt_filter (p : Nat → Bool) (l : List (Nat × WordError)) (w : Nat) :
    errorAt (l.filter fun e => p e.1) w = if p w then errorAt l w else none := by
  unfold errorAt
  rw [List.find?_filter]
  by_cases keeps : p w
  · have same : (fun e : Nat × WordError => decide (p e.1 = true ∧ (e.1 == w) = true)) = fun e => e.1 == w := by
      funext e
      by_cases here : e.1 = w <;> simp [here, keeps]
    rw [same, if_pos keeps]
  · have none' : l.find? (fun e => decide (p e.1 = true ∧ (e.1 == w) = true)) = none := by
      rw [List.find?_eq_none]
      rintro e - both
      simp only [beq_iff_eq, decide_eq_true_eq] at both
      exact keeps (both.2 ▸ both.1)
    rw [none', if_neg keeps]
    rfl

theorem errorAt_eq_none {l : List (Nat × WordError)} : errorAt l w = none ↔ ∀ e ∈ l, e.1 ≠ w := by
  simp [errorAt]

/-- No word of the thing is in error. -/
def Intact (x : Thing) (s : State) : Prop := ∀ w, thingAt s.store.layout w = some x → errorAt s.store.errors w = none

theorem mem_wordsInError : w ∈ wordsInError x s ↔ thingAt s.store.layout w = some x ∧ errorAt s.store.errors w ≠ none := by
  simp only [wordsInError, List.mem_map, List.mem_filter, beq_iff_eq, ne_eq, errorAt_eq_none, Classical.not_forall, Classical.not_not]
  constructor
  · rintro ⟨e, ⟨listed, holds⟩, rfl⟩
    exact ⟨holds, e, listed, rfl⟩
  · rintro ⟨holds, e, listed, rfl⟩
    exact ⟨e, ⟨listed, holds⟩, rfl⟩

theorem wordsInError_eq_nil : wordsInError x s = [] ↔ Intact x s := by
  rw [List.eq_nil_iff_forall_not_mem]
  simp only [mem_wordsInError, not_and, Classical.not_not]
  exact Iff.rfl

theorem readsDamaged_iff : readsDamaged s x = true ↔
    ∃ w, thingAt s.store.layout w = some x ∧ errorAt s.store.errors w = some .uncorrectable := by
  simp only [readsDamaged, List.any_eq_true, mem_wordsInError, beq_iff_eq]
  constructor
  · rintro ⟨w, ⟨holds, -⟩, damaged⟩
    exact ⟨w, holds, damaged⟩
  · rintro ⟨w, holds, damaged⟩
    exact ⟨w, ⟨holds, by rw [damaged]; nofun⟩, damaged⟩

theorem Intact.not_damaged (intact : Intact x s) : readsDamaged s x ≠ true := fun damaged => by
  obtain ⟨w, holds, error⟩ := readsDamaged_iff.1 damaged
  rw [intact w holds] at error
  cases error

/-! ## What a read finds -/

/-- The field of the report that is reported under a region. -/
def reportRegion (k : Fin 4) : RegionIndex := ⟨9, k⟩

/-- Reads lead from `s` to `t`: they raise INTEGRITY for the regions `M` in turn, those of the signature words `K` among them, and
take no errors but of the things `P`. Damage to a count of the report is not lost before it is raised, and that of the
uncorrectable count is raised first (R170). -/
structure Finds (P : Thing → Prop) (K : List (Fin 4)) (s t : State) (M : List RegionIndex) : Prop where
  only : OnlyReported s t
  fewer : t.store.errors.length ≤ s.store.errors.length
  errors : ∀ w, errorAt t.store.errors w = errorAt s.store.errors w ∨
    (errorAt t.store.errors w = none ∧ ∃ x, thingAt s.store.layout w = some x ∧ P x)
  told : ∀ p : Fin 3, t.links.notices[p][clsIntegrity] =
    M.foldl (fun n r => addOccurrence (.integrity r) n) s.links.notices[p][clsIntegrity]
  others : ∀ (p : Fin 3) (j : Fin 10), j ≠ clsIntegrity → t.links.notices[p][j] = s.links.notices[p][j]
  each : ∀ r ∈ M, (∃ k, r = reportRegion k ∧ readsDamaged s (.report k) = true ∧ Intact (.report k) t) ∨
    ∃ k ∈ K, r = ⟨10, k⟩
  once : K.Nodup → M.Nodup
  words : M.filter (·.region == 10) = K.map fun k => (⟨10, k.val⟩ : RegionIndex)
  raised : ∀ k : Fin 4, k < 2 → readsDamaged s (.report k) = true → reportRegion k ∈ M ∨ readsDamaged t (.report k) = true
  first : readsDamaged s (.report 1) = true → M = [] ∨ M.head? = some (reportRegion 1)

section
variable {P : Thing → Prop} {K K' : List (Fin 4)} {M M' : List RegionIndex}

theorem Finds.layout (h : Finds P K s t M) : t.store.layout = s.store.layout := h.only.layout

theorem Finds.intact (h : Finds P K s t M) (intact : Intact x s) : Intact x t := fun w holds => by
  rw [h.layout] at holds
  rcases h.errors w with same | ⟨gone, -⟩
  · rw [same, intact w holds]
  · exact gone

theorem Finds.damaged (h : Finds P K s t M) (damaged : readsDamaged t x = true) : readsDamaged s x = true := by
  obtain ⟨w, holds, error⟩ := readsDamaged_iff.1 damaged
  rw [h.layout] at holds
  rcases h.errors w with same | ⟨gone, -⟩
  · exact readsDamaged_iff.2 ⟨w, holds, same ▸ error⟩
  · rw [gone] at error
    cases error

/-- The errors of other things stand. -/
theorem Finds.stands (h : Finds P K s t M) (other : ¬ P x) (holds : thingAt s.store.layout w = some x) :
    errorAt t.store.errors w = errorAt s.store.errors w :=
  (h.errors w).resolve_right fun ⟨_, _, holds', own⟩ => other (Option.some.inj (holds.symm.trans holds') ▸ own)

theorem Finds.stands_damaged (h : Finds P K s t M) (other : ¬ P x) : readsDamaged t x = readsDamaged s x := by
  rw [Bool.eq_iff_iff, readsDamaged_iff, readsDamaged_iff, h.layout]
  refine exists_congr fun w => and_congr_right fun holds => ?_
  rw [h.stands other holds]

theorem Finds.stands_intact (h : Finds P K s t M) (other : ¬ P x) : Intact x t ↔ Intact x s := by
  unfold Intact
  rw [h.layout]
  refine forall_congr' fun w => forall_congr' fun holds => ?_
  rw [h.stands other holds]

theorem Finds.refl (P : Thing → Prop) (s : State) : Finds P [] s s [] :=
  ⟨.same s, Nat.le_refl _, fun _ => .inl rfl, fun _ => rfl, fun _ _ _ => rfl, nofun, fun _ => List.nodup_nil, rfl,
    fun _ _ damaged => .inr damaged, fun _ => .inl rfl⟩

theorem Finds.trans (first : Finds P K s t M) (second : Finds P K' t u M') : Finds P (K ++ K') s u (M ++ M') := by
  refine ⟨first.only.trans second.only, Nat.le_trans second.fewer first.fewer, fun w => ?_, fun p => ?_,
    fun p j other => (second.others p j other).trans (first.others p j other), fun r member => ?_, fun distinct => ?_, ?_,
    fun k small damaged => ?_, fun damaged => ?_⟩
  · rcases second.errors w with same | ⟨gone, y, holds, own⟩
    · rw [same]
      exact first.errors w
    · exact .inr ⟨gone, y, by rw [← first.layout]; exact holds, own⟩
  · rw [second.told, first.told, List.foldl_append]
  · rcases List.mem_append.1 member with early | late
    · rcases first.each r early with ⟨k, is, damaged, intact⟩ | ⟨k, listed, is⟩
      · exact .inl ⟨k, is, damaged, second.intact intact⟩
      · exact .inr ⟨k, List.mem_append_left _ listed, is⟩
    · rcases second.each r late with ⟨k, is, damaged, intact⟩ | ⟨k, listed, is⟩
      · exact .inl ⟨k, is, first.damaged damaged, intact⟩
      · exact .inr ⟨k, List.mem_append_right _ listed, is⟩
  · obtain ⟨distinctK, distinctK', apart⟩ := List.nodup_append.1 distinct
    refine List.nodup_append.2 ⟨first.once distinctK, second.once distinctK', fun r early r' late same => ?_⟩
    subst same
    rcases first.each r early with ⟨k, rfl, -, intact⟩ | ⟨k, listed, rfl⟩
    · rcases second.each _ late with ⟨k', is, damaged, -⟩ | ⟨k', -, is⟩
      · have same : k = k' := Fin.ext (congrArg RegionIndex.index is)
        exact intact.not_damaged (same ▸ damaged)
      · exact absurd (congrArg RegionIndex.region is) (show ¬ (9 : Nat) = 10 by decide)
    · rcases second.each _ late with ⟨k', is, -⟩ | ⟨k', listed', is⟩
      · exact absurd (congrArg RegionIndex.region is) (show ¬ (10 : Nat) = 9 by decide)
      · exact apart k listed k' listed' (Fin.ext (congrArg RegionIndex.index is))
  · rw [List.filter_append, first.words, second.words, List.map_append]
  · rcases first.raised k small damaged with early | standing
    · exact .inl (List.mem_append_left _ early)
    · exact (second.raised k small standing).imp_left (List.mem_append_right _)
  · rcases first.first damaged with none' | head
    · subst none'
      have standing := (first.raised 1 (by decide) damaged).resolve_left List.not_mem_nil
      exact second.first standing
    · refine .inr ?_
      rw [List.head?_append, head]
      rfl

theorem Finds.weaken {Q : Thing → Prop} (h : Finds P K s t M) (wider : ∀ x, P x → Q x) : Finds Q K s t M :=
  ⟨h.only, h.fewer, fun w => (h.errors w).imp_right fun ⟨gone, x, holds, own⟩ => ⟨gone, x, holds, wider x own⟩, h.told, h.others,
    h.each, h.once, h.words, h.raised, h.first⟩

end

/-! ## The steps of a read -/

section
variable {P : Thing → Prop}

theorem errorAt_clearWord (v w : Nat) (s : State) :
    errorAt (clearWord v s).store.errors w = if w = v then none else errorAt s.store.errors w := by
  have kept := errorAt_filter (fun u => u != v) s.store.errors w
  refine kept.trans ?_
  by_cases here : w = v <;> simp [here]

theorem errorAt_wrote (x : Thing) (w : Nat) (s : State) :
    errorAt (wrote x s).store.errors w = if thingAt s.store.layout w = some x then none else errorAt s.store.errors w := by
  have kept := errorAt_filter (fun u => thingAt s.store.layout u != some x) s.store.errors w
  refine kept.trans ?_
  by_cases here : thingAt s.store.layout w = some x <;> simp [here]

/-- A word in error is taken from the list. -/
theorem length_filter_lt {p : Nat → Bool} {l : List (Nat × WordError)} (inError : errorAt l w ≠ none) (drops : p w = false) :
    (l.filter fun e => p e.1).length < l.length := by
  refine Nat.lt_of_le_of_ne (List.length_filter_le ..) fun same => ?_
  have all := List.length_filter_eq_length_iff.1 same
  simp only [ne_eq, errorAt_eq_none, Classical.not_forall, Classical.not_not] at inError
  obtain ⟨e, listed, rfl⟩ := inError
  rw [all e listed] at drops
  cases drops

/-- A change that takes no damage and raises nothing. -/
theorem finds_plain (only : OnlyReported s t) (fewer : t.store.errors.length ≤ s.store.errors.length)
    (errors : ∀ w, errorAt t.store.errors w = errorAt s.store.errors w ∨
      (errorAt t.store.errors w = none ∧ ∃ x, thingAt s.store.layout w = some x ∧ P x))
    (damage : ∀ w, errorAt s.store.errors w = some .uncorrectable → errorAt t.store.errors w = some .uncorrectable)
    (notices : t.links.notices = s.links.notices) : Finds P [] s t [] := by
  refine ⟨only, fewer, errors, fun p => by rw [notices]; rfl, fun p j _ => by rw [notices], nofun, fun _ => List.nodup_nil, rfl,
    fun k _ damaged => .inr ?_, fun _ => .inl rfl⟩
  obtain ⟨w, holds, error⟩ := readsDamaged_iff.1 damaged
  exact readsDamaged_iff.2 ⟨w, by rw [only.layout]; exact holds, damage w error⟩

/-- A single-bit error is corrected (R166). -/
theorem finds_clearWord (holds : thingAt s.store.layout w = some x) (own : P x) (bit : errorAt s.store.errors w ≠ some .uncorrectable) :
    Finds P [] s (clearWord w s) [] := by
  refine finds_plain (clearWord_only w s) (List.length_filter_le ..) (fun v => ?_) (fun v error => ?_) rfl
  · rw [errorAt_clearWord]
    split
    next here => exact .inr ⟨rfl, x, here ▸ holds, own⟩
    next => exact .inl rfl
  · rw [errorAt_clearWord, if_neg fun (here : v = w) => bit (by rw [← here]; exact error)]
    exact error

/-- A correction is counted, the corrected count reading intact (R166, R170). -/
theorem finds_countCorrected (intact : Intact (.report 0) s) : Finds P [] s (countCorrected s) [] := by
  have same (v : Nat) : errorAt (countCorrected s).store.errors v = errorAt s.store.errors v := by
    refine (errorAt_wrote (.report 0) v _).trans ?_
    split
    next holds => exact (intact v holds).symm
    next => rfl
  exact finds_plain (countCorrected_only s) (List.length_filter_le ..) (fun v => .inl (same v)) (fun v error => by rw [same, error]) rfl

/-! ## Damage counted (R167) -/

theorem countUncorrectable_notices (r : RegionIndex) (s : State) (p : Fin 3) :
    (countUncorrectable r s).links.notices[p][clsIntegrity] = addOccurrence (.integrity r) s.links.notices[p][clsIntegrity] ∧
    ∀ j, j ≠ clsIntegrity → (countUncorrectable r s).links.notices[p][j] = s.links.notices[p][j] :=
  ⟨raiseNotice_all .., fun j other => (raiseNotice_otherNotices ..).2.2 p j other⟩

theorem errorAt_countUncorrectable (r : RegionIndex) (w : Nat) (s : State) :
    errorAt (countUncorrectable r s).store.errors w =
      if thingAt s.store.layout w = some (.report 1) ∨ thingAt s.store.layout w = some (.report 2) then none
      else errorAt s.store.errors w := by
  unfold countUncorrectable
  rw [raiseNotice_frame]
  refine (errorAt_wrote (.report 2) w (wrote (.report 1) _)).trans ?_
  by_cases second : thingAt s.store.layout w = some (.report 2)
  · rw [if_pos (by exact second), if_pos (.inr second)]
  · rw [if_neg (by exact second)]
    refine (errorAt_wrote (.report 1) w _).trans ?_
    by_cases first : thingAt s.store.layout w = some (.report 1)
    · rw [if_pos (by exact first), if_pos (.inl first)]
    · rw [if_neg (by exact first), if_neg (not_or.2 ⟨first, second⟩)]

theorem countUncorrectable_fewer (r : RegionIndex) (s : State) :
    (countUncorrectable r s).store.errors.length ≤ s.store.errors.length := by
  unfold countUncorrectable
  rw [raiseNotice_frame]
  exact Nat.le_trans (List.length_filter_le ..) (List.length_filter_le ..)

/-- What a count of damage takes, the uncorrectable count reading intact. -/
theorem countUncorrectable_errors (r : RegionIndex) (intact : Intact (.report 1) s) (own : P (.report 2)) (w : Nat) :
    errorAt (countUncorrectable r s).store.errors w = errorAt s.store.errors w ∨
      (errorAt (countUncorrectable r s).store.errors w = none ∧ ∃ x, thingAt s.store.layout w = some x ∧ P x) := by
  rw [errorAt_countUncorrectable]
  by_cases first : thingAt s.store.layout w = some (.report 1)
  · rw [if_pos (.inl first), intact w first]
    exact .inl rfl
  · by_cases second : thingAt s.store.layout w = some (.report 2)
    · exact .inr ⟨if_pos (.inr second), _, second, own⟩
    · exact .inl (if_neg (not_or.2 ⟨first, second⟩))

theorem countUncorrectable_raised (r : RegionIndex) (intact : Intact (.report 1) s) {k : Fin 4} (small : k < 2)
    (damaged : readsDamaged s (.report k) = true) : readsDamaged (countUncorrectable r s) (.report k) = true := by
  obtain ⟨w, holds, error⟩ := readsDamaged_iff.1 damaged
  refine readsDamaged_iff.2 ⟨w, by rw [(countUncorrectable_only r s).layout]; exact holds, ?_⟩
  rw [errorAt_countUncorrectable, if_neg, error]
  rw [holds]
  rintro (is | is)
  · rw [intact w (holds.trans is)] at error
    cases error
  · simp only [Option.some.injEq, Thing.report.injEq] at is
    omega

/-- A damaged signature word is counted, its error standing (R167, R172). -/
theorem finds_countSignature (k : Fin 4) (intact : Intact (.report 1) s) (own : P (.report 2)) :
    Finds P [k] s (countUncorrectable ⟨10, k⟩ s) [⟨10, k⟩] :=
  ⟨countUncorrectable_only .., countUncorrectable_fewer .., countUncorrectable_errors _ intact own,
    fun p => (countUncorrectable_notices _ s p).1, fun p => (countUncorrectable_notices _ s p).2,
    fun _ member => .inr ⟨k, List.mem_singleton_self k, List.mem_singleton.1 member⟩, fun _ => Lists.nodup_one _, rfl,
    fun _ small damaged => .inr (countUncorrectable_raised _ intact small damaged),
    fun damaged => absurd damaged intact.not_damaged⟩

end

/-! ## The report's own damage (R170) -/

/-- A field of the report. -/
def IsReport (x : Thing) : Prop := ∃ k, x = .report k

/-- A damaged field of the report with its words written and its value replaced. -/
def fieldReplaced (k : Fin 4) (s : State) : State := zeroReportField k (wrote (.report k) s)

theorem errorAt_fieldReplaced (k : Fin 4) (w : Nat) (s : State) : errorAt (fieldReplaced k s).store.errors w =
    if thingAt s.store.layout w = some (.report k) then none else errorAt s.store.errors w := errorAt_wrote (.report k) w s

theorem fieldReplaced_intact (k : Fin 4) (s : State) : Intact (.report k) (fieldReplaced k s) := fun w holds =>
  (errorAt_fieldReplaced k w s).trans (if_pos holds)

theorem fieldReplaced_damaged {k : Fin 4} (other : x ≠ .report k) : readsDamaged (fieldReplaced k s) x = readsDamaged s x := by
  rw [Bool.eq_iff_iff, readsDamaged_iff, readsDamaged_iff]
  refine exists_congr fun w => and_congr_right fun holds => ?_
  have holds' : thingAt s.store.layout w = some x := holds
  rw [errorAt_fieldReplaced, if_neg fun is => other (Option.some.inj (holds'.symm.trans is))]

/-- A damaged field of the report is replaced, and counted after the uncorrectable count has been read (R170). -/
theorem finds_damagedField {k : Fin 4} {M : List RegionIndex} (damaged : readsDamaged s (.report k) = true)
    (read : Finds IsReport [] (fieldReplaced k s) t M) (intact : Intact (.report 1) t) (none' : k = 1 → M = []) :
    Finds IsReport [] s (countUncorrectable (reportRegion k) t) (M ++ [reportRegion k]) := by
  have before (v : Nat) : errorAt (fieldReplaced k s).store.errors v = errorAt s.store.errors v ∨
      (errorAt (fieldReplaced k s).store.errors v = none ∧ ∃ x, thingAt s.store.layout v = some x ∧ IsReport x) := by
    rw [errorAt_fieldReplaced]
    split
    next holds => exact .inr ⟨rfl, _, holds, k, rfl⟩
    next => exact .inl rfl
  have layout : (fieldReplaced k s).store.layout = s.store.layout := rfl
  have kept (x : Thing) (clean : Intact x t) : Intact x (countUncorrectable (reportRegion k) t) := fun v holds => by
    rw [(countUncorrectable_only _ t).layout] at holds
    rw [errorAt_countUncorrectable, clean v holds, ite_self]
  have within (x : Thing) (still : readsDamaged (fieldReplaced k s) x = true) : x ≠ .report k ∧ readsDamaged s x = true := by
    have other : x ≠ .report k := fun is => (fieldReplaced_intact k s).not_damaged (is ▸ still)
    exact ⟨other, (fieldReplaced_damaged other) ▸ still⟩
  refine ⟨(((wrote_only _ s).trans (zeroReportField_only k _)).trans read.only).trans (countUncorrectable_only ..),
    Nat.le_trans (Nat.le_trans (countUncorrectable_fewer ..) read.fewer) (List.length_filter_le ..), fun v => ?_, fun p => ?_, fun p j other => ?_,
    fun r member => ?_, fun _ => ?_, ?_, fun j small still => ?_, fun first => ?_⟩
  · rcases countUncorrectable_errors (P := IsReport) (reportRegion k) intact ⟨2, rfl⟩ v with same | ⟨gone, x, holds, own⟩
    · rw [same]
      rcases read.errors v with same' | ⟨gone, x, holds, own⟩
      · rw [same']
        exact before v
      · exact .inr ⟨gone, x, holds, own⟩
    · exact .inr ⟨gone, x, by rw [← layout, ← read.layout]; exact holds, own⟩
  · rw [(countUncorrectable_notices _ t p).1, read.told, List.foldl_append]
    rfl
  · rw [(countUncorrectable_notices _ t p).2 j other, read.others p j other]
    rfl
  · rcases List.mem_append.1 member with early | own
    · rcases read.each r early with ⟨j, rfl, still, clean⟩ | ⟨_, listed, -⟩
      · exact .inl ⟨j, rfl, (within _ still).2, kept _ clean⟩
      · cases listed
    · exact .inl ⟨k, List.mem_singleton.1 own, damaged, kept _ (read.intact (fieldReplaced_intact k s))⟩
  · refine List.nodup_append.2 ⟨read.once List.nodup_nil, Lists.nodup_one _, fun r early r' own same => ?_⟩
    obtain rfl := List.mem_singleton.1 own
    rcases read.each r early with ⟨j, rfl, still, -⟩ | ⟨_, listed, -⟩
    · exact (within _ still).1 (congrArg Thing.report (Fin.ext (congrArg RegionIndex.index same)))
    · cases listed
  · rw [List.filter_append, read.words]
    rfl
  · by_cases own : j = k
    · exact .inl (List.mem_append_right _ (by rw [own]; exact List.mem_singleton_self _))
    · have other : Thing.report j ≠ .report k := fun is => own (Thing.report.inj is)
      rcases read.raised j small (by rw [fieldReplaced_damaged other]; exact still) with early | standing
      · exact .inl (List.mem_append_left _ early)
      · exact .inr (countUncorrectable_raised _ intact small standing)
  · refine .inr ?_
    by_cases own : k = 1
    · rw [none' own, own]
      rfl
    · have other : Thing.report 1 ≠ .report k := fun is => own (Thing.report.inj is).symm
      have still : readsDamaged (fieldReplaced k s) (.report 1) = true := by rw [fieldReplaced_damaged other]; exact first
      have raised := (read.raised 1 (by decide) still).resolve_right intact.not_damaged
      have head := (read.first still).resolve_left (List.ne_nil_of_mem raised)
      rw [List.head?_append, head]
      rfl

/-! ## The reads -/

theorem readWith_report (m : Nat → State → State) (k : Fin 4) (s : State) :
    readWith m [.report k] s = (wordsInError (.report k) s).foldl (fun s w => m w s) s := rfl

theorem readWith_intact (m : Nat → State → State) {k : Fin 4} (intact : Intact (.report k) s) : readWith m [.report k] s = s := by
  rw [readWith_report, wordsInError_eq_nil.2 intact]
  rfl

theorem Finds.gone {P : Thing → Prop} {K : List (Fin 4)} {M : List RegionIndex} (h : Finds P K s t M)
    (none' : errorAt s.store.errors w = none) : errorAt t.store.errors w = none := by
  rcases h.errors w with same | ⟨gone, -⟩
  · rw [same, none']
  · exact gone

/-- What reading one word of the report through the check `m` finds, in a state with fewer than `n` errors. -/
def FindsWord (n : Nat) (m : Nat → State → State) : Prop :=
  ∀ (w : Nat) (k : Fin 4) (s : State), thingAt s.store.layout w = some (.report k) → s.store.errors.length < n →
    ∃ M, Finds IsReport [] s (m w s) M ∧ errorAt (m w s).store.errors w = none

theorem finds_report {n : Nat} {m : Nat → State → State} (word : FindsWord n m) (k : Fin 4) (s : State)
    (few : s.store.errors.length < n) : ∃ M, Finds IsReport [] s (readWith m [.report k] s) M ∧
      Intact (.report k) (readWith m [.report k] s) := by
  have go (l : List Nat) (t : State) (holds : ∀ w ∈ l, thingAt t.store.layout w = some (.report k))
      (few : t.store.errors.length < n) : ∃ M, Finds IsReport [] t (l.foldl (fun s w => m w s) t) M ∧
        ∀ w ∈ l, errorAt (l.foldl (fun s w => m w s) t).store.errors w = none := by
    induction l generalizing t with
    | nil => exact ⟨[], .refl _ t, nofun⟩
    | cons w rest ih =>
      obtain ⟨M, first, gone⟩ := word w k t (holds w (List.mem_cons_self ..)) few
      obtain ⟨M', second, gone'⟩ := ih (m w t)
        (fun v member => by rw [first.layout]; exact holds v (List.mem_cons_of_mem _ member)) (Nat.lt_of_le_of_lt first.fewer few)
      refine ⟨_, first.trans second, fun v member => ?_⟩
      rcases List.mem_cons.1 member with rfl | later
      · exact second.gone gone
      · exact gone' v later
  obtain ⟨M, finds, gone⟩ := go (wordsInError (.report k) s) s (fun w member => (mem_wordsInError.1 member).1) few
  rw [readWith_report]
  refine ⟨M, finds, fun w holds => ?_⟩
  rw [finds.layout] at holds
  by_cases inError : errorAt s.store.errors w = none
  · exact finds.gone inError
  · exact gone w (mem_wordsInError.2 ⟨holds, inError⟩)

theorem findsWord_checkWord (n : Nat) : FindsWord n (checkWord n) := by
  induction n with
  | zero => exact fun _ _ _ _ few => absurd few (Nat.not_lt_zero _)
  | succ n ih =>
    intro w k s holds few
    have read := finds_report ih
    have check : checkWord (n + 1) w s = meetError (readWith (checkWord n)) w (some (.report k)) s := by
      simp only [checkWord, holds]
    rw [check, meetError]
    split
    next none' => exact ⟨[], .refl _ s, none'⟩
    next bit =>
      have fewer : (clearWord w s).store.errors.length < n := by
        have less : (clearWord w s).store.errors.length < s.store.errors.length :=
          length_filter_lt (p := fun u => u != w) (by rw [bit]; nofun) (by simp)
        omega
      obtain ⟨M, finds, intact⟩ := read 0 (clearWord w s) fewer
      have first : Finds IsReport [] s (clearWord w s) [] := finds_clearWord holds ⟨k, rfl⟩ (by rw [bit]; nofun)
      have cleared : errorAt (clearWord w s).store.errors w = none := (errorAt_clearWord w w s).trans (if_pos rfl)
      have last := finds_countCorrected (P := IsReport) intact
      exact ⟨_, (first.trans finds).trans last, last.gone (finds.gone cleared)⟩
    next unc =>
      have damaged : readsDamaged s (.report k) = true := readsDamaged_iff.2 ⟨w, holds, unc⟩
      have fewer : (fieldReplaced k s).store.errors.length < n := by
        have less : (fieldReplaced k s).store.errors.length < s.store.errors.length :=
          length_filter_lt (p := fun u => thingAt s.store.layout u != some (.report k)) (by rw [unc]; nofun) (by simp [holds])
        omega
      have met : meetDamage (readWith (checkWord n)) w (some (.report k)) s =
          countUncorrectable (reportRegion k) (readWith (checkWord n) [.report 1] (fieldReplaced k s)) := rfl
      rw [met]
      have result (u : State) (M : List RegionIndex) (finds : Finds IsReport [] (fieldReplaced k s) u M) (intact : Intact (.report 1) u)
          (none' : k = 1 → M = []) : ∃ M, Finds IsReport [] s (countUncorrectable (reportRegion k) u) M ∧
            errorAt (countUncorrectable (reportRegion k) u).store.errors w = none := by
        refine ⟨_, finds_damagedField damaged finds intact none', ?_⟩
        have cleared : errorAt (fieldReplaced k s).store.errors w = none := (errorAt_fieldReplaced k w s).trans (if_pos holds)
        rw [errorAt_countUncorrectable, finds.gone cleared, ite_self]
      by_cases own : k = 1
      · subst own
        rw [readWith_intact _ (fieldReplaced_intact 1 s)]
        exact result _ [] (.refl _ _) (fieldReplaced_intact 1 s) fun _ => rfl
      · obtain ⟨M, finds, intact⟩ := read 1 (fieldReplaced k s) fewer
        exact result _ M finds intact fun is => absurd is own

/-- A read of a field of the report leaves it intact (R166, R167). -/
theorem finds_readAll (k : Fin 4) (s : State) : ∃ M, Finds IsReport [] s (readAll [.report k] s) M ∧
    Intact (.report k) (readAll [.report k] s) :=
  finds_report (findsWord_checkWord _) k s (Nat.lt_succ_self _)

/-! ## The signature (R172) -/

/-- What the read of a signature word touches: the report, and the word itself where it is corrected. -/
def OfSignature (s : State) (k : Fin 4) (x : Thing) : Prop := IsReport x ∨ (x = .signature k ∧ signatureDamaged s k = false)

theorem finds_corrections {P : Thing → Prop} (reports : ∀ x, IsReport x → P x) (own : P x) (l : List Nat) (t : State)
    (holds : ∀ w ∈ l, thingAt t.store.layout w = some x ∧ errorAt t.store.errors w ≠ some .uncorrectable) :
    ∃ M, Finds P [] t (l.foldl (fun s w => countCorrected (readAll [.report 0] (clearWord w s))) t) M ∧
      (l ≠ [] → Intact (.report 0) (l.foldl (fun s w => countCorrected (readAll [.report 0] (clearWord w s))) t)) := by
  induction l generalizing t with
  | nil => exact ⟨[], .refl P t, fun no => absurd rfl no⟩
  | cons w rest ih =>
    obtain ⟨here, bit⟩ := holds w (List.mem_cons_self ..)
    have cleared : Finds P [] t (clearWord w t) [] := finds_clearWord here own bit
    obtain ⟨M, read, intact⟩ := finds_readAll 0 (clearWord w t)
    have counted := finds_countCorrected (P := P) intact
    have first := (cleared.trans (read.weaken reports)).trans counted
    have intact' := counted.intact intact
    rw [List.foldl_cons]
    generalize countCorrected (readAll [.report 0] (clearWord w t)) = u at first intact' ⊢
    obtain ⟨M', second, -⟩ := ih u fun v member => by
      obtain ⟨there, bit'⟩ := holds v (List.mem_cons_of_mem _ member)
      refine ⟨by rw [first.layout]; exact there, ?_⟩
      rcases first.errors v with same | ⟨gone, -⟩
      · rw [same]
        exact bit'
      · rw [gone]
        nofun
    exact ⟨_, first.trans second, fun _ => second.intact intact'⟩

theorem finds_readSignature (s : State) (k : Fin 4) :
    ∃ M, Finds (OfSignature s k) (if signatureDamaged s k then [k] else []) s (readSignature s k) M ∧
      (signatureDamaged s k = false → ¬ Intact (.signature k) s → Intact (.report 0) (readSignature s k)) := by
  have reports : ∀ x, IsReport x → OfSignature s k x := fun _ is => .inl is
  unfold readSignature
  split
  next damaged =>
    obtain ⟨M, read, intact⟩ := finds_readAll 1 s
    have counted := finds_countSignature (P := OfSignature s k) k intact (.inl ⟨2, rfl⟩)
    exact ⟨_, (read.weaken reports).trans counted, fun no => absurd damaged (by rw [no]; nofun)⟩
  next whole =>
    have whole' : signatureDamaged s k = false := Bool.eq_false_iff.2 whole
    obtain ⟨M, finds, intact⟩ := finds_corrections reports (x := .signature k) (.inr ⟨rfl, whole'⟩) (wordsInError (.signature k) s) s
      fun w member => ⟨(mem_wordsInError.1 member).1, fun unc =>
        whole (readsDamaged_iff.2 ⟨w, (mem_wordsInError.1 member).1, unc⟩)⟩
    exact ⟨M, finds, fun _ bad => intact fun none' => bad (wordsInError_eq_nil.1 none')⟩

/-- What the reads of the signature touch: the report, and the words that are corrected. -/
def OfSignatures (s : State) (x : Thing) : Prop := IsReport x ∨ ∃ k, x = .signature k ∧ signatureDamaged s k = false

theorem finds_signatures (s : State) (l : List (Fin 4)) (distinct : l.Nodup) (t : State)
    (same : ∀ k ∈ l, signatureDamaged t k = signatureDamaged s k ∧ (Intact (.signature k) t ↔ Intact (.signature k) s)) :
    ∃ M, Finds (OfSignatures s) (l.filter (signatureDamaged s)) t (l.foldl readSignature t) M ∧
      ∀ k ∈ l, signatureDamaged s k = false → ¬ Intact (.signature k) s → Intact (.report 0) (l.foldl readSignature t) := by
  induction l generalizing t with
  | nil => exact ⟨[], .refl _ t, nofun⟩
  | cons k rest ih =>
    obtain ⟨fresh, distinct⟩ := List.nodup_cons.1 distinct
    obtain ⟨damage, wholeness⟩ := same k (List.mem_cons_self ..)
    obtain ⟨M, first, intact⟩ := finds_readSignature t k
    rw [damage] at first intact
    rw [wholeness] at intact
    have wide : ∀ x, OfSignature t k x → OfSignatures s x := fun x => Or.imp_right fun ⟨is, no⟩ => ⟨k, is, damage ▸ no⟩
    obtain ⟨M', second, intact'⟩ := ih distinct (readSignature t k) fun j member => by
      have apart : ¬ OfSignature t k (.signature j) := by
        rintro (⟨i, is⟩ | ⟨is, -⟩)
        · cases is
        · exact fresh (Thing.signature.inj is ▸ member)
      obtain ⟨damage', wholeness'⟩ := same j (List.mem_cons_of_mem _ member)
      exact ⟨(first.stands_damaged apart).trans damage', (first.stands_intact apart).trans wholeness'⟩
    have both := (first.weaken wide).trans second
    refine ⟨M ++ M', ?_, fun j member no bad => ?_⟩
    · rw [List.foldl_cons, List.filter_cons]
      cases found : signatureDamaged s k <;> rw [found] at both <;> exact both
    · rw [List.foldl_cons]
      rcases List.mem_cons.1 member with rfl | later
      · exact second.intact (intact no bad)
      · exact intact' j later no bad

end Sys2Proof.Proofs.StartReads
end

section
/-! A cold start: the state of reset, with the occurrences that the choice of the restart kind raises (R172 to R174, R190). -/

namespace Sys2Proof.Proofs.ColdStart
open Sys2Proof Sys2Proof.Machine Sys2Proof.Proofs.StartReads Sys2Proof.Proofs.Restart

variable {s : State}

/-- What the choice of the restart kind finds (R167, R170, R172). -/
theorem finds_readSignatures (s : State) : ∃ found,
    Finds (OfSignatures s) ((List.finRange 4).filter (signatureDamaged s)) { s with links := restartLinks .cold }
      (readSignatures s) found ∧
    ∀ k, signatureDamaged s k = false → wordsInError (.signature k) s ≠ [] → Intact (.report 0) (readSignatures s) := by
  obtain ⟨found, finds, intact⟩ := finds_signatures s (List.finRange 4) (List.nodup_finRange 4)
    { s with links := restartLinks .cold } fun k _ => ⟨rfl, Iff.rfl⟩
  exact ⟨found, finds, fun k no bad => intact k (List.mem_finRange k) no fun whole => bad (wordsInError_eq_nil.2 whole)⟩

/-- The occurrences of a cold start. -/
theorem found_regions {found : List RegionIndex} {r : State}
    (finds : Finds (OfSignatures s) ((List.finRange 4).filter (signatureDamaged s)) { s with links := restartLinks .cold } r found)
    (intact : ∀ k, signatureDamaged s k = false → wordsInError (.signature k) s ≠ [] → Intact (.report 0) r) :
    (∀ x ∈ found, x.region ≠ 10 → ∃ k : Fin 4, x = ⟨9, k⟩ ∧ readsDamaged s (.report k) = true) ∧
    (readsDamaged s (.report 1) = true → (∃ k, signatureDamaged s k = true) → found.head? = some ⟨9, 1⟩) ∧
    (readsDamaged s (.report 0) = true →
      (∃ k, wordsInError (.signature k) s ≠ [] ∧ signatureDamaged s k = false) → ⟨9, 0⟩ ∈ found) := by
  refine ⟨fun x member other => ?_, fun damaged ⟨k, sig⟩ => ?_, fun damaged ⟨k, bad, whole⟩ => ?_⟩
  · rcases finds.each x member with ⟨k, is, damaged, -⟩ | ⟨k, -, is⟩
    · exact ⟨k, is, damaged⟩
    · rw [is] at other
      exact absurd rfl other
  · have raised : (⟨10, k.val⟩ : RegionIndex) ∈ found.filter (·.region == 10) := by
      rw [finds.words]
      exact List.mem_map.2 ⟨k, List.mem_filter.2 ⟨List.mem_finRange k, sig⟩, rfl⟩
    exact (finds.first damaged).resolve_left (List.ne_nil_of_mem (List.mem_filter.1 raised).1)
  · exact (finds.raised 0 (by decide) damaged).resolve_right (intact k whole bad).not_damaged

/-! ## The blocks after a cold start (R173, R174) -/

theorem startUp_cold (stopped : s.power.running = false) (invalid : signatureValid s = false) (strap : Strap) (cut : Bool) :
    exec (.startUpOperation strap cut) s = .next (coldStart cut (sampled strap s)) := by
  have notRunning : ¬ s.power.running = true := by simp [stopped]
  show execStartUpOperation strap cut s = _
  rw [execStartUpOperation, if_neg notRunning, restartKind, if_neg (by simp [invalid])]

theorem wroteAll_errors_only (ts : List Thing) (s : State) :
    wroteAll ts s = { s with store := { s.store with errors := (wroteAll ts s).store.errors } } := by
  unfold wroteAll
  induction ts generalizing s with
  | nil => rfl
  | cons x rest ih =>
    rw [List.foldl_cons]
    exact ih (wrote x s)

theorem mem_wroteAll {ts : List Thing} {e : Nat × WordError} (s : State) (listed : e ∈ (wroteAll ts s).store.errors) :
    e ∈ s.store.errors ∧ ∀ x ∈ ts, thingAt s.store.layout e.1 ≠ some x := by
  unfold wroteAll at listed
  induction ts generalizing s with
  | nil => exact ⟨listed, nofun⟩
  | cons x rest ih =>
    rw [List.foldl_cons] at listed
    obtain ⟨before, others⟩ := ih (wrote x s) listed
    obtain ⟨before, this⟩ := List.mem_filter.1 before
    refine ⟨before, fun y member => ?_⟩
    rcases List.mem_cons.1 member with rfl | later
    · simpa using this
    · exact others y later

/-- The errors that initialising the store leaves are those of the signature, which the pattern's writing takes (R165, R173). -/
theorem writeSignature_errors (r : State) : (writeSignature (initialiseStore r)).store.errors = [] := by
  rw [List.eq_nil_iff_forall_not_mem]
  intro e listed
  obtain ⟨before, others⟩ := mem_wroteAll _ listed
  obtain ⟨-, ofSignature⟩ := List.mem_filter.1 before
  split at ofSignature
  next k holds => exact others (.signature k) (List.mem_map.2 ⟨k, List.mem_finRange k, rfl⟩) holds
  next => cases ofSignature

theorem writeSignature_eq (r : State) : writeSignature (initialiseStore r) = { initialiseStore r with
    store := { coldStore r.store.layout with
      sweepPos := r.store.sweepPos, sweepBase := r.store.sweepBase, sweepStart := r.store.sweepStart } } := by
  have errors := writeSignature_errors r
  unfold writeSignature at errors ⊢
  rw [wroteAll_errors_only, errors]
  rfl

/-- RESTART pends, unmasked, whatever INTEGRITY has come (R187, R190). -/
theorem cold_called {r : State} (masks : r.links.masks = (restartLinks .cold).masks)
    (others : ∀ (p : Fin 3) (j : Fin 10), j ≠ clsIntegrity → r.links.notices[p][j] = (restartLinks .cold).notices[p][j])
    (p : Fin 3) : attnCalled r.links.notices[p] r.links.masks[p] = true := by
  have pends : r.links.notices[p][(2 : Fin 10)].pending = true ∧ r.links.masks[p][(2 : Fin 10)] = false := by
    rw [others p 2 (by decide), masks]
    revert p
    decide
  refine List.any_eq_true.2 ⟨2, List.mem_finRange 2, ?_⟩
  rw [pends.1, pends.2]
  rfl

/-- The blocks of a cold start, before the part begins to take events. -/
theorem freshBlocks_cold (r : State) : { freshBlocks .cold (writeSignature (initialiseStore r)) with links := r.links } =
    { State.reset with
      power := { State.reset.power with running := false, backupSupply := r.power.backupSupply }
      freeIndex := r.freeIndex
      store := { State.reset.store with layout := r.store.layout }
      links := r.links
      lines := lowLines
      pending := r.pending } := by
  have supervisor : freshSupervisor (initialiseStore r) = State.reset.supervisor := by
    refine congrArg (Supervisor.mk 0) ?_
    ext c hc
    simp [initialiseStore, consumer]
  have period : itemNat (initialiseStore r) .allocationPeriod = 30 := rfl
  rw [writeSignature_eq]
  generalize initial : initialiseStore r = i at supervisor period ⊢
  show State.mk _ _ _ _ _ (freshAllocator (itemNat i .allocationPeriod)) (freshSupervisor i) _ _ _ _ _ _ _ = _
  rw [period, supervisor, ← initial]
  rfl

/-- The state of a cold start from what it has found. -/
theorem cold_state {r : State} (masks : r.links.masks = (restartLinks .cold).masks)
    (others : ∀ (p : Fin 3) (j : Fin 10), j ≠ clsIntegrity → r.links.notices[p][j] = (restartLinks .cold).notices[p][j]) :
    beginOperation { freshBlocks .cold (writeSignature (initialiseStore r)) with links := r.links } = { State.reset with
      power := { State.reset.power with backupSupply := r.power.backupSupply }
      freeIndex := r.freeIndex
      store := { State.reset.store with layout := r.store.layout }
      links := r.links
      pending := r.pending } := by
  have off (t : State) (supervisor : t.supervisor = State.reset.supervisor) (c : Fin 8) : (consumer t c).state = .off := by
    rw [consumer, supervisor]
    exact congrArg Consumer.state (Vector.getElem_replicate ..)
  rw [freshBlocks_cold, beginOperation_rest (by exact off _ rfl) (by exact rfl) (by exact cold_called masks others)]
  rfl

/-! ## A cold start cut short (R173) -/

theorem keepOrLose_kept {t : State} (kept : t.power.backupSupply = true) : keepOrLose t = t := by
  rw [keepOrLose, kept, Bool.or_true, if_pos rfl]

theorem keepOrLose_lost {t : State} (main : t.power.mainSupply = false) (backup : t.power.backupSupply = false) :
    keepOrLose t = loseStore t := by
  rw [keepOrLose, main, backup, if_neg (by decide)]

theorem initialiseStore_damaged (r : State) (k : Fin 4) : signatureDamaged (initialiseStore r) k = signatureDamaged r k := by
  unfold signatureDamaged
  rw [Bool.eq_iff_iff, readsDamaged_iff, readsDamaged_iff]
  refine exists_congr fun w => and_congr_right fun holds => ?_
  have holds' : thingAt r.store.layout w = some (.signature k) := holds
  have kept := errorAt_filter (fun v => match thingAt r.store.layout v with | some (.signature _) => true | _ => false)
    r.store.errors w
  rw [holds', if_pos rfl] at kept
  exact Iff.of_eq (congrArg (· = some WordError.uncorrectable) kept)

/-- A signature word that does not read valid does not after the store's initialisation (R172, R173). -/
theorem invalid_kept {r : State} {found : List RegionIndex} (invalid : signatureValid s = false)
    (finds : Finds (OfSignatures s) ((List.finRange 4).filter (signatureDamaged s)) { s with links := restartLinks .cold } r found) :
    signatureValid (initialiseStore r) = false := by
  have pattern : (initialiseStore r).store.signature = s.store.signature := by
    show r.store.signature = _
    rw [finds.only.1]
  obtain ⟨k, -, bad⟩ := List.all_eq_false.1 invalid
  refine List.all_eq_false.2 ⟨k, List.mem_finRange k, fun good => bad ?_⟩
  unfold signatureWordValid at good ⊢
  rw [initialiseStore_damaged, pattern] at good
  obtain ⟨holds, whole⟩ := Bool.and_eq_true_iff.1 good
  refine Bool.and_eq_true_iff.2 ⟨holds, ?_⟩
  cases damaged : signatureDamaged s k with
  | false => rfl
  | true =>
    have stands : ¬ OfSignatures s (.signature k) := by
      rintro (⟨j, is⟩ | ⟨j, is, no⟩)
      · cases is
      · rw [← Thing.signature.inj is, damaged] at no
        cases no
    have same : signatureDamaged r k = signatureDamaged s k := finds.stands_damaged stands
    rw [same, damaged] at whole
    cases whole

/-- The part of a cold start cut short: stopped, its store initialised, the signature not valid (R173). -/
theorem cut_state {r : State} (invalid : signatureValid (initialiseStore r) = false) : ∃ u,
    keepOrLose { stopPart (initialiseStore r) with
      power := { (stopPart r).power with mainSupply := false, resetHeld := false } } = u ∧ signatureValid u = false ∧
    u.power = { r.power with running := false, mainSupply := false, resetHeld := false } ∧
    u.lines = lowLines ∧ u.metering = State.reset.metering ∧ u.exports = State.reset.exports ∧
    u.settlement = State.reset.settlement ∧ u.contracts.contract = State.reset.contracts.contract ∧
    u.contracts.proposals = [] ∧ u.contracts.locked = false ∧ u.store.report = State.reset.store.report ∧
    u.pending = r.pending := by
  refine ⟨_, rfl, ?_⟩
  cases kept : r.power.backupSupply with
  | true =>
    rw [keepOrLose_kept (by exact kept)]
    exact ⟨invalid, rfl, rfl, rfl, rfl, rfl, rfl, rfl, rfl, rfl, rfl⟩
  | false =>
    rw [keepOrLose_lost (by exact rfl) (by exact kept)]
    exact ⟨rfl, rfl, rfl, rfl, rfl, rfl, rfl, rfl, rfl, rfl, rfl⟩

/-- Settles O47: the reads of the signature, and the blocks that they leave. -/
theorem coldStartGivesTheResetState : Obligations.ColdStartGivesTheResetState := by
  unfold Obligations.ColdStartGivesTheResetState
  intro s strap stopped invalid
  have sampledOnly : sampled strap s = { s with freeIndex := s.freeIndex + (if strap = .unstable then 1 else 0) } := by
    unfold sampled useFree
    split <;> rfl
  obtain ⟨found, finds, intact⟩ := finds_readSignatures (sampled strap s)
  rw [startUp_cold stopped invalid strap false, startUp_cold stopped invalid strap true]
  unfold coldStart
  rw [sampledOnly] at finds intact ⊢
  dsimp only
  generalize readSignatures _ = r at finds intact ⊢
  obtain ⟨regions, head, corrected⟩ := found_regions finds intact
  have only := finds.only.1
  have masks : r.links.masks = (restartLinks .cold).masks := by rw [only]
  obtain ⟨u, cut, short⟩ := cut_state (invalid_kept (by exact invalid) finds)
  rw [if_neg Bool.false_ne_true, if_pos rfl, cold_state masks finds.others, cut]
  have power : r.power = s.power := by rw [only]
  have pending : r.pending = s.pending := by rw [only]
  rw [power, pending] at short
  refine ⟨_, found, rfl, ?_, ?_, masks, finds.others, fun p => ?_, finds.once ((List.nodup_finRange 4).filter _), finds.words,
    regions, head, corrected, u, rfl, short⟩
  · rw [power, pending, show r.freeIndex = s.freeIndex + (if strap = .unstable then 1 else 0) by rw [only],
      show r.store.layout = s.store.layout by rw [only]]
  · show r.links.ports = _
    rw [only]
    rfl
  · refine (finds.told p).trans ?_
    have clear : (restartLinks .cold).notices[p][clsIntegrity] = clearNotice := by
      revert p
      decide
    rw [clear]

end Sys2Proof.Proofs.ColdStart
end

section
/-! How the owners of damaged things replace them in a store without errors: the open record's fields, what is reseeded from the
archive, and the marks (R34, R162, R163). -/

namespace Sys2Proof.Proofs.Repairs
open Sys2Proof Sys2Proof.Machine

variable {w : State} {o : OpenRecord} {rd : List Thing → State → State}

/-- A check that finds nothing where no word is in error. -/
def ReadsClean (rd : List Thing → State → State) : Prop := ∀ (ts : List Thing) (u : State), u.store.errors = [] → rd ts u = u

theorem readsClean_readWith (m : Nat → State → State) : ReadsClean (readWith m) := fun ts _ clean => readWith_clean m clean ts

/-! ## Reading the archive (R34, R162, R163) -/

section
variable (reads : ReadsClean rd) (clean : w.store.errors = [])
include reads clean

theorem firstIntact_clean (l : List ArchiveRecord) :
    firstIntact rd l w = (w, l.find? fun r => !w.store.knownDamaged[placeOf r.number]) := by
  induction l with
  | nil => rfl
  | cons r rest ih =>
    unfold firstIntact
    rw [reads _ _ clean, List.find?_cons]
    dsimp only
    unfold knownDamaged
    cases w.store.knownDamaged[placeOf r.number] with
    | true => rw [if_pos rfl]; exact ih
    | false => rw [if_neg Bool.false_ne_true]; rfl

theorem newestIntact_clean : newestIntact rd w = (w, newestGood w) := firstIntact_clean reads clean _

theorem intactBefore_clean (isOpen : w.settlement.openRecord = some o) : intactBefore rd w = (w, recordBefore w o) := by
  unfold intactBefore recordBefore
  rw [reads _ _ clean]
  dsimp only
  cases w.settlement.archive.getLast? with
  | none => rfl
  | some r =>
    dsimp only
    rw [reads _ _ clean]
    refine congrArg (w, ·) ?_
    have number : openNumber w = o.number := by rw [openNumber, isOpen]
    rw [number]
    unfold knownDamaged
    cases w.store.knownDamaged[placeOf r.number] with
    | true => simp
    | false =>
      by_cases follows : o.number = r.number + 1
      · simp [follows]
      · simp [follows, Ne.symm follows]

end

/-! ## Marks of the open record (R31) -/

/-- The state with a record open. -/
def withRecord (o : OpenRecord) (w : State) : State :=
  { w with settlement := { w.settlement with openRecord := some o } }

theorem withRecord_self (isOpen : w.settlement.openRecord = some o) : withRecord o w = w := by
  unfold withRecord
  rw [← isOpen]

theorem onOpen_withRecord (clean : w.store.errors = []) (k : Fin 49) (f : OpenRecord → OpenRecord) :
    onOpen k f (withRecord o w) = withRecord (f o) w := onOpen_clean (s := withRecord o w) clean k f

/-- The record with the ESTIMATED mark of a channel set, where it has one (R31). -/
def estimatedAt (ch : Nat) (o : OpenRecord) : OpenRecord :=
  { o with
    estimatedGas := Vector.ofFn fun g => o.estimatedGas[g] || g.val == ch
    estimatedHeat := Vector.ofFn fun n => o.estimatedHeat[n] || n.val + 12 == ch }

theorem marks_set {n : Nat} (v : Vector Bool n) {k : Nat} (h : k < n) :
    v.set k true = Vector.ofFn fun g : Fin n => v[g] || g.val == k := by
  ext j hj
  rw [Vector.getElem_set, Vector.getElem_ofFn]
  by_cases here : k = j
  · simp [here]
  · simp [here, Ne.symm here]

theorem marks_stand {n : Nat} (v : Vector Bool n) {p : Fin n → Bool} (never : ∀ g, p g = false) :
    (Vector.ofFn fun g : Fin n => v[g] || p g) = v := by
  ext j hj
  rw [Vector.getElem_ofFn, never, Bool.or_false]
  rfl

theorem estimatedAt_gas {ch : Nat} (gas : ch < 12) (o : OpenRecord) :
    estimatedAt ch o = { o with estimatedGas := o.estimatedGas.set ch true } := by
  rw [estimatedAt, marks_set _ gas, marks_stand o.estimatedHeat fun n => by simp; omega]

theorem estimatedAt_heat {ch : Nat} (heat : ch - 12 < 3) (notGas : ¬ ch < 12) (o : OpenRecord) :
    estimatedAt ch o = { o with estimatedHeat := o.estimatedHeat.set (ch - 12) true } := by
  have same (n : Fin 3) : (n.val == ch - 12) = (n.val + 12 == ch) := by
    rw [Bool.eq_iff_iff, beq_iff_eq, beq_iff_eq]
    omega
  rw [estimatedAt, marks_set _ heat, marks_stand o.estimatedGas fun g => by simp; omega]
  simp only [same]

theorem estimatedAt_none {ch : Nat} (other : 15 ≤ ch) (o : OpenRecord) : estimatedAt ch o = o := by
  rw [estimatedAt, marks_stand o.estimatedGas fun g => by simp; omega, marks_stand o.estimatedHeat fun n => by simp; omega]

theorem markEstimated_clean (clean : w.store.errors = []) (ch : Fin 16) : markEstimated ch w =
    { w with settlement := { w.settlement with openRecord := w.settlement.openRecord.map (estimatedAt ch) } } := by
  unfold markEstimated
  split
  next gas => rw [onOpen_clean clean, funext (estimatedAt_gas gas)]
  next notGas =>
    split
    next heat => rw [onOpen_clean clean, funext (estimatedAt_heat (show ch.val - 12 < 3 by omega) notGas)]
    next other => rw [funext (estimatedAt_none (Nat.not_lt.1 other)), Option.map_id']

theorem markEstimated_withRecord (clean : w.store.errors = []) (ch : Fin 16) :
    markEstimated ch (withRecord o w) = withRecord (estimatedAt ch o) w :=
  markEstimated_clean (w := withRecord o w) clean ch

/-! ## The fields of the open record (R162) -/

section
variable (reads : ReadsClean rd) (clean : w.store.errors = [])
include reads clean

theorem repairStart_clean : repairStart rd (withRecord o w) = withRecord (replacedField (withRecord o w) o 1) w := by
  have before := intactBefore_clean (w := withRecord o w) reads clean rfl
  unfold repairStart
  rw [before]
  dsimp only
  rw [reads _ (withRecord o w) clean]
  show _ = withRecord (match recordBefore (withRecord o w) o with | some r => _ | none => _) w
  cases recordBefore (withRecord o w) o with
  | some r =>
    dsimp only
    rw [onOpen_withRecord clean, onOpen_withRecord clean]
    rfl
  | none =>
    dsimp only
    rw [onOpen_withRecord clean, onOpen_withRecord clean, onOpen_withRecord clean]
    rfl

theorem repairStop_clean : repairStop rd (withRecord o w) = withRecord (replacedField (withRecord o w) o 2) w := by
  unfold repairStop
  rw [reads _ (withRecord o w) clean]
  exact onOpen_withRecord clean 2 _

theorem readBand_clean : readBand rd (withRecord o w) = withRecord o w := by
  unfold readBand
  rw [reads _ (withRecord o w) clean, reads _ (withRecord o w) clean]

theorem repairBand_clean : repairBand rd (withRecord o w) = withRecord (replacedField (withRecord o w) o 3) w := by
  unfold repairBand
  rw [readBand_clean reads clean]
  exact onOpen_withRecord clean 3 _

theorem repairHeatPrice_clean : repairHeatPrice rd (withRecord o w) = withRecord (replacedField (withRecord o w) o 4) w := by
  unfold repairHeatPrice
  rw [readBand_clean reads clean]
  dsimp only
  rw [reads _ (withRecord o w) clean]
  exact onOpen_withRecord clean 4 _

theorem repairGasPrice_clean : repairGasPrice rd (withRecord o w) = withRecord (replacedField (withRecord o w) o 5) w := by
  unfold repairGasPrice
  rw [readBand_clean reads clean]
  dsimp only
  rw [reads _ (withRecord o w) clean]
  exact onOpen_withRecord clean 5 _

theorem repairOpenRevision_clean : repairOpenRevision rd (withRecord o w) = withRecord (replacedField (withRecord o w) o 6) w := by
  unfold repairOpenRevision
  rw [reads _ (withRecord o w) clean]
  exact onOpen_withRecord clean 6 _

theorem repairShort_clean : repairShort rd (withRecord o w) = withRecord (replacedField (withRecord o w) o 41) w := by
  unfold repairShort
  rw [reads _ (withRecord o w) clean]
  refine (onOpen_withRecord clean 41 _).trans ?_
  have same (a : Nat) : (a != 0) = decide (a ≠ 0) := by
    by_cases zero : a = 0 <;> simp [zero]
  rw [same]
  rfl

theorem repairClockStep_clean : repairClockStep rd (withRecord o w) = withRecord (replacedField (withRecord o w) o 42) w := by
  have before := intactBefore_clean (w := withRecord o w) reads clean rfl
  unfold repairClockStep
  rw [before]
  dsimp only
  rw [reads _ (withRecord o w) clean, onOpen_withRecord clean]
  show withRecord { o with clockStep := _ } w =
    withRecord { o with clockStep := match recordBefore (withRecord o w) o with | some r => _ | none => true } w
  cases recordBefore (withRecord o w) o with
  | none => rfl
  | some r =>
    have same (a b : Nat) : (a != b) = decide (a ≠ b) := by
      by_cases equal : a = b <;> simp [equal]
    dsimp only
    rw [same]
    rfl

theorem repairCommissioning_clean : repairCommissioning rd (withRecord o w) =
    withRecord (replacedField (withRecord o w) o 44) w := by
  unfold repairCommissioning
  rw [reads _ (withRecord o w) clean]
  exact onOpen_withRecord clean 44 _

end

/-! ### The fields of a channel -/

/-- The replacement of an opening total (R162). -/
def openingValue (s : State) (o : OpenRecord) (ch : Nat) (within : ch < 16) : Nat :=
  match recordBefore s o with
  | some r => r.closing[ch]
  | none => s.metering.totals[ch]

theorem replacedField_opening {s : State} {k : Fin 49} (within : 7 ≤ k.val ∧ k.val < 23) : replacedField s o k =
    estimatedAt (k - 7) { o with opening := o.opening.set (k.val - 7) (openingValue s o (k.val - 7) (by omega)) } := by
  have ne (j : Fin 49) (small : j.val < 7) : k ≠ j := fun is => by omega
  have gas (g : Fin 12) : (g.val == k.val - 7) = (g.val + 7 == k.val) := by
    rw [Bool.eq_iff_iff, beq_iff_eq, beq_iff_eq]
    omega
  have heat (n : Fin 3) : (n.val + 12 == k.val - 7) = (n.val + 19 == k.val) := by
    rw [Bool.eq_iff_iff, beq_iff_eq, beq_iff_eq]
    omega
  unfold replacedField estimatedAt
  rw [if_neg (ne 0 (by decide)), if_neg (ne 1 (by decide)), if_neg (ne 2 (by decide)), if_neg (ne 3 (by decide)),
    if_neg (ne 4 (by decide)), if_neg (ne 5 (by decide)), if_neg (ne 6 (by decide)), dif_pos within]
  simp only [gas, heat]
  rfl

/-- The fields from the ESTIMATED marks on. -/
theorem replacedField_later {s : State} {k : Fin 49} (past : 23 ≤ k.val) : replacedField s o k =
    if k.val < 35 then { o with estimatedGas := Vector.ofFn fun g => o.estimatedGas[g] || g.val + 23 == k.val }
    else if k.val < 38 then { o with estimatedHeat := Vector.ofFn fun n => o.estimatedHeat[n] || n.val + 35 == k.val }
    else if k.val < 41 then { o with
        reverse := Vector.ofFn fun n => if n.val + 38 = k.val then 0 else o.reverse[n]
        estimatedHeat := Vector.ofFn fun n => o.estimatedHeat[n] || n.val + 38 == k.val }
    else replacedField s o k := by
  have ne (j : Fin 49) (small : j.val < 7) : k ≠ j := fun is => by omega
  by_cases first : k.val < 41
  · unfold replacedField
    rw [if_neg (ne 0 (by decide)), if_neg (ne 1 (by decide)), if_neg (ne 2 (by decide)), if_neg (ne 3 (by decide)),
      if_neg (ne 4 (by decide)), if_neg (ne 5 (by decide)), if_neg (ne 6 (by decide)), dif_neg (by omega)]
    simp only [first, if_true]
  · rw [if_neg (by omega), if_neg (by omega), if_neg first]

theorem replacedField_estimated {s : State} {k : Fin 49} (within : 23 ≤ k.val ∧ k.val < 38) :
    replacedField s o k = estimatedAt (k - 23) o := by
  have gas (g : Fin 12) : (g.val == k.val - 23) = (g.val + 23 == k.val) := by
    rw [Bool.eq_iff_iff, beq_iff_eq, beq_iff_eq]
    omega
  have heat (n : Fin 3) : (n.val + 12 == k.val - 23) = (n.val + 35 == k.val) := by
    rw [Bool.eq_iff_iff, beq_iff_eq, beq_iff_eq]
    omega
  rw [replacedField_later within.1, estimatedAt]
  by_cases isGas : k.val < 35
  · rw [if_pos isGas, marks_stand o.estimatedHeat fun n => by simp; omega]
    simp only [gas]
  · rw [if_neg isGas, if_pos within.2, marks_stand o.estimatedGas fun g => by simp; omega]
    simp only [heat]

theorem replacedField_reverse {s : State} {k : Fin 49} (within : 38 ≤ k.val ∧ k.val < 41) : replacedField s o k =
    estimatedAt (k - 26) { o with reverse := o.reverse.set (k.val - 38) 0 } := by
  have heat (n : Fin 3) : (n.val + 12 == k.val - 26) = (n.val + 38 == k.val) := by
    rw [Bool.eq_iff_iff, beq_iff_eq, beq_iff_eq]
    omega
  have counts : o.reverse.set (k.val - 38) 0 = Vector.ofFn fun n => if n.val + 38 = k.val then 0 else o.reverse[n] := by
    ext j hj
    rw [Vector.getElem_set, Vector.getElem_ofFn]
    by_cases here : j + 38 = k.val
    · rw [if_pos (by omega), if_pos here]
    · rw [if_neg (by omega), if_neg here]
      rfl
  rw [replacedField_later (by omega), estimatedAt, if_neg (by omega), if_neg (by omega), if_pos within.2, counts]
  simp only [heat]
  rw [marks_stand o.estimatedGas fun g => by simp; omega]

/-- An opening total and its channel's ESTIMATED mark. -/
theorem repairOpening_clean (reads : ReadsClean rd) (clean : w.store.errors = []) {k : Fin 49} (within : 7 ≤ k.val ∧ k.val < 23) :
    repairOpening rd ⟨k - 7, by omega⟩ (withRecord o w) = withRecord (replacedField (withRecord o w) o k) w := by
  have before := intactBefore_clean (w := withRecord o w) reads clean rfl
  rw [replacedField_opening within]
  unfold repairOpening
  rw [before]
  dsimp only
  have stands (b : Bool) (ts : List Thing) : (if b then rd ts (withRecord o w) else withRecord o w) = withRecord o w := by
    cases b with
    | true => exact reads ts (withRecord o w) clean
    | false => rfl
  rw [stands, onOpen_withRecord clean, markEstimated_withRecord clean]
  rfl

/-- A damaged field of the open record, other than its number, is replaced alone (R162). -/
theorem repairOpen_field (reads : ReadsClean rd) (clean : w.store.errors = []) {k : Fin 49} (other : k ≠ 0) :
    repairOpen rd k (withRecord o w) = withRecord (replacedField (withRecord o w) o k) w := by
  have isOpen : (withRecord o w).settlement.openRecord.isNone = false := rfl
  unfold repairOpen
  rw [isOpen, if_neg Bool.false_ne_true, if_neg other]
  by_cases k1 : k = 1
  · subst k1
    exact repairStart_clean reads clean
  by_cases k2 : k = 2
  · subst k2
    exact repairStop_clean reads clean
  by_cases k3 : k = 3
  · subst k3
    exact repairBand_clean reads clean
  by_cases k4 : k = 4
  · subst k4
    exact repairHeatPrice_clean reads clean
  by_cases k5 : k = 5
  · subst k5
    exact repairGasPrice_clean reads clean
  by_cases k6 : k = 6
  · subst k6
    exact repairOpenRevision_clean reads clean
  rw [if_neg k1, if_neg k2, if_neg k3, if_neg k4, if_neg k5, if_neg k6]
  by_cases opening : 7 ≤ k.val ∧ k.val < 23
  · rw [dif_pos opening]
    exact repairOpening_clean reads clean opening
  by_cases estimated : 23 ≤ k.val ∧ k.val < 38
  · rw [dif_neg opening, dif_pos estimated, replacedField_estimated estimated]
    exact markEstimated_withRecord clean _
  by_cases counted : 38 ≤ k.val ∧ k.val < 41
  · rw [dif_neg opening, dif_neg estimated, dif_pos counted, onOpen_withRecord clean, markEstimated_withRecord clean,
      replacedField_reverse counted]
  rw [dif_neg opening, dif_neg estimated, dif_neg counted]
  have last : k = 41 ∨ k = 42 ∨ k = 43 ∨ k = 44 ∨ k = 45 ∨ k = 46 ∨ k = 47 ∨ k = 48 := by omega
  rcases last with rfl | rfl | rfl | rfl | rfl | rfl | rfl | rfl
  · exact repairShort_clean reads clean
  · exact repairClockStep_clean reads clean
  · rw [if_neg (by decide), if_neg (by decide), if_pos rfl]
    exact onOpen_withRecord clean 43 _
  · exact repairCommissioning_clean reads clean
  · rw [if_neg (by decide), if_neg (by decide), if_neg (by decide), if_neg (by decide), if_pos rfl]
    exact onOpen_withRecord clean 45 _
  · rw [if_neg (by decide), if_neg (by decide), if_neg (by decide), if_neg (by decide), if_neg (by decide), if_pos rfl]
    exact onOpen_withRecord clean 46 _
  · rw [if_neg (by decide), if_neg (by decide), if_neg (by decide), if_neg (by decide), if_neg (by decide), if_neg (by decide), if_pos rfl]
    exact onOpen_withRecord clean 47 _
  · rw [if_neg (by decide), if_neg (by decide), if_neg (by decide), if_neg (by decide), if_neg (by decide), if_neg (by decide), if_neg (by decide)]
    exact onOpen_withRecord clean 48 _

/-- A damaged number of the open record is replaced, and the next record number after it (R162). -/
theorem repairOpen_number (reads : ReadsClean rd) (clean : w.store.errors = []) : repairOpen rd 0 (withRecord o w) =
    { withRecord (replacedField (withRecord o w) o 0) w with settlement := { w.settlement with
      openRecord := some (replacedField (withRecord o w) o 0)
      nextRecord := newestPlusOne w + 1
      cursors := cursorsAt w (newestPlusOne w + 1) } } := by
  have empty : readForEmptyRing rd (withRecord o w) = withRecord o w := by
    unfold readForEmptyRing
    split
    · exact reads _ (withRecord o w) clean
    · rfl
  have number : repairOpen rd 0 (withRecord o w) = repairNumber rd (withRecord o w) := rfl
  rw [number]
  unfold repairNumber
  rw [empty]
  dsimp only
  rw [onOpen_withRecord clean]
  exact setNextRecord_clean (by exact clean) _

end Sys2Proof.Proofs.Repairs
end

section
/-! The sweep, and the damage of one word that it finds, where the thing's owner replaces it and trips no consumer (R166 to R171). -/

namespace Sys2Proof.Proofs.Sweep
open Sys2Proof Sys2Proof.Machine Sys2Proof.Proofs.Fields Sys2Proof.Proofs.Notice Sys2Proof.Proofs.Event
  Sys2Proof.Proofs.Repairs Sys2Proof.Proofs.ItemActs

variable {s t u w : State} {x : Thing}

/-! ## The sweep moves on (R171) -/

/-- The state with the sweep at its next word. -/
def stepped (s : State) : State := { s with store := { s.store with sweepPos := s.store.sweepPos + 1 } }

theorem sweepWord_eq (read : readWord s.store.sweepPos s = u) (stands : u.store.sweepPos = s.store.sweepPos)
    (within : s.store.sweepPos + 1 < 16384) : sweepWord s = stepped u := by
  unfold sweepWord
  rw [read]
  dsimp only
  rw [if_pos (by rw [stands]; exact within), stepped]

theorem execScrubRead_eq (running : s.power.running = true) : exec .scrubRead s = .next (settle (sweepWord s)) :=
  if_pos running

theorem checkWord_clean (clean : s.store.errors = []) (n v : Nat) : checkWord n v s = s := by
  have met (rd : List Thing → State → State) (y : Option Thing) : meetError rd v y s = s := by
    unfold meetError
    rw [clean]
    rfl
  cases n with
  | zero => rfl
  | succ n =>
    unfold checkWord
    split
    · rw [readWith_clean _ clean]
      dsimp only
      split
      · rfl
      · exact met ..
    · exact met ..

theorem countUp_min (n : Nat) : countUp 65535 n = min 65535 (n + 1) := by
  unfold countUp
  split <;> omega

theorem scrub_clean (running : s.power.running = true) (idle : s.allocator.triggers = 0) (clean : s.store.errors = [])
    (within : s.store.sweepPos + 1 < 16384) : exec .scrubRead s = .next (stepped s) := by
  rw [execScrubRead_eq running, sweepWord_eq (checkWord_clean clean _ _) rfl within, settle_idle (by exact idle)]

theorem scrub_last (running : s.power.running = true) (idle : s.allocator.triggers = 0) (clean : s.store.errors = [])
    (last : s.store.sweepPos = 16383) : exec .scrubRead s = .next { s with store := { s.store with
      sweepPos := 0, sweepStart := s.store.sweepBase
      report := { s.store.report with sweeps := min 65535 (s.store.report.sweeps + 1) } } } := by
  have whole : sweepWord s = completeSweep s := by
    unfold sweepWord readWord
    rw [checkWord_clean clean]
    dsimp only
    exact if_neg (by rw [last]; decide)
  rw [execScrubRead_eq running, whole, completeSweep, readAll_clean clean]
  dsimp only
  rw [wrote_clean (by exact clean), settle_idle (by exact idle), countUp_min]

/-! ## One word in error -/

/-- The sweep stands at a word of the thing `x`, which alone is in error. -/
structure Swept (s : State) (x : Thing) (e : WordError) : Prop where
  running : s.power.running = true
  idle : s.allocator.triggers = 0
  errors : s.store.errors = [(s.store.sweepPos, e)]
  within : s.store.sweepPos + 1 < 16384
  thing : thingAt s.store.layout s.store.sweepPos = some x

variable {e : WordError}

theorem Swept.errorAt (h : Swept s x e) : errorAt s.store.errors s.store.sweepPos = some e := by
  rw [h.errors]
  simp [Machine.errorAt]

theorem Swept.wrote (h : Swept s x e) : wrote x s = { s with store := { s.store with errors := [] } } := by
  have drops : s.store.errors.filter (fun v => thingAt s.store.layout v.1 != some x) = [] := by
    rw [h.errors]
    simp [h.thing]
  unfold Machine.wrote setErrors
  rw [drops]

theorem Swept.others (h : Swept s x e) {y : Thing} (other : y ≠ x) : wordsInError y s = [] := by
  unfold wordsInError
  rw [h.errors]
  simp [h.thing, Ne.symm other]

theorem Swept.read (h : Swept s x e) (plain : ∀ k, x ≠ .archive k) : readWord s.store.sweepPos s =
    meetError (readWith (checkWord 1)) s.store.sweepPos (some x) s := by
  unfold readWord
  rw [h.errors]
  show checkWord 2 _ s = _
  unfold checkWord
  rw [h.thing]
  cases x with
  | archive k => exact absurd rfl (plain k)
  | _ => rfl

/-- A word in error of an archive record is read after the marks, which are not in error. -/
theorem Swept.readArchive {k : Fin 96} (h : Swept s (.archive k) e) : readWord s.store.sweepPos s =
    if s.store.knownDamaged[k] then s
    else meetError (readWith (checkWord 1)) s.store.sweepPos (some (.archive k)) s := by
  have marks : readWith (checkWord 1) [.marks] s = s := by
    show (wordsInError .marks s).foldl _ s = s
    rw [h.others (y := .marks) (by intro is; cases is)]
    rfl
  unfold readWord
  rw [h.errors]
  show checkWord 2 _ s = _
  rw [show (2 : Nat) = 1 + 1 from rfl, checkWord]
  simp only [h.thing, marks]

theorem readWord_spare (errors : s.store.errors = [(s.store.sweepPos, e)]) (spare : thingAt s.store.layout s.store.sweepPos = none) :
    readWord s.store.sweepPos s = meetError (readWith (checkWord 1)) s.store.sweepPos none s := by
  unfold readWord
  rw [errors]
  show checkWord 2 _ s = _
  unfold checkWord
  rw [spare]

/-- A single-bit error is corrected and counted, in a word of a thing or in a spare one (R166). -/
theorem scrub_oneBit (running : s.power.running = true) (idle : s.allocator.triggers = 0)
    (errors : s.store.errors = [(s.store.sweepPos, .oneBit)]) (within : s.store.sweepPos + 1 < 16384)
    (unmarked : ∀ k, thingAt s.store.layout s.store.sweepPos = some (.archive k) → s.store.knownDamaged[k] = false) :
    exec .scrubRead s = .next { s with store := { s.store with
      errors := [], sweepPos := s.store.sweepPos + 1
      report := { s.store.report with corrected := min 65535 (s.store.report.corrected + 1) } } } := by
  have read : readWord s.store.sweepPos s =
      meetError (readWith (checkWord 1)) s.store.sweepPos (thingAt s.store.layout s.store.sweepPos) s := by
    cases thing : thingAt s.store.layout s.store.sweepPos with
    | none => exact readWord_spare errors thing
    | some x =>
      have h : Swept s x .oneBit := ⟨running, idle, errors, within, thing⟩
      by_cases archive : ∃ k, x = .archive k
      · obtain ⟨k, rfl⟩ := archive
        rw [h.readArchive, unmarked k thing, if_neg Bool.false_ne_true]
      · exact h.read fun k is => archive ⟨k, is⟩
  have oneBit : Machine.errorAt s.store.errors s.store.sweepPos = some .oneBit := by
    rw [errors]
    simp [Machine.errorAt]
  have cleared : clearWord s.store.sweepPos s = { s with store := { s.store with errors := [] } } := by
    unfold clearWord setErrors
    rw [errors]
    simp
  rw [meetError, oneBit, cleared] at read
  dsimp only at read
  rw [readWith_clean _ (by exact rfl), countCorrected, wrote_clean (by exact rfl)] at read
  rw [execScrubRead_eq running, sweepWord_eq read rfl within, settle_idle (by exact idle), stepped, countUp_min]

/-! ## Damage counted, and handed to the owner (R167) -/

/-- The state with the damage of one word found: its words written, counted, and told to every party. -/
def found (r : RegionIndex) (n : Vector (Vector NoticeRecord 10) 3) (a : Vector Bool 3) (s : State) : State :=
  { s with
    store := { s.store with errors := [], report := { s.store.report with
      uncorrectable := min 65535 (s.store.report.uncorrectable + 1), last := some r } }
    links := { s.links with notices := n }
    lines := { s.lines with attn := a } }

/-- The notices `n` after INTEGRITY has been raised for every party. -/
def ToldIntegrity (r : RegionIndex) (s : State) (n : Vector (Vector NoticeRecord 10) 3) : Prop :=
  ∀ p : Fin 3, n[p][clsIntegrity] = addOccurrence (.integrity r) s.links.notices[p][clsIntegrity] ∧
    ∀ j, j ≠ clsIntegrity → n[p][j] = s.links.notices[p][j]

theorem countUncorrectable_clean (clean : w.store.errors = []) (r : RegionIndex) : ∃ n a, ToldIntegrity r w n ∧
    countUncorrectable r w = found r n a w := by
  unfold countUncorrectable
  rw [wroteAll_clean (by exact clean), countUp_min]
  generalize counts : { w with store := { w.store with report := { w.store.report with
    uncorrectable := min 65535 (w.store.report.uncorrectable + 1), last := some r } } } = v
  have links : v.links = w.links := by rw [← counts]
  refine ⟨(raiseNotice allParties clsIntegrity (.integrity r) v).links.notices,
    (raiseNotice allParties clsIntegrity (.integrity r) v).lines.attn, fun p => ⟨?_, fun j other => ?_⟩, ?_⟩
  · rw [raiseNotice_all, links]
  · rw [(raiseNotice_otherNotices ..).2.2 p j other, links]
  · refine (raiseNotice_frame ..).trans ?_
    rw [found, ← clean, ← counts]

/-- A thing outside the report and the archive, which its owner replaces. -/
def isOwned : Thing → Bool
  | .report _ | .marks | .archive _ => false
  | _ => true

theorem Swept.readOwned (h : Swept s x .uncorrectable) (owned : isOwned x = true) : ∃ n a, ToldIntegrity (regionOf s x) s n ∧
    readWord s.store.sweepPos s = react (readWith (checkWord 1)) x (found (regionOf s x) n a s) := by
  have plain : ∀ k, x ≠ .archive k := by
    rintro k rfl
    cases owned
  have met : meetDamage (readWith (checkWord 1)) s.store.sweepPos (some x) s = react (readWith (checkWord 1)) x
      (countUncorrectable (regionOf s x) (readWith (checkWord 1) [.report 1] (Machine.wrote x s))) := by
    cases x with
    | report k => cases owned
    | marks => cases owned
    | archive k => cases owned
    | _ => rfl
  obtain ⟨n, a, told, counted⟩ := countUncorrectable_clean (w := Machine.wrote x s) (by rw [h.wrote]) (regionOf s x)
  rw [h.read plain, meetError, h.errorAt]
  dsimp only
  rw [met, readWith_clean _ (by rw [h.wrote]), counted, h.wrote]
  exact ⟨n, a, told, rfl⟩

/-- What the obligation says of a sweep that finds damage of the thing `x`. -/
def Answers (s t : State) (x : Thing) : Prop :=
  Replaced s t x ∧ t.power = s.power ∧ t.band = s.band ∧ t.pending = s.pending ∧
  ∀ p : Fin 3, t.links.notices[p][clsIntegrity] =
    if ∃ k, x = .archive k ∧ s.store.knownDamaged[k] = true then s.links.notices[p][clsIntegrity]
    else addOccurrence (.integrity (regionOf s x)) s.links.notices[p][clsIntegrity]

/-- A replacement that trips no consumer is followed by no event. -/
structure Quietly (s y : State) (x : Thing) (n : Vector (Vector NoticeRecord 10) 3) : Prop where
  triggers : y.allocator.triggers = s.allocator.triggers
  place : y.store.sweepPos = s.store.sweepPos
  replaced : Replaced s (stepped y) x
  power : y.power = s.power
  band : y.band = s.band
  pending : y.pending = s.pending
  told : ∀ p : Fin 3, y.links.notices[p][clsIntegrity] = n[p][clsIntegrity]

theorem swept_quietly (h : Swept s x .uncorrectable) (owned : isOwned x = true)
    (effect : ∀ n a, ToldIntegrity (regionOf s x) s n →
      Quietly s (react (readWith (checkWord 1)) x (found (regionOf s x) n a s)) x n) :
    ∃ t, exec .scrubRead s = .next t ∧ Answers s t x := by
  obtain ⟨n, a, told, read⟩ := h.readOwned owned
  obtain ⟨triggers, place, replaced, power, band, pending, kept⟩ := effect n a told
  generalize react (readWith (checkWord 1)) x (found (regionOf s x) n a s) = y at read triggers place replaced power band pending kept
  have noArchive : ¬ ∃ k, x = .archive k ∧ s.store.knownDamaged[k] = true := by
    rintro ⟨k, rfl, -⟩
    cases owned
  refine ⟨stepped y, ?_, replaced, power, band, pending, fun p => ?_⟩
  · rw [execScrubRead_eq h.running, sweepWord_eq read place h.within, settle_idle (by exact triggers.trans h.idle)]
  · rw [if_neg noArchive, ← (told p).1]
    exact kept p

/-! ## Each owner's replacement -/

section
variable {n : Vector (Vector NoticeRecord 10) 3} {a : Vector Bool 3} {r : RegionIndex}

theorem reads_sweep : ReadsClean (readWith (checkWord 1)) := readsClean_readWith _

theorem quietly_commissioning : Quietly s (react (readWith (checkWord 1)) .commissioning
    (found (regionOf s .commissioning) n a s)) .commissioning n := by
  have effect := setLocked_clean (s := found (regionOf s .commissioning) n a s) rfl true
  rw [react, effect]
  exact ⟨rfl, rfl, ⟨rfl, rfl, rfl, rfl, rfl, rfl⟩, rfl, rfl, rfl, fun _ => rfl⟩

theorem quietly_identity : Quietly s (react (readWith (checkWord 1)) .identity (found (regionOf s .identity) n a s)) .identity n := by
  have effect := setIdentity_clean (s := found (regionOf s .identity) n a s) rfl 0 []
  rw [react, effect]
  exact ⟨rfl, rfl, ⟨rfl, rfl, rfl, rfl, rfl, rfl⟩, rfl, rfl, rfl, fun _ => rfl⟩

theorem quietly_gapMark (p : Party) : Quietly s (react (readWith (checkWord 1)) (.gapMark p)
    (found (regionOf s (.gapMark p)) n a s)) (.gapMark p) n := by
  have effect := setGap_clean (s := found (regionOf s (.gapMark p)) n a s) rfl p true
  rw [react, effect]
  exact ⟨rfl, rfl, ⟨rfl, rfl, rfl, rfl⟩, rfl, rfl, rfl, fun _ => rfl⟩

theorem quietly_cursor (p : Party) : Quietly s (react (readWith (checkWord 1)) (.cursor p)
    (found (regionOf s (.cursor p)) n a s)) (.cursor p) n := by
  have empty : readForEmptyRing (readWith (checkWord 1)) (found (regionOf s (.cursor p)) n a s) =
      found (regionOf s (.cursor p)) n a s := by
    unfold readForEmptyRing
    split
    · exact reads_sweep _ _ rfl
    · rfl
  rw [react, repairCursor, empty]
  rw [setCursor_clean (by exact rfl), setGap_clean (by exact rfl)]
  exact ⟨rfl, rfl, ⟨rfl, rfl, rfl, rfl⟩, rfl, rfl, rfl, fun _ => rfl⟩

theorem quietly_schedule (k : Fin 8) : Quietly s (react (readWith (checkWord 1)) (.schedule k)
    (found (regionOf s (.schedule k)) n a s)) (.schedule k) n := by
  rw [react, dropDamagedSchedule, reads_sweep _ _ rfl]
  rw [setScheduleFrom, wroteAll_clean (by exact rfl)]
  exact ⟨rfl, rfl, ⟨rfl, rfl, rfl, rfl, rfl, rfl⟩, rfl, rfl, rfl, fun _ => rfl⟩

theorem quietly_signature (k : Fin 4) : Quietly s (react (readWith (checkWord 1)) (.signature k)
    (found (regionOf s (.signature k)) n a s)) (.signature k) n :=
  ⟨rfl, rfl, ⟨rfl, rfl, rfl, rfl⟩, rfl, rfl, rfl, fun _ => rfl⟩

theorem quietly_nextProposal : Quietly s (react (readWith (checkWord 1)) .nextProposal
    (found (regionOf s .nextProposal) n a s)) .nextProposal n := by
  rw [react, repairNextProposal, reads_sweep _ _ rfl]
  rw [setNextProposal_clean (by exact rfl)]
  exact ⟨rfl, rfl, ⟨rfl, rfl, rfl, rfl, rfl, rfl⟩, rfl, rfl, rfl, fun _ => rfl⟩

theorem quietly_nextRecord : Quietly s (react (readWith (checkWord 1)) .nextRecord
    (found (regionOf s .nextRecord) n a s)) .nextRecord n := by
  have effect : react (readWith (checkWord 1)) .nextRecord (found (regionOf s .nextRecord) n a s) =
      setNextRecord (repairedNext s) (found (regionOf s .nextRecord) n a s) := by
    rw [react, repairNextRecord, repairedNext]
    have same : (found (regionOf s .nextRecord) n a s).settlement = s.settlement := rfl
    cases isOpen : s.settlement.openRecord with
    | some o =>
      rw [same, isOpen]
      dsimp only
      rw [reads_sweep _ _ rfl, openNumber, same, isOpen]
    | none =>
      rw [same, isOpen]
      cases newest : s.settlement.archive.getLast? <;> rfl
  rw [effect, setNextRecord_clean (by exact rfl)]
  exact ⟨rfl, rfl, ⟨rfl, rfl, rfl, rfl⟩, rfl, rfl, rfl, fun _ => rfl⟩

theorem quietly_heatAccount : Quietly s (react (readWith (checkWord 1)) .heatAccount
    (found (regionOf s .heatAccount) n a s)) .heatAccount n := by
  have effect : react (readWith (checkWord 1)) .heatAccount (found (regionOf s .heatAccount) n a s) = setHeatAccount
      (match newestGood s with | some r => r.heatAccount | none => ⟨0, 0⟩) (found (regionOf s .heatAccount) n a s) := by
    rw [react, reseedAccount, newestIntact_clean reads_sweep (by exact rfl),
      show newestGood (found (regionOf s .heatAccount) n a s) = newestGood s from rfl]
    cases newestGood s <;> rfl
  rw [effect, Boundary.setHeatAccount_clean (by exact rfl)]
  exact ⟨rfl, rfl, ⟨rfl, rfl, rfl, rfl⟩, rfl, rfl, rfl, fun _ => rfl⟩

theorem quietly_gasAccount : Quietly s (react (readWith (checkWord 1)) .gasAccount
    (found (regionOf s .gasAccount) n a s)) .gasAccount n := by
  have effect : react (readWith (checkWord 1)) .gasAccount (found (regionOf s .gasAccount) n a s) = setGasAccount
      (match newestGood s with | some r => r.gasAccount | none => ⟨0, 0⟩) (found (regionOf s .gasAccount) n a s) := by
    rw [react, reseedAccount, newestIntact_clean reads_sweep (by exact rfl),
      show newestGood (found (regionOf s .gasAccount) n a s) = newestGood s from rfl]
    cases newestGood s <;> rfl
  rw [effect, Boundary.setGasAccount_clean (by exact rfl)]
  exact ⟨rfl, rfl, ⟨rfl, rfl, rfl, rfl⟩, rfl, rfl, rfl, fun _ => rfl⟩

theorem quietly_revision : Quietly s (react (readWith (checkWord 1)) .revision
    (found (regionOf s .revision) n a s)) .revision n := by
  rw [react, repairRevision, newestIntact_clean reads_sweep (by exact rfl),
    show newestGood (found (regionOf s .revision) n a s) = newestGood s from rfl]
  dsimp only
  rw [setRevision, wrote_clean (by exact rfl), markContractDamaged, onOpen_clean (by exact rfl)]
  exact ⟨rfl, rfl, ⟨rfl, rfl, rfl, rfl, rfl, rfl⟩, rfl, rfl, rfl, fun _ => rfl⟩

theorem remainder_reseeded (w : State) (ch d : Fin 16) :
    (if h : d.val < 15 then (if h : ch.val < 15 then w.metering.remainders.set ch.val 0 h else w.metering.remainders)[d.val]
      else 0) = if d = ch then 0 else remainderOf w d := by
  unfold remainderOf
  by_cases small : d.val < 15
  · rw [dif_pos small, dif_pos small]
    by_cases own : d = ch
    · subst own
      simp [small]
    · rw [if_neg own]
      split
      · rw [Vector.getElem_set_ne (h := fun is => own (Fin.ext is.symm))]
      · rfl
  · rw [dif_neg small, dif_neg small, ite_self]

theorem quietly_totals (ch : Fin 16) : Quietly s (react (readWith (checkWord 1)) (.totals ch)
    (found (regionOf s (.totals ch)) n a s)) (.totals ch) n := by
  rw [react, reseedTotal, newestIntact_clean reads_sweep (by exact rfl),
    show newestGood (found (regionOf s (.totals ch)) n a s) = newestGood s from rfl]
  dsimp only
  rw [setTotal, wrote_clean (by exact rfl), markEstimated_clean (by exact rfl), onOpen_clean (by exact rfl)]
  refine ⟨rfl, rfl, ⟨rfl, rfl, rfl, rfl, rfl, rfl, fun d => remainder_reseeded .., ?_⟩, rfl, rfl, rfl, fun _ => rfl⟩
  refine congrArg (fun o => { s.settlement with openRecord := o }) ?_
  exact (Option.map_map ..).trans rfl

theorem quietly_proposal (k : Fin 8) (told : ToldIntegrity (regionOf s (.proposal k)) s n) :
    Quietly s (react (readWith (checkWord 1)) (.proposal k) (found (regionOf s (.proposal k)) n a s)) (.proposal k) n := by
  rw [react, dropDamagedProposal, reads_sweep _ _ rfl]
  dsimp only
  show Quietly s (match s.contracts.proposals[k.val]? with | none => _ | some e => _) _ _
  cases listed : s.contracts.proposals[k.val]? with
  | none =>
    have past := List.eraseIdx_of_length_le (List.getElem?_eq_none_iff.1 listed)
    refine ⟨rfl, rfl, ⟨rfl, rfl, rfl, rfl, rfl, ?_, fun e is => ?_⟩, rfl, rfl, rfl, fun _ => rfl⟩
    · rw [past]
      rfl
    · rw [listed] at is
      cases is
  | some e =>
    dsimp only
    rw [setProposalsFrom, wroteAll_clean (by exact rfl)]
    generalize dropped : State.mk _ _ _ _ _ _ _ _ _ _ _ _ _ _ = w
    generalize named : (if Config.entryNumberIntact _ = true then e.number else 0) = number
    generalize addressed : (if Config.entryPartiesIntact _ = true then addParty e.parties e.proposer else allParties) = parties
    have numbers : number = e.number ∨ number = 0 := by
      rw [← named]
      split <;> simp
    have addressees : parties = addParty e.parties e.proposer ∨ parties = allParties := by
      rw [← addressed]
      split <;> simp
    have notices (p : Party) := notices_raiseNotice parties p clsProposal clsProposal (.proposal number .discarded) w
    have others := (raiseNotice_otherNotices parties clsProposal (.proposal number .discarded) w).2.2
    have frame := raiseNotice_frame parties clsProposal (.proposal number .discarded) w
    generalize raiseNotice parties clsProposal (.proposal number .discarded) w = y at notices others frame
    generalize y.links.notices = m at notices others frame
    generalize y.lines.attn = b at frame
    subst frame dropped
    refine ⟨rfl, rfl, ⟨rfl, rfl, rfl, rfl, rfl, rfl, fun e' is => ⟨number, parties, ?_⟩⟩, rfl, rfl, rfl,
      fun p => others p _ (by decide)⟩
    obtain rfl := Option.some.inj (listed.symm.trans is)
    refine ⟨numbers, addressees, fun p => ?_⟩
    have own := notices p
    simp only [and_true] at own
    refine own.trans ?_
    show (if hasParty parties p then addOccurrence _ n[partyIndex p][clsProposal] else n[partyIndex p][clsProposal]) = _
    rw [(told (partyIndex p)).2 clsProposal (by decide)]

theorem defaultLatch_none {rd : List Thing → State → State} (empty : w.exports.latch = none) : defaultLatch rd w = w := by
  unfold defaultLatch
  rw [empty]

theorem defaultLatch_some (clean : w.store.errors = []) (latched : w.exports.latch.isSome = true) :
    defaultLatch (readWith (checkWord 1)) w = cutLinked { w with exports := { w.exports with
      latch := some ⟨itemNat w (.exportItem xDefaultExport), .default⟩ } } := by
  obtain ⟨l, is⟩ := Option.isSome_iff_exists.1 latched
  unfold defaultLatch
  rw [is]
  dsimp only
  rw [reads_sweep _ _ clean, setLatch_clean (by exact clean), reads_sweep _ _ (by exact clean)]

/-- What the default in the latch and the cut after it leave (R115). -/
theorem defaultLatch_effect (clean : w.store.errors = []) (latched : w.exports.latch.isSome = true) :
    let y := defaultLatch (readWith (checkWord 1)) w
    y.allocator.triggers = w.allocator.triggers ∧ y.store = w.store ∧ y.contracts = w.contracts ∧ y.settlement = w.settlement ∧
    y.exports = { w.exports with latch := some ⟨itemNat w (.exportItem xDefaultExport), .default⟩ } ∧
    (∀ c, grant y c = if isLinked w c then min (grant w c) (demand y c) else grant w c) ∧
    y.power = w.power ∧ y.band = w.band ∧ y.pending = w.pending ∧
    ∀ p : Fin 3, y.links.notices[p][clsIntegrity] = w.links.notices[p][clsIntegrity] := by
  rw [defaultLatch_some clean latched]
  generalize moved : { w with exports := { w.exports with
    latch := some ⟨itemNat w (.exportItem xDefaultExport), .default⟩ } } = v
  have cut := cut_cutLinked v
  have told := (Reactions.reacts_cutLinked v).notices
  have rest := Reactions.around_of_surroundings (Reactions.reacts_cutLinked v).around
  generalize cutLinked v = y at cut told rest
  have linked (c : Fin 8) : isLinked v c = isLinked w c := by rw [← moved]; rfl
  have granted (c : Fin 8) : grant v c = grant w c := by rw [← moved]; rfl
  refine ⟨by rw [cut.allocator, ← moved], by rw [rest.store, ← moved], by rw [cut.contracts, ← moved],
    by rw [cut.settlement, ← moved], by rw [cut.exports, ← moved], fun c => ?_, by rw [rest.power, ← moved],
    by rw [rest.band, ← moved], by rw [rest.pending, ← moved], fun p => ?_⟩
  · rw [← linked, ← granted, cut.demand]
    split
    next own => exact cut.cut c own
    next other => exact cut.stands c other
  · rw [told p _ (by decide) (by decide), ← moved]

theorem quietly_latch : Quietly s (react (readWith (checkWord 1)) .latch (found (regionOf s .latch) n a s)) .latch n := by
  have same : (found (regionOf s .latch) n a s).exports.latch = s.exports.latch := rfl
  rw [react]
  cases latched : s.exports.latch with
  | none =>
    rw [defaultLatch_none (same.trans latched)]
    refine ⟨rfl, rfl, ⟨rfl, rfl, rfl, ?_, fun c => ?_⟩, rfl, rfl, rfl, fun _ => rfl⟩
    · rw [latched, Option.map_none, ← latched]
      rfl
    · rw [latched, if_neg (by simp)]
      rfl
  | some l =>
    have effect := defaultLatch_effect (w := found (regionOf s .latch) n a s) rfl (by rw [same, latched]; rfl)
    generalize defaultLatch (readWith (checkWord 1)) (found (regionOf s .latch) n a s) = y at effect
    obtain ⟨triggers, store, contracts, settlement, exports, grants, power, band, pending, told⟩ := effect
    refine ⟨triggers, (congrArg Store.sweepPos store).trans rfl, ⟨?_, contracts, settlement, ?_, fun c => ?_⟩, power, band, pending, told⟩
    · exact congrArg (fun st : Store => { st with sweepPos := st.sweepPos + 1 }) store
    · rw [latched]
      exact exports
    · rw [latched]
      simp only [Option.isSome_some, and_true]
      exact grants c

theorem quietly_openRecord (k : Fin 49) : Quietly s (react (readWith (checkWord 1)) (.openRecord k)
    (found (regionOf s (.openRecord k)) n a s)) (.openRecord k) n := by
  rw [react]
  cases isOpen : s.settlement.openRecord with
  | none =>
    have none' : repairOpen (readWith (checkWord 1)) k (found (regionOf s (.openRecord k)) n a s) =
        found (regionOf s (.openRecord k)) n a s := if_pos (congrArg Option.isNone isOpen)
    rw [none']
    refine ⟨rfl, rfl, ⟨rfl, rfl, rfl, rfl, rfl, rfl, ?_⟩, rfl, rfl, rfl, fun _ => rfl⟩
    simp only [isOpen, Option.isSome_none, Bool.false_eq_true, and_false, if_false, Option.map_none]
    rw [← isOpen]
    rfl
  | some o =>
    rw [← withRecord_self (w := found (regionOf s (.openRecord k)) n a s) (o := o) isOpen]
    by_cases number : k = 0
    · subst number
      rw [repairOpen_number reads_sweep (by exact rfl)]
      refine ⟨rfl, rfl, ⟨rfl, rfl, rfl, rfl, rfl, rfl, ?_⟩, rfl, rfl, rfl, fun _ => rfl⟩
      simp only [isOpen, Option.isSome_some, and_self, if_true, Option.map_some]
      rfl
    · rw [repairOpen_field reads_sweep (by exact rfl) number]
      refine ⟨rfl, rfl, ⟨rfl, rfl, rfl, rfl, rfl, rfl, ?_⟩, rfl, rfl, rfl, fun _ => rfl⟩
      simp only [isOpen, number, false_and, if_false, Option.map_some]
      rfl

end

end Sys2Proof.Proofs.Sweep
end

section
/-! Damage of the report, of its marks and of the archive's records: none of them has an owner that reacts (R169, R170). -/

namespace Sys2Proof.Proofs.Unowned
open Sys2Proof Sys2Proof.Machine Sys2Proof.Proofs.Fields Sys2Proof.Proofs.Notice Sys2Proof.Proofs.Event
  Sys2Proof.Proofs.Repairs Sys2Proof.Proofs.ItemActs Sys2Proof.Proofs.Sweep

variable {s t u w : State} {x : Thing} {e : WordError}

theorem read_swept (h : Swept s x .uncorrectable) (plain : ∀ k, x ≠ .archive k) : readWord s.store.sweepPos s =
    meetDamage (readWith (checkWord 1)) s.store.sweepPos (some x) s := by
  rw [h.read plain, meetError, h.errorAt]

/-- The sweep's step after a read that leaves no event behind. -/
theorem scrub_read (h : Swept s x e) (read : readWord s.store.sweepPos s = u)
    (place : u.store.sweepPos = s.store.sweepPos) (triggers : u.allocator.triggers = s.allocator.triggers) :
    exec .scrubRead s = .next (stepped u) := by
  rw [execScrubRead_eq h.running, sweepWord_eq read place h.within, settle_idle (by exact triggers.trans h.idle)]

/-! ## The report and the marks (R170) -/

theorem swept_report {k : Fin 4} (h : Swept s (.report k) .uncorrectable) :
    ∃ t, exec .scrubRead s = .next t ∧ Answers s t (.report k) := by
  obtain ⟨n, a, told, counted⟩ := countUncorrectable_clean (w := zeroReportField k (Machine.wrote (.report k) s))
    (by rw [h.wrote]; rfl) ⟨9, k⟩
  have read := read_swept h nofun
  rw [meetDamage, readWith_clean _ (by rw [h.wrote]; rfl), counted, h.wrote] at read
  rw [h.wrote] at told
  refine ⟨_, scrub_read h read rfl rfl, ⟨rfl, rfl, rfl, ?_⟩, rfl, rfl, rfl, fun p => ?_⟩
  · have which : k = 0 ∨ k = 1 ∨ k = 2 ∨ k = 3 := by omega
    rcases which with rfl | rfl | rfl | rfl <;> rfl
  · rw [if_neg (by rintro ⟨_, is, -⟩; cases is)]
    exact (told p).1

theorem swept_marks (h : Swept s .marks .uncorrectable) : ∃ t, exec .scrubRead s = .next t ∧ Answers s t .marks := by
  have cleared : clearMarks s = { s with store := { s.store with errors := [], knownDamaged := Vector.replicate 96 false } } :=
    Swept.wrote (s := { s with store := { s.store with knownDamaged := Vector.replicate 96 false } })
      ⟨h.running, h.idle, h.errors, h.within, h.thing⟩
  obtain ⟨n, a, told, counted⟩ := countUncorrectable_clean (w := clearMarks s) (by rw [cleared]) ⟨9, 4⟩
  have read := read_swept h nofun
  rw [meetDamage, readWith_clean _ (by rw [cleared]), counted, cleared] at read
  rw [cleared] at told
  refine ⟨_, scrub_read h read rfl rfl, ⟨rfl, rfl, rfl, rfl⟩, rfl, rfl, rfl, fun p => ?_⟩
  rw [if_neg (by rintro ⟨_, is, -⟩; cases is)]
  exact (told p).1

/-! ## A record of the archive (R169) -/

/-- A write of another thing leaves the word in error. -/
theorem wrote_other (errors : w.store.errors = s.store.errors) (layout : w.store.layout = s.store.layout) (h : Swept s x e)
    {y : Thing} (other : y ≠ x) : wrote y w = w := by
  have keeps : w.store.errors.filter (fun v => thingAt w.store.layout v.1 != some y) = w.store.errors := by
    rw [errors, layout, h.errors]
    simp [h.thing, Ne.symm other]
  unfold wrote setErrors
  rw [keeps]

/-- The damage of an archive record is counted and told, and its words keep their errors. -/
theorem countUncorrectable_kept {k : Fin 96} (h : Swept s (.archive k) e) (r : RegionIndex) : ∃ n a,
    ToldIntegrity r s n ∧ countUncorrectable r s = { s with
      store := { s.store with report := { s.store.report with
        uncorrectable := min 65535 (s.store.report.uncorrectable + 1), last := some r } }
      links := { s.links with notices := n }
      lines := { s.lines with attn := a } } := by
  unfold countUncorrectable
  generalize counts : { s with store := { s.store with report := { s.store.report with
    uncorrectable := countUp 65535 s.store.report.uncorrectable, last := some r } } } = v
  have writes : wroteAll [.report 1, .report 2] v = v := by
    unfold wroteAll
    have one (m : Fin 4) : wrote (.report m) v = v := wrote_other (by rw [← counts]) (by rw [← counts]) h nofun
    rw [List.foldl_cons, List.foldl_cons, List.foldl_nil, one, one]
  have links : v.links = s.links := by rw [← counts]
  rw [writes]
  refine ⟨(raiseNotice allParties clsIntegrity (.integrity r) v).links.notices,
    (raiseNotice allParties clsIntegrity (.integrity r) v).lines.attn, fun p => ⟨?_, fun j other => ?_⟩, ?_⟩
  · rw [raiseNotice_all, links]
  · rw [(raiseNotice_otherNotices ..).2.2 p j other, links]
  · refine (raiseNotice_frame ..).trans ?_
    rw [← countUp_min, ← counts]

theorem readWith_other {k : Fin 96} {m : Nat → State → State} {f : Fin 4} (h : Swept s (.archive k) e) :
    readWith m [.report f] s = s := by
  show (wordsInError (.report f) s).foldl _ s = s
  rw [h.others (y := .report f) nofun]
  rfl

theorem swept_archive {k : Fin 96} (h : Swept s (.archive k) .uncorrectable) :
    ∃ t, exec .scrubRead s = .next t ∧ Answers s t (.archive k) := by
  cases marked : s.store.knownDamaged[k] with
  | true =>
    have read : readWord s.store.sweepPos s = s := by rw [h.readArchive, marked, if_pos rfl]
    refine ⟨_, scrub_read h read rfl rfl, ⟨rfl, rfl, rfl, fun _ => rfl, fun fresh => ?_⟩, rfl, rfl, rfl, fun p => ?_⟩
    · rw [marked] at fresh
      cases fresh
    · rw [if_pos ⟨k, rfl, marked⟩]
      rfl
  | false =>
    have unmarked : ¬ ∃ k', Thing.archive k = .archive k' ∧ s.store.knownDamaged[k'] = true := by
      rintro ⟨k', is, damaged⟩
      cases is
      rw [marked] at damaged
      cases damaged
    have read : readWord s.store.sweepPos s =
        meetDamage (readWith (checkWord 1)) s.store.sweepPos (some (.archive k)) s := by
      rw [h.readArchive, marked, if_neg Bool.false_ne_true, meetError, h.errorAt]
    cases stands : (recordAt s k).isSome with
    | true =>
      obtain ⟨n, a, told, counted⟩ := countUncorrectable_kept h (regionOf s (.archive k))
      rw [meetDamage, stands, if_pos rfl, readWith_other h, counted, setMark, wrote_other (by exact rfl) (by exact rfl) h (by exact nofun)] at read
      refine ⟨_, scrub_read h read rfl rfl, ⟨rfl, rfl, rfl, fun damaged => ?_, fun _ _ => rfl⟩, rfl, rfl, rfl, fun p => ?_⟩
      · rw [marked] at damaged
        cases damaged
      · rw [if_neg unmarked]
        exact (told p).1
    | false =>
      obtain ⟨n, a, told, counted⟩ := countUncorrectable_clean (w := useFree (Machine.wrote (.archive k) s)) (by rw [h.wrote]; rfl)
        (regionOf s (.archive k))
      rw [meetDamage, stands, if_neg Bool.false_ne_true, readWith_clean _ (by rw [h.wrote]; rfl), counted, h.wrote] at read
      rw [h.wrote] at told
      refine ⟨_, scrub_read h read rfl rfl, ⟨rfl, rfl, rfl, fun damaged => ?_, fun _ some => ?_⟩, rfl, rfl, rfl, fun p => ?_⟩
      · rw [marked] at damaged
        cases damaged
      · rw [stands] at some
        cases some
      · rw [if_neg unmarked]
        exact (told p).1

end Sys2Proof.Proofs.Unowned
end

section
/-! A trip for damage found in the store: the consumer is TRIPPED with CONTRACT_DAMAGED from whatever state it was in (R93, R99,
R138, R168). -/

namespace Sys2Proof.Proofs.DamageTrip
open Sys2Proof Sys2Proof.Machine Sys2Proof.Proofs.Fields Sys2Proof.Proofs.Notice Sys2Proof.Proofs.Event
  Sys2Proof.Proofs.Trips Sys2Proof.Proofs.StopNominate Sys2Proof.Proofs.Reactions Sys2Proof.Proofs.ItemActs Sys2Proof.Proofs.Sweep

variable {s t u w x y : State} {c : Fin 8}

/-- The state `t` follows on `u` by a trip of the consumer for damage, whatever its state was. -/
structure Downed (u : State) (c : Fin 8) (t : State) : Prop where
  state : (consumer t c).state = .tripped
  cause : (consumer t c).causes.contractDamaged = true
  timer : (consumer t c).recoveryTimer =
    if (consumer u c).state = .tripped then (consumer u c).recoveryTimer else recoveryStarted u c
  mark : ∀ d, (consumer t d).damageMark = (consumer u d).damageMark
  nomination : (consumer t c).nomination = (consumer u c).nomination
  granted : (consumer u c).state = .active → grant t c = 0
  valves : ValvesClosed t c
  integrity : ∀ p : Fin 3, t.links.notices[p][clsIntegrity] = u.links.notices[p][clsIntegrity]
  outside : OutsideAllocationKept u t

theorem grant_releaseForTrip (active : (consumer u c).state = .active) : (releaseForTrip c u).allocator.result.grants[c] = 0 := by
  rw [releaseForTrip, active]
  dsimp only
  rw [releaseGrant, lowerGrant_allocator, grantLowered]
  simp

theorem downed_entered (entered : Entered u c .contractDamaged y) (notTripped : (consumer u c).state ≠ .tripped) : Downed u c y := by
  refine ⟨entered.state, by rw [entered.causes]; rfl, ?_, fun d => ?_, by rw [entered.record]; rfl, fun active => ?_, entered.valves,
    fun p => ?_, entered.outside⟩
  · rw [entered.timed.2, if_neg notTripped]
  · by_cases own : d = c
    · rw [own, entered.record]
      rfl
    · rw [entered.others d own]
  · rw [grant, entered.allocator]
    exact grant_releaseForTrip active
  · exact otherNotices_trans (j := clsIntegrity) (k := clsGrant) (by decide) (releaseForTrip_otherNotices c u)
      (entered.notices.2.2 p _ (by decide))

/-- A consumer that is TRIPPED already only takes the cause. -/
theorem trippedRecord_standing (tripped : (consumer u c).state = .tripped) :
    trippedRecord u c .contractDamaged = { consumer u c with
      causes := addCause (consumer u c).causes .contractDamaged
      lastTrip := some { time := u.settlement.clock, causes := addCause (consumer u c).causes .contractDamaged }
      passingTimer := if (addCause (consumer u c).causes .contractDamaged).valvePassing then none
        else (consumer u c).passingTimer } := by
  rw [trippedRecord, if_pos tripped]

theorem downed_standing (tripped : (consumer u c).state = .tripped) : Downed u c (tripBody c .contractDamaged u) := by
  have noRelease : releaseForTrip c u = u := by rw [releaseForTrip, tripped]
  have body : tripBody c .contractDamaged u = noticeTrip c (putConsumer c (trippedRecord u c .contractDamaged) u) := by
    rw [tripBody, if_pos tripped, noRelease]
  rw [body]
  have entry := trippedRecord_standing tripped
  generalize trippedRecord u c .contractDamaged = r at entry ⊢
  have supervisor := noticeTrip_supervisor (s := putConsumer c r u) c
  have record : consumer (noticeTrip c (putConsumer c r u)) c = r := by
    rw [consumer_eq supervisor, consumer_putConsumer_same]
  refine ⟨?_, ?_, ?_, fun d => ?_, ?_, fun active => ?_, ?_, fun p => ?_, ?_⟩
  · rw [record, entry]
    exact tripped
  · rw [record, entry]
    rfl
  · rw [record, entry, if_pos tripped]
  · by_cases own : d = c
    · rw [own, record, entry]
    · rw [consumer_eq supervisor, consumer_putConsumer_ne own]
  · rw [record, entry]
  · rw [tripped] at active
    cases active
  · refine valvesClosed_of_standing (raiseNotice_standing ..) (valvesClosed_putConsumer_same c ?_ ?_ u) <;>
    · rw [entry]
      simp [tripped]
  · exact (raiseNotice_otherNotices ..).2.2 p _ (by decide)
  · exact outsideAllocationKept_trans (putConsumer_outside c r u) (raiseNotice_outside ..)

theorem tripBody_downed (c : Fin 8) (u : State) : Downed u c (tripBody c .contractDamaged u) := by
  by_cases tripped : (consumer u c).state = .tripped
  · exact downed_standing tripped
  · exact downed_entered (tripBody_entered tripped) tripped

/-- The event that follows on a trip from ACTIVE. -/
theorem Downed.event (clean : y.store.errors = []) (down : Downed u c y) : Downed u c (runStages (creditFlare y)) := by
  have reacted := (reacts_creditFlare clean).trans (reacts_runStages _)
  have credited : consumer (creditFlare y) c = consumer y c := consumer_eq (creditFlare_supervisor y) c
  obtain ⟨left, none⟩ := runStages_resting (s := creditFlare y) (c := c) (by rw [credited]; exact .inr down.state)
  rw [credited] at left
  refine ⟨by rw [left, withTimers_state, down.state], by rw [left, withTimers_causes, down.cause],
    by rw [left, withTimers_recoveryTimer, down.timer], fun d => (reacted.record d).2.1.trans (down.mark d),
    by rw [left, withTimers_nomination, down.nomination], fun _ => none, ?_, fun p => ?_, ?_⟩
  · refine valvesClosed_runStages ?_
    unfold ValvesClosed
    rw [creditFlare_lines]
    exact down.valves
  · exact (reacted.notices p _ (by decide) (by decide)).trans (down.integrity p)
  · exact outsideAllocationKept_trans down.outside
      (outsideAllocationKept_trans (creditFlare_outside clean) (runStages_outside _))

/-- The cut of the consumer's grant after the trip. -/
theorem Downed.cut (down : Downed u c y) : Downed u c (cutGrant c y) := by
  have cut := cutGrant_cut c y
  have reacted := reacts_cutGrant c y
  refine ⟨by rw [cut.record, withTimers_state, down.state], by rw [cut.record, withTimers_causes, down.cause],
    by rw [cut.record, withTimers_recoveryTimer, down.timer], fun d => (reacted.record d).2.1.trans (down.mark d),
    by rw [cut.record, withTimers_nomination, down.nomination], fun active => ?_,
    valvesClosed_of_standing cut.standing down.valves, fun p => ?_, outsideAllocationKept_trans down.outside cut.outside⟩
  · rw [(cut_cutGrant c y).cut c rfl, down.granted active, Nat.zero_min]
  · exact (reacted.notices p _ (by decide) (by decide)).trans (down.integrity p)

/-- The step of the sweep touches nothing that a trip does. -/
theorem Downed.stepped (down : Downed u c y) : Downed (stepped u) c (stepped y) := by
  obtain ⟨state, cause, timer, mark, nomination, granted, valves, integrity, power, free, field, metering, band, exports, contracts,
    store, pending, masks, settlement, record⟩ := down
  exact ⟨state, cause, timer, mark, nomination, granted, valves, integrity, power, free, field, metering, band, exports, contracts,
    congrArg (fun st : Store => { st with sweepPos := st.sweepPos + 1 }) store, pending, masks, settlement, record⟩

/-- A trip for damage, the step of the sweep, and the event that follows on a trip from ACTIVE. -/
theorem downed_trip (clean : u.store.errors = []) (idle : u.allocator.triggers = 0) :
    Downed (Sweep.stepped u) c (settle (Sweep.stepped (trip c .contractDamaged u))) := by
  have body := (tripBody_downed c u).stepped
  have triggers : (Sweep.stepped (tripBody c .contractDamaged u)).allocator.triggers = 0 := (tripBody_triggers u c _).trans idle
  have cleanBody : (Sweep.stepped (tripBody c .contractDamaged u)).store.errors = [] := by
    show (tripBody c .contractDamaged u).store.errors = []
    rw [tripBody_store, clean]
  unfold trip
  split
  · have effect : settle (Sweep.stepped (trigger (tripBody c .contractDamaged u))) =
        runStages (creditFlare (Sweep.stepped (tripBody c .contractDamaged u))) := settle_trigger cleanBody triggers
    rw [effect]
    exact body.event cleanBody
  · rw [settle_idle triggers]
    exact body

end Sys2Proof.Proofs.DamageTrip
end

section
/-! Damage that trips a consumer: of its nomination, its damage mark, and of a contract item (R99, R138, R168); and the damage of
any word that the sweep finds. -/

namespace Sys2Proof.Proofs.DamageFound
open Sys2Proof Sys2Proof.Machine Sys2Proof.Proofs.Fields Sys2Proof.Proofs.Notice Sys2Proof.Proofs.Event
  Sys2Proof.Proofs.Trips Sys2Proof.Proofs.StopNominate Sys2Proof.Proofs.Reactions Sys2Proof.Proofs.ItemActs Sys2Proof.Proofs.Sweep
  Sys2Proof.Proofs.DamageTrip Sys2Proof.Proofs.Unowned Sys2Proof.Proofs.Repairs Sys2Proof.Proofs.Timers

variable {s t u w y : State} {x : Thing} {c : Fin 8} {i : Item}

theorem scrub_settles {e : WordError} (h : Swept s x e) (read : readWord s.store.sweepPos s = u)
    (place : u.store.sweepPos = s.store.sweepPos) : exec .scrubRead s = .next (settle (stepped u)) := by
  rw [execScrubRead_eq h.running, sweepWord_eq read place h.within]

/-! ## A nomination or damage mark (R168) -/

theorem demand_zero (none : (consumer u c).nomination = 0) : demand u c = 0 := by
  unfold demand cappedNomination
  rw [none]
  split <;> simp

/-- The trip, the cut of the grant, the step of the sweep, and the event that follows on a trip from ACTIVE. -/
theorem downed_cut (clean : u.store.errors = []) (idle : u.allocator.triggers = 0) (none : (consumer u c).nomination = 0) :
    Downed (stepped u) c (settle (stepped (cutGrant c (trip c .contractDamaged u)))) ∧
      grant (settle (stepped (cutGrant c (trip c .contractDamaged u)))) c = 0 := by
  have body := tripBody_downed c u
  cases isLit : lit u c with
  | true =>
    have active : (consumer u c).state = .active := (Masks.lit_iff u c).1 isLit
    have whole : cutGrant c (trip c .contractDamaged u) = trip c .contractDamaged u := by
      rw [trip, isLit, if_pos rfl]
      have gone : grant (trigger (tripBody c .contractDamaged u)) c = 0 := body.granted active
      unfold cutGrant
      rw [gone, if_neg (Nat.not_lt_zero _)]
    rw [whole]
    have down := downed_trip (c := c) clean idle
    exact ⟨down, down.granted active⟩
  | false =>
    have cut := cut_cutGrant c (tripBody c .contractDamaged u)
    have triggers : (stepped (cutGrant c (tripBody c .contractDamaged u))).allocator.triggers = 0 := by
      show (cutGrant c (tripBody c .contractDamaged u)).allocator.triggers = 0
      rw [cut.allocator]
      exact (tripBody_triggers u c _).trans idle
    rw [trip_quiet isLit, settle_idle triggers]
    refine ⟨body.cut.stepped, ?_⟩
    show grant (cutGrant c (tripBody c .contractDamaged u)) c = 0
    rw [cut.cut c rfl, demand_zero (body.nomination.trans none), Nat.min_zero]

/-- The state with a consumer's nomination gone and its damage mark set. -/
def blanked (c : Fin 8) (u : State) : State := setConsumer c { consumer u c with nomination := 0, damageMark := true } u

theorem blanked_clean (clean : u.store.errors = []) (c : Fin 8) : setDamageMark c (setNomination c 0 u) = blanked c u := by
  rw [setNomination, wrote_clean (by exact clean), setDamageMark, wrote_clean (by exact clean), consumer_setConsumer_same, blanked]
  unfold setConsumer
  simp

theorem damageConsumer_clean (clean : u.store.errors = []) (c : Fin 8) :
    damageConsumer (readWith (checkWord 1)) c u = cutGrant c (trip c .contractDamaged (blanked c u)) := by
  rw [damageConsumer, blanked_clean clean, reads_sweep _ _ (by exact clean)]

/-- What the damage of a nomination or damage mark leaves, by either word. -/
theorem scrub_blanked (h : Swept s x .uncorrectable) (owned : isOwned x = true) (region : regionOf s x = ⟨2, c⟩)
    (reacts : ∀ u, react (readWith (checkWord 1)) x u = damageConsumer (readWith (checkWord 1)) c u) :
    ∃ t, exec .scrubRead s = .next t ∧ Replaced s t (.nomination c) ∧ t.power = s.power ∧ t.band = s.band ∧ t.pending = s.pending ∧
      ∀ p : Fin 3, t.links.notices[p][clsIntegrity] = addOccurrence (.integrity ⟨2, c⟩) s.links.notices[p][clsIntegrity] := by
  obtain ⟨n, a, told, read⟩ := h.readOwned owned
  rw [reacts, damageConsumer_clean (by exact rfl), region] at read
  rw [region] at told
  obtain ⟨down, none⟩ := downed_cut (u := blanked c (found ⟨2, c⟩ n a s)) (c := c) rfl h.idle (by rw [blanked, consumer_setConsumer_same])
  have place : (cutGrant c (trip c .contractDamaged (blanked c (found ⟨2, c⟩ n a s)))).store.sweepPos = s.store.sweepPos := by
    rw [cutGrant_store, trip_store]
    rfl
  have record : consumer (stepped (blanked c (found ⟨2, c⟩ n a s))) c = { consumer s c with nomination := 0, damageMark := true } :=
    consumer_setConsumer_same ..
  refine ⟨_, scrub_settles h read place, ?_⟩
  generalize settle (stepped (cutGrant c (trip c .contractDamaged (blanked c (found ⟨2, c⟩ n a s))))) = t at down none
  obtain ⟨state, cause, timer, mark, nomination, -, ⟨gas, backup⟩, integrity, power, -, -, -, band, exports, contracts, store, pending, -⟩ :=
    down
  have delay : recoveryStarted (stepped (blanked c (found ⟨2, c⟩ n a s))) c = recoveryStarted s c := by
    unfold recoveryStarted
    rw [record]
    rfl
  rw [record, delay] at timer
  rw [record] at nomination
  have marked := mark c
  rw [record] at marked
  exact ⟨⟨store, contracts, exports, nomination, marked, state, cause, none, gas, backup, timer⟩, power, band, pending,
    fun p => (integrity p).trans (told p).1⟩

theorem swept_nomination (h : Swept s (.nomination c) .uncorrectable) : ∃ t, exec .scrubRead s = .next t ∧ Answers s t (.nomination c) := by
  obtain ⟨t, next, replaced, power, band, pending, told⟩ := scrub_blanked h rfl rfl fun _ => rfl
  refine ⟨t, next, replaced, power, band, pending, fun p => ?_⟩
  rw [if_neg (by rintro ⟨_, is, -⟩; cases is)]
  exact told p

theorem swept_damageMark (h : Swept s (.damageMark c) .uncorrectable) : ∃ t, exec .scrubRead s = .next t ∧ Answers s t (.damageMark c) := by
  obtain ⟨t, next, replaced, power, band, pending, told⟩ := scrub_blanked h rfl rfl fun _ => rfl
  refine ⟨t, next, replaced, power, band, pending, fun p => ?_⟩
  rw [if_neg (by rintro ⟨_, is, -⟩; cases is)]
  exact told p

/-! ## A contract item (R138) -/

/-- An item has fallen to its default, and the block that reads it has acted; the trip and any event are still to come. -/
structure Defaulted (i : Item) (f y : State) : Prop where
  contracts : y.contracts = { f.contracts with contract := writeItem f.contracts.contract i (itemDefault i) }
  settlement : y.settlement = { f.settlement with
    openRecord := f.settlement.openRecord.map fun o => { o with contractDamaged := true } }
  around : surroundings y = surroundings f
  states : StatesStand f y
  record : ∀ d, (consumer y d).damageMark = (consumer f d).damageMark ∧ (consumer y d).recoveryCount = (consumer f d).recoveryCount
  timer : ∀ d, i ≠ .consumer d cRecoveryMode → (consumer y d).recoveryTimer = (consumer f d).recoveryTimer
  stopped : ∀ d, i = .consumer d cRecoveryMode → (consumer y d).recoveryTimer = none
  integrity : ∀ p : Fin 3, y.links.notices[p][clsIntegrity] = f.links.notices[p][clsIntegrity]
  triggers : itemConsumer i ≠ none → y.allocator.triggers = f.allocator.triggers

theorem recoveryMode_default (d : Fin 8) : itemDefault (.consumer d cRecoveryMode) = 0 := rfl

theorem item_withValues (i : Item) (v : Int) (f : State) : item (withValues [(i, v)] f) i = v :=
  readItem_writeItem_same f.contracts.contract i v

theorem manual_by_default (d : Fin 8) (f : State) :
    isAuto (withValues [(.consumer d cRecoveryMode, itemDefault (.consumer d cRecoveryMode))] f) d = false := by
  have value : item (withValues [(.consumer d cRecoveryMode, itemDefault (.consumer d cRecoveryMode))] f)
      (.consumer d cRecoveryMode) = 0 :=
    (item_withValues ..).trans (recoveryMode_default d)
  rw [isAuto, flagItem, value]
  rfl

theorem defaulted (i : Item) (f : State) :
    Defaulted i f { itemChanged i (withValues [(i, itemDefault i)] f) with
      settlement := { (itemChanged i (withValues [(i, itemDefault i)] f)).settlement with
        openRecord := (itemChanged i (withValues [(i, itemDefault i)] f)).settlement.openRecord.map
          fun o => { o with contractDamaged := true } } } := by
  have acted := reacts_itemChanged i (withValues [(i, itemDefault i)] f)
  have settlement := itemChanged_settlement (withValues [(i, itemDefault i)] f) i
  have states := states_itemChanged i (withValues [(i, itemDefault i)] f)
  have triggers : itemConsumer i ≠ none → (itemChanged i (withValues [(i, itemDefault i)] f)).allocator.triggers =
      f.allocator.triggers := fun own => by
    rw [(acts_itemChanged i _ (fun n is => own (by rw [is]; rfl))).allocator]
    rfl
  have manual (d : Fin 8) : i = .consumer d cRecoveryMode → isAuto (withValues [(i, itemDefault i)] f) d = false := by
    rintro rfl
    exact manual_by_default d f
  generalize itemChanged i (withValues [(i, itemDefault i)] f) = x at *
  refine ⟨acted.contracts, by rw [settlement]; rfl, acted.around, states, fun d => ⟨(acted.record d).2.1, (acted.record d).1⟩,
    fun d other => acted.timer d fun mem => other ?_, fun d is => acted.stopped d (by rw [is]; simp [modeOf]) (manual d is),
    fun p => acted.notices p _ (by decide) (by decide), triggers⟩
  cases i with
  | consumer c k =>
    unfold modeOf at mem
    dsimp only at mem
    split at mem
    next mode => rw [List.mem_singleton.1 mem, mode]
    next => cases mem
  | _ => cases mem

theorem defaultItem_clean {f : State} (clean : f.store.errors = []) (i : Item) : ∃ y, Defaulted i f y ∧
    defaultItem (readWith (checkWord 1)) i f = match itemConsumer i with
      | some c => trip c .contractDamaged (setDamageMark c y)
      | none => y := by
  refine ⟨_, defaulted i f, ?_⟩
  have set : setItem i (itemDefault i) f = withValues [(i, itemDefault i)] f := wrote_clean (by exact clean) _
  have store : (itemChanged i (withValues [(i, itemDefault i)] f)).store.errors = [] := by
    rw [itemChanged_store]
    exact clean
  have marked := onOpen_clean store 46 fun o => { o with contractDamaged := true }
  unfold defaultItem
  rw [set, reads_sweep _ _ (by exact clean)]
  exact congrArg (fun y => match itemConsumer i with
    | some c => trip c .contractDamaged (setDamageMark c y)
    | none => y) marked

/-- What neither a trip nor an event moves. -/
structure Carries (y t : State) : Prop where
  contracts : t.contracts = y.contracts
  store : t.store = y.store
  settlement : SettlementKept y t
  isOpen : t.settlement.openRecord.map (fun o => { o with flare := 0 }) = y.settlement.openRecord.map (fun o => { o with flare := 0 })
  integrity : ∀ p : Fin 3, t.links.notices[p][clsIntegrity] = y.links.notices[p][clsIntegrity]
  mark : ∀ d, (consumer t d).damageMark = (consumer y d).damageMark
  metering : t.metering = y.metering
  band : t.band = y.band
  power : t.power = y.power
  exports : t.exports = y.exports
  pending : t.pending = y.pending

theorem carries_of_downed (down : Downed y c t) : Carries y t := by
  obtain ⟨-, -, -, mark, -, -, -, integrity, power, -, -, metering, band, exports, contracts, store, pending, -, settlement, isOpen⟩ := down
  exact ⟨contracts, store, settlement, isOpen, integrity, mark, metering, band, power, exports, pending⟩

theorem carries_of_reacts {L : List (Fin 8)} (reacted : Reacts L y t) : Carries y t := by
  have rest := around_of_surroundings reacted.around
  have settlement : t.settlement = { y.settlement with openRecord := t.settlement.openRecord } := congrArg State.settlement reacted.rest
  refine ⟨reacted.contracts, rest.store, ?_, reacted.isOpen, fun p => reacted.notices p _ (by decide) (by decide),
    fun d => (reacted.record d).2.1, rest.metering, rest.band, rest.power, rest.exports, rest.pending⟩
  unfold SettlementKept
  rw [settlement]

end Sys2Proof.Proofs.DamageFound
end

section
/-! The two statements of the sweep: the damage of a contract item, and the damage of any word (R99, R138, R166 to R171). -/

namespace Sys2Proof.Proofs.Damaged
open Sys2Proof Sys2Proof.Machine Sys2Proof.Proofs.Fields Sys2Proof.Proofs.Notice Sys2Proof.Proofs.Event
  Sys2Proof.Proofs.Trips Sys2Proof.Proofs.Reactions Sys2Proof.Proofs.ItemActs Sys2Proof.Proofs.Sweep
  Sys2Proof.Proofs.DamageTrip Sys2Proof.Proofs.DamageFound Sys2Proof.Proofs.Unowned

variable {s t y : State} {x : Thing} {c : Fin 8} {i : Item}

/-- What the fall of an item to its default leaves of the part, whether or not it trips a consumer. -/
structure Fallen (i : Item) (s t : State) : Prop where
  own : item t i = itemDefault i
  others : ∀ j, j ≠ i → item t j = item s j
  contracts : t.contracts = { s.contracts with contract := t.contracts.contract }
  store : t.store = countedStore s (.contract i)
  integrity : ∀ p : Fin 3, t.links.notices[p][clsIntegrity] =
    addOccurrence (.integrity (regionOf s (.contract i))) s.links.notices[p][clsIntegrity]
  isOpen : t.settlement.openRecord.map (fun o => { o with flare := 0 }) =
    s.settlement.openRecord.map (fun o => { o with flare := 0, contractDamaged := true })
  settlement : SettlementKept s t
  metering : t.metering = s.metering
  band : t.band = s.band
  power : t.power = s.power
  exports : t.exports = s.exports
  pending : t.pending = s.pending

section
variable {n : Vector (Vector NoticeRecord 10) 3} {a : Vector Bool 3} {sup : Supervisor}
  (fell : Defaulted i (found (regionOf s (.contract i)) n a s) y)
include fell

theorem fallen_of_carries (told : ToldIntegrity (regionOf s (.contract i)) s n)
    (carries : Carries (stepped { y with supervisor := sup }) t) : Fallen i s t := by
  have rest := around_of_surroundings fell.around
  have contracts : t.contracts = { s.contracts with contract := writeItem s.contracts.contract i (itemDefault i) } :=
    carries.contracts.trans fell.contracts
  refine ⟨?_, fun j other => ?_, ?_, ?_, fun p => ?_, ?_, ?_, carries.metering.trans rest.metering, carries.band.trans rest.band,
    carries.power.trans rest.power, carries.exports.trans rest.exports, carries.pending.trans rest.pending⟩
  · rw [item, contracts, readItem_writeItem_same]
  · rw [item, contracts, readItem_writeItem_ne _ other, item]
  · rw [contracts]
  · exact carries.store.trans (congrArg (fun st : Store => { st with sweepPos := st.sweepPos + 1 }) rest.store)
  · rw [← (told p).1]
    exact (carries.integrity p).trans (fell.integrity p)
  · refine carries.isOpen.trans ?_
    show y.settlement.openRecord.map _ = _
    rw [fell.settlement]
    exact (Option.map_map ..).trans rfl
  · refine carries.settlement.trans ?_
    show { y.settlement with openRecord := none } = _
    rw [fell.settlement]
    rfl

/-- The recovery delay after the trip of the item's consumer (R97, R138). -/
theorem delay_of_downed (down : Downed (stepped (setConsumer c { consumer y c with damageMark := true } y)) c t) :
    (consumer t c).recoveryTimer =
      if (consumer s c).state ≠ .tripped then recoveryStarted { s with contracts := t.contracts } c
      else if i = .consumer c cRecoveryMode then none else (consumer s c).recoveryTimer := by
  have record : consumer (stepped (setConsumer c { consumer y c with damageMark := true } y)) c =
      { consumer y c with damageMark := true } := consumer_setConsumer_same ..
  have contracts : t.contracts = y.contracts := (carries_of_downed down).contracts
  have base : y.supervisor.base = s.supervisor.base := (around_of_surroundings fell.around).supervised
  have state : (consumer y c).state = (consumer s c).state := fell.states c
  have count : (consumer y c).recoveryCount = (consumer s c).recoveryCount := (fell.record c).2
  have started : recoveryStarted (stepped (setConsumer c { consumer y c with damageMark := true } y)) c =
      recoveryStarted { s with contracts := t.contracts } c := by
    unfold recoveryStarted
    rw [record, contracts]
    show (if isAuto y c = true ∧ (consumer y c).recoveryCount < 3 then
      some (⟨y.supervisor.base, 1000 * consumerItem y c cRecoveryDelay⟩ : Timer) else none) = _
    rw [count, base]
    rfl
  rw [down.timer, record, started]
  dsimp only
  rw [state]
  by_cases tripped : (consumer s c).state = .tripped
  · rw [if_pos tripped, if_neg (Classical.not_not.2 tripped)]
    split
    next mode => exact fell.stopped c mode
    next plain => exact fell.timer c plain
  · rw [if_neg tripped, if_pos tripped]

end

/-- What the damage of a contract item leaves of its consumer, where it has one (R99, R138). -/
structure ItemTrips (i : Item) (s t : State) : Prop where
  own : ∀ c, itemConsumer i = some c → (consumer t c).damageMark = true ∧ (consumer t c).state = .tripped ∧
    (consumer t c).causes.contractDamaged = true ∧ ((consumer s c).state = .active → grant t c = 0) ∧
    (consumer t c).recoveryTimer =
      (if (consumer s c).state ≠ .tripped then recoveryStarted { s with contracts := t.contracts } c
        else if i = .consumer c cRecoveryMode then none else (consumer s c).recoveryTimer) ∧
    t.lines.gasEn[c] = false ∧ t.lines.backupEn[c] = false
  others : ∀ c, itemConsumer i ≠ some c → (consumer t c).damageMark = (consumer s c).damageMark

/-- An item whose word the sweep finds uncorrectable. -/
theorem swept_contract (h : Swept s (.contract i) .uncorrectable) :
    ∃ t, exec .scrubRead s = .next t ∧ Fallen i s t ∧ ItemTrips i s t := by
  obtain ⟨n, a, told, read⟩ := h.readOwned rfl
  obtain ⟨y, fell, effect⟩ := defaultItem_clean (f := found (regionOf s (.contract i)) n a s) rfl i
  rw [react, effect] at read
  have rest := around_of_surroundings fell.around
  have clean : y.store.errors = [] := congrArg Store.errors rest.store
  have place : y.store.sweepPos = s.store.sweepPos := (congrArg Store.sweepPos rest.store).trans rfl
  cases owner : itemConsumer i with
  | none =>
    rw [owner] at read
    have carries := carries_of_reacts (reacts_settle (s := stepped y) clean)
    refine ⟨_, scrub_settles h read place, fallen_of_carries fell told carries,
      fun d is => ?_, fun d _ => (carries.mark d).trans (fell.record d).1⟩
    rw [owner] at is
    cases is
  | some c =>
    rw [owner] at read
    have marked : setDamageMark c y = setConsumer c { consumer y c with damageMark := true } y := wrote_clean (by exact clean) _
    have idle : y.allocator.triggers = 0 := (fell.triggers (by rw [owner]; nofun)).trans h.idle
    dsimp only at read
    rw [marked] at read
    have down := downed_trip (c := c) (u := setConsumer c { consumer y c with damageMark := true } y) clean idle
    have next := scrub_settles h read (by rw [trip_store]; exact place)
    generalize settle (stepped (trip c .contractDamaged (setConsumer c { consumer y c with damageMark := true } y))) = t at down next
    have carries := carries_of_downed down
    have record : consumer (stepped (setConsumer c { consumer y c with damageMark := true } y)) c =
        { consumer y c with damageMark := true } := consumer_setConsumer_same ..
    refine ⟨t, next, fallen_of_carries fell told carries, fun d is => ?_, fun d other => ?_⟩
    · obtain rfl := Option.some.inj (owner.symm.trans is)
      refine ⟨?_, down.state, down.cause, fun active => down.granted ?_, delay_of_downed fell down, down.valves.1, down.valves.2⟩
      · rw [down.mark, record]
      · rw [record]
        exact (fell.states c).trans active
    · have own : d ≠ c := fun is => other (by rw [is, owner])
      refine (down.mark d).trans (Eq.trans ?_ (fell.record d).1)
      exact congrArg Consumer.damageMark (consumer_setConsumer_ne own ..)

/-- Settles O46: the item falls alone, and its consumer trips. -/
theorem damagedItemFallsToItsDefault : Obligations.DamagedItemFallsToItsDefault := by
  unfold Obligations.DamagedItemFallsToItsDefault
  intro s i running idle errors within thing
  obtain ⟨t, next, fallen, trips⟩ := swept_contract ⟨running, idle, errors, within, thing⟩
  exact ⟨t, next, fallen.own, fallen.others, fallen.contracts, fallen.store, fallen.integrity, fallen.isOpen, fallen.settlement,
    trips.own, trips.others, fallen.metering, fallen.band, fallen.power, fallen.exports, fallen.pending⟩

theorem answers_contract (h : Swept s (.contract i) .uncorrectable) : ∃ t, exec .scrubRead s = .next t ∧ Answers s t (.contract i) := by
  obtain ⟨t, next, fallen, -⟩ := swept_contract h
  refine ⟨t, next, ⟨fallen.own, fallen.others⟩, fallen.power, fallen.band, fallen.pending, fun p => ?_⟩
  rw [if_neg (by rintro ⟨_, is, -⟩; cases is)]
  exact fallen.integrity p

/-- The owner of whatever thing the sweep finds damaged replaces it. -/
theorem swept_answers (h : Swept s x .uncorrectable) : ∃ t, exec .scrubRead s = .next t ∧ Answers s t x := by
  cases x with
  | totals ch => exact swept_quietly h rfl fun _ _ _ => quietly_totals ch
  | contract i => exact answers_contract h
  | nomination c => exact swept_nomination h
  | damageMark c => exact swept_damageMark h
  | proposal k => exact swept_quietly h rfl fun _ _ told => quietly_proposal k told
  | commissioning => exact swept_quietly h rfl fun _ _ _ => quietly_commissioning
  | revision => exact swept_quietly h rfl fun _ _ _ => quietly_revision
  | nextProposal => exact swept_quietly h rfl fun _ _ _ => quietly_nextProposal
  | identity => exact swept_quietly h rfl fun _ _ _ => quietly_identity
  | schedule k => exact swept_quietly h rfl fun _ _ _ => quietly_schedule k
  | latch => exact swept_quietly h rfl fun _ _ _ => quietly_latch
  | openRecord k => exact swept_quietly h rfl fun _ _ _ => quietly_openRecord k
  | archive k => exact swept_archive h
  | heatAccount => exact swept_quietly h rfl fun _ _ _ => quietly_heatAccount
  | gasAccount => exact swept_quietly h rfl fun _ _ _ => quietly_gasAccount
  | cursor p => exact swept_quietly h rfl fun _ _ _ => quietly_cursor p
  | gapMark p => exact swept_quietly h rfl fun _ _ _ => quietly_gapMark p
  | nextRecord => exact swept_quietly h rfl fun _ _ _ => quietly_nextRecord
  | report k => exact swept_report h
  | marks => exact swept_marks h
  | signature k => exact swept_quietly h rfl fun _ _ _ => quietly_signature k

/-- Settles O45: the sweep moves on, a single-bit error is corrected, and the owner of a damaged thing replaces it. -/
theorem scrubReadMovesTheSweep : Obligations.ScrubReadMovesTheSweep := by
  unfold Obligations.ScrubReadMovesTheSweep
  intro s running idle
  refine ⟨fun clean within => scrub_clean running idle clean within, fun clean last => scrub_last running idle clean last,
    fun errors within unmarked => scrub_oneBit running idle errors within unmarked,
    fun x errors within thing => swept_answers ⟨running, idle, errors, within, thing⟩⟩

end Sys2Proof.Proofs.Damaged
end
